-- ==== Sys2Proof/Word.lean ====
section
/-! DEFINITION. The machine's words: 8, 32, 64 and 1,024 bits (R3, R11), and a bundle's field reader. -/

namespace Sys2Proof

/-- A byte of memory. -/
abbrev Byte := BitVec 8
/-- A 32-bit word: a lane, a mask, an event counter (R11, R54). -/
abbrev W32 := BitVec 32
/-- A 64-bit scalar register (R11). -/
abbrev W64 := BitVec 64
/-- A segment register (R15). -/
abbrev W128 := BitVec 128
/-- A vector register: 32 lanes of 32 bits (R11, R30). -/
abbrev VReg := BitVec 1024

/-- Bits `[lo + n - 1 : lo]` of a number read as a word (R3, R7). -/
def fld (w lo n : Nat) : Nat := w / 2 ^ lo % 2 ^ n

end Sys2Proof
end

