-- ==== Sys2Proof/Payload.lean ====
section
/-! DEFINITION. What travels between agents: task records, requests, replies, messages, commands.
Plain data, named by the rules that lay each of them down. -/

namespace Sys2Proof

/-- A task record (R219), with the gang whose record it is (R223). -/
structure TaskRec where
  arg0 : W64
  arg1 : W64
  w2   : W64
  w3   : W64
  gang : Nat
  deriving DecidableEq, Repr, Inhabited

/-- What a built-in request does at its home (R264, R234). -/
inductive ReqOp where
  | load (size : Nat) (signed : Bool)
  | store (size : Nat)
  | vload
  | vstore
  | vbcast
  | sync (take : Bool)
  | fill
  | feSet
  | feClr
  | feTest
  | amo (op : Nat) (wide : Bool)
  | joinAdd
  | joinSub
  deriving DecidableEq, Repr, Inhabited

/-- A built-in request (R264): who asks, what, at which local address of the home, with which data.
`id` names the outstanding relaxed access it serves; `d` the destination register or predicate. -/
structure Req where
  src     : Nat
  slot    : Nat
  relaxed : Bool
  id      : Nat
  op      : ReqOp
  addr    : Nat
  off     : W32
  d       : Nat
  data    : VReg
  data2   : W64
  deriving DecidableEq, Repr, Inhabited

/-- A reply or acknowledgement of a home (R265, R267). -/
structure Reply where
  slot    : Nat
  relaxed : Bool
  id      : Nat
  op      : ReqOp
  d       : Nat
  value   : VReg
  ecc     : Bool
  off     : W32
  home    : Nat
  deriving DecidableEq, Repr, Inhabited

/-- A software active message (R268). -/
structure ActMsg where
  src     : Nat
  slot    : Nat
  relaxed : Bool
  id      : Nat
  handler : Nat
  w1      : W64
  w2      : W64
  w3      : W64
  tid     : Nat
  deriving DecidableEq, Repr, Inhabited

/-- What arrives at a core's network interface: a built-in request, or a SEND (R264, R269). -/
inductive NetMsg where
  | builtin (r : Req)
  | active (m : ActMsg)
  deriving DecidableEq, Repr, Inhabited

/-- A mailbox message (R301). `src` names the core and the command that hold a place until it is delivered (R285),
and is none once it is in a mailbox. -/
structure Msg where
  m0 : W64
  m1 : W64
  src : Option (Nat × Nat)
  deriving DecidableEq, Repr, Inhabited

/-- A scan value of 32 lanes: identity bit, a strips and b strips (R240). -/
structure LaneVal where
  ident : Bool
  a : VReg
  b : VReg
  deriving DecidableEq, Repr, Inhabited

/-- The kind of a Flue operation (R256). -/
inductive FlueKind where
  | xchSemi
  | xchFull
  | bar
  | comb
  deriving DecidableEq, Repr, Inhabited

/-- The place of a Flue message in the combination of R249: L(i-1) to the next rank, T_j and C_j to a
junction or a segment, or the completion of a full operation with the group total. -/
inductive FluePart where
  | carryL
  | carryC
  | partT
  | chainC
  | total
  deriving DecidableEq, Repr, Inhabited

/-- A Flue message (R256): group, round, kind and operator, with its value. `seg` numbers the segment. -/
structure FlueMsg where
  gang  : Nat
  first : Nat
  count : Nat
  round : Nat
  kind  : FlueKind
  op    : Nat
  part  : FluePart
  seg   : Nat
  src   : Nat
  val   : LaneVal
  flags : W64
  deriving DecidableEq, Repr, Inhabited

/-- A published bundle on its way to a member (R202, R207, R209): its channel, its word, its PC, the PC of the next
published bundle, and the skew in force for the member. -/
structure PubBundle where
  chan : Nat
  word : W64
  pc   : W64
  npc  : W64
  skew : Nat
  deriving DecidableEq, Repr, Inhabited

/-- What a membership notice says (R213, R214). -/
inductive Notice where
  | away
  | leave
  deriving DecidableEq, Repr, Inhabited

/-- The completion of an RDV as it reaches a member (R215): the channel, the RDV's id, and the PC of the next published
bundle (R216). -/
structure RdvEnd where
  chan : Nat
  id   : Nat
  npc  : W64
  deriving DecidableEq, Repr, Inhabited

/-- Which source a steal or take serves (R227, R229). -/
inductive StealFor where
  | dqpop
  | steal
  deriving DecidableEq, Repr, Inhabited

/-- A push on its way (R226, R233): the record, the band it joins, and the pusher. -/
structure Push where
  task    : TaskRec
  src     : Nat
  slot    : Nat
  pred    : Nat
  split   : Bool
  toQueue : Bool
  dest    : Nat
  deriving DecidableEq, Repr, Inhabited

/-- A steal request (R228) or a die-queue take (R223): who asks and for what, the number of a STEAL's request, and the
cycle by which the answer is delivered (R232). -/
structure StealReq where
  src    : Nat
  slot   : Nat
  gang   : Nat
  pinned : Option Nat
  die    : Nat
  why    : StealFor
  id     : Nat
  till   : Nat
  deriving DecidableEq, Repr, Inhabited

/-- The answer to a steal request or a die-queue take (R223, R228): the request's number, the core or die queue that
answers (R224), and the record, or none for a refusal. -/
structure StealAns where
  id   : Nat
  src  : Nat
  task : Option TaskRec
  deriving DecidableEq, Repr, Inhabited

/-- A request of an engine to memory that can fault (R329). -/
structure FaultRec where
  fid    : Nat
  ctx    : Nat
  tid    : Nat
  tv     : Bool
  eng    : Nat
  unit   : Nat
  wr     : Bool
  reason : Nat
  va     : Nat
  rank   : Nat
  pcore  : Nat
  deriving DecidableEq, Repr, Inhabited

/-- A host submission entry of 64 bytes (R373). -/
structure SqEntry where
  queue : Nat
  seq   : Nat
  n     : Nat
  data  : BitVec 512
  deriving DecidableEq, Repr, Inhabited

/-- A remote atomic of another package on a Cord link (R384). -/
structure CordAtomic where
  pkg     : Nat
  link    : Nat
  seq     : Nat
  retry   : Bool
  op      : Nat
  wide    : Bool
  addr    : Nat
  operand : W64
  newval  : W64
  deriving DecidableEq, Repr, Inhabited

/-- A transfer over the Cord links (R380, R383); `ctx`: the context of its addresses here; `far`: another package's, to or from
this one's memory; `orphan`: nobody here awaits its end. -/
structure CordXfer where
  id     : Nat
  notice : Bool
  core   : Nat
  slot   : Nat
  tag    : Nat
  write  : Bool
  src    : Nat
  dst    : Nat
  len    : Nat
  pkg    : Nat
  data   : List Byte
  failed : Bool
  ctx    : Nat
  far    : Bool
  orphan : Bool
  deriving DecidableEq, Repr, Inhabited

end Sys2Proof
end

