-- ==== Sys2Proof/Event.lean ====
section
/-! DEFINITION. The steps that units, the hub, the host and the controller take, as plain data: what the
agenda of State holds, each the row of the same name among the instructions; and the halves of a bundle. -/

namespace Sys2Proof

/-- Where an instruction stands in a bundle (R56, R58, R60), or that it is a step of the machine itself. -/
inductive SylKind where
  | short
  | long
  | vector
  | event
  deriving DecidableEq, Repr

/-- A step of a unit, the hub, the host or the controller. -/
inductive Event where
  | divideStart (core : Nat)
  | divideComplete (core : Nat)
  | haltDrainComplete (core slot : Nat)
  | fenceComplete (core slot : Nat)
  | taskendComplete (core slot : Nat)
  | unitWaitEnd (core slot : Nat)
  | ringWaitEnd (core slot : Nat)
  | stripReady (core slot : Nat)
  | copyQueuePlaceFree (core slot : Nat)
  | timerExpiry (core slot : Nat)
  | sleepTimeout (core slot : Nat)
  | istSwitch (core : Nat)
  | coreBank (core : Nat)
  | restartEnd (core : Nat)
  | publishedBundleArrive (core slot : Nat) (bun : PubBundle)
  | joinRequestArrive (core slot tid : Nat)
  | subscrRefusalArrive (core slot : Nat)
  | rdvReportArrive (core slot tid : Nat)
  | rdvCompletionArrive (core slot : Nat) (fin : RdvEnd) (skew : Nat)
  | membershipNoticeArrive (core slot tid : Nat) (note : Notice)
  | publishEndArrive (core slot chan : Nat)
  | remoteRequestArrive (core : Nat) (msg : NetMsg)
  | builtinRequestPerform (core : Nat)
  | remoteReply (core : Nat) (rep : Reply)
  | feWithdrawalArrive (core src slot : Nat)
  | handlerStart (core : Nat)
  | pushArrive (push : Push)
  | pushAckArrive (push : Push)
  | pushRefusalArrive (push : Push)
  | stealRequestArrive (core : Nat) (req : StealReq)
  | stealAnswerArrive (core slot : Nat) (why : StealFor) (ans : StealAns)
  | dieQueueRequest (die : Nat) (req : StealReq)
  | dqpopPass (core slot : Nat)
  | joinCounterUpdate (core addr : Nat) (up : Bool)
  | cancelArrive (core gang tag : Nat)
  | cancellComplete (core slot : Nat)
  | accumulatorClear (core : Nat)
  | mmaStepStart (core : Nat)
  | mmaStepRetire (core : Nat)
  | matrixOpComplete (core : Nat)
  | sequencerIssue (core : Nat)
  | sequenceEnd (core : Nat)
  | scanTileRow (core : Nat)
  | scnfixRow (core : Nat)
  | flueMessageArrive (core : Nat) (msg : FlueMsg)
  | flueDeferredSend (core : Nat)
  | flueOperationComplete (core : Nat)
  | copyCommandStart (core queue : Nat)
  | copyCommandComplete (core queue : Nat)
  | copyRingPushDeferred (core queue : Nat)
  | mcastTargetComplete (core queue rank : Nat)
  | buffreeCredit (core slot tag : Nat)
  | streamRefill (core unit : Nat)
  | streamDrain (core unit : Nat)
  | portStripArrive (core port : Nat) (strip : VReg) (last : Bool) (src slot id : Nat)
  | messageArrive (core slot : Nat) (msg : Msg)
  | mailboxHeldEntry (core slot : Nat)
  | uliDeliver (core slot : Nat)
  | caddyQuery (core slot counter addr : Nat)
  | caddyAnswer (core slot addr : Nat) (ans : W32)
  | pageFault (core eng unit va : Nat) (wr : Bool) (reason : Nat)
  | wakeArrive (fid tid : Nat)
  | engineEccError (core eng unit tid va : Nat)
  | preemptArrive (core : Nat)
  | slot15Restart (core : Nat)
  | rankMove (gang rank spx : Nat)
  | cowCopy (ctx va : Nat)
  | frameReturn (frame : Nat)
  | laneSpare (die : Nat)
  | flitRetry (kind link : Nat)
  | linkFail (die : Nat)
  | linkHeal (die : Nat)
  | memoryLinkFail (die : Nat)
  | cordLinkDrop (link : Nat)
  | cordAtomicArrive (req : CordAtomic)
  | cordAtomicTimeout (seq : Nat)
  | cordTransferComplete (xid : Nat)
  | cbarArrive (bid pkg count : Nat)
  | saved (core slot : Nat) (blk : BitVec 512)
  | restored (core slot : Nat) (blk : BitVec 512)
  | gangfail (core slot : Nat) (blk : BitVec 512)
  | caddy (core slot : Nat) (blk : BitVec 512)
  | cwrite (core slot : Nat) (blk : BitVec 512)
  | cread (core slot : Nat) (blk : BitVec 512)
  | catom (core slot : Nat) (blk : BitVec 512)
  | cbar (core slot : Nat) (blk : BitVec 512)
  | sqtailWrite (queue : Nat) (val : W64)
  | entryAccept
  | sqctlEn (queue : Nat) (val : W64)
  | sqctlRst (queue : Nat)
  | wake (val : W64)
  | fqcons (val : W64)
  | hubRegisterWrite (off : Nat) (val : W64)
  | launch (e : SqEntry)
  | gangPlace (gang : Nat)
  | launchDone (gang : Nat)
  | copy (e : SqEntry)
  | pgfork (e : SqEntry)
  | cancel (e : SqEntry)
  | kill (e : SqEntry)
  | killDrained (ctx : Nat)
  | queueFence (e : SqEntry)
  | signal (e : SqEntry)
  | cancelFaults (e : SqEntry)
  | preempt (e : SqEntry)
  | resume (e : SqEntry)
  | commandFinish (queue seq : Nat)
  | hostMemWrite (addr : Nat) (line : BitVec 512)
  | hostMemRead (addr : Nat)
  | powerOn
  | perst
  | bringUpStage
  | rst
  | svncommit
  | pwrlimWrite (val : W32)
  | mgmtRegisterWrite (off : Nat) (val : W32)
  | firmwareImageLoad (img : Nat) (svn : BitVec 16) (keyok sigok : Bool)
  | powerSample (mw amps temp : Nat)
  | clockStepChange
  | scrub (core addr : Nat)
  | getVersion
  | getCapabilities
  | negotiateAlgorithms (extasym exthash : Bool)
  | getDigests
  | getCertificate (slot off len : Nat)
  | challenge (slot : Nat)
  | getMeasurements (idx : Nat) (signed : Bool)
  | spdmUnsupportedRequest (code : Nat)
  | spdmSignedResponse
  | cowCopyComplete (ctx va : Nat)
  | scanImageStripWrite (core : Nat)
  | replyCacheEntryAge (link : Nat)
  | retrainingEnd (die : Nat)
  | changeoverEnd (die : Nat)
  deriving DecidableEq, Repr, Inhabited

end Sys2Proof
end

