-- ==== Sys2Proof/Syntax.lean ====
section
/-! DEFINITION. The instructions: one constructor for each row of the opcode table (R63 to R67, and the
operations and events of 95_what_each_step_holds.md). A field named d, a, b, c or n holds the register
index or value its entry gives; `sg` is a segment register, `rx` the relaxed bit, `m` a mask, `t` a type
code, `imm` an immediate as encoded. A step that a unit, the hub or the host takes names its core, its
slot or its unit, and carries what it delivers. -/

namespace Sys2Proof

/-- Every row of the opcode table, one constructor each. -/
inductive Instr where
  -- V-slot instructions (R67).
  /-- No vector operation. (R132) -/
  | vnop
  /-- Floating add of two vectors. (R114) -/
  | vadd (d a b : BitVec 5) (m t : BitVec 3)
  /-- Floating subtract of two vectors. (R114) -/
  | vsub (d a b : BitVec 5) (m t : BitVec 3)
  /-- Floating multiply of two vectors. (R114) -/
  | vmul (d a b : BitVec 5) (m t : BitVec 3)
  /-- Floating minimum. (R114) -/
  | vmin (d a b : BitVec 5) (m t : BitVec 3)
  /-- Floating maximum. (R114) -/
  | vmax (d a b : BitVec 5) (m t : BitVec 3)
  /-- Clears the sign bit of each element. (R115) -/
  | vabs (d a : BitVec 5) (m t : BitVec 3)
  /-- Inverts the sign bit of each element. (R115) -/
  | vneg (d a : BitVec 5) (m t : BitVec 3)
  /-- Writes a one-hot class code per element. (R115) -/
  | vclass (d a : BitVec 5) (m t : BitVec 3)
  /-- Rounds each element to an integral value in its format. (R115) -/
  | vrndi (d a : BitVec 5) (m t : BitVec 3)
  /-- Floating add of a vector and a scalar. (R113) -/
  | vaddScalar (d a : BitVec 5) (sc : BitVec 6) (m t : BitVec 3)
  /-- Floating subtract of a scalar from a vector. (R113) -/
  | vsubScalar (d a : BitVec 5) (sc : BitVec 6) (m t : BitVec 3)
  /-- Floating multiply of a vector by a scalar. (R113) -/
  | vmulScalar (d a : BitVec 5) (sc : BitVec 6) (m t : BitVec 3)
  /-- Fused multiply-add with one rounding. (R114) -/
  | vfma (d a b c : BitVec 5) (m : BitVec 3) (t : BitVec 2)
  /-- Fused multiply-subtract with one rounding. (R114) -/
  | vfms (d a b c : BitVec 5) (m : BitVec 3) (t : BitVec 2)
  /-- Fused negated multiply-add with one rounding. (R114) -/
  | vfnma (d a b c : BitVec 5) (m : BitVec 3) (t : BitVec 2)
  /-- Floating compare equal into a mask. (R116) -/
  | vcmpEq (d : BitVec 3) (a b : BitVec 5) (m t : BitVec 3)
  /-- Floating compare not equal into a mask. (R116) -/
  | vcmpNe (d : BitVec 3) (a b : BitVec 5) (m t : BitVec 3)
  /-- Floating compare less than into a mask. (R116) -/
  | vcmpLt (d : BitVec 3) (a b : BitVec 5) (m t : BitVec 3)
  /-- Floating compare less or equal into a mask. (R116) -/
  | vcmpLe (d : BitVec 3) (a b : BitVec 5) (m t : BitVec 3)
  /-- Floating unordered test into a mask. (R116) -/
  | vcmpUn (d : BitVec 3) (a b : BitVec 5) (m t : BitVec 3)
  /-- Floating ordered test into a mask. (R116) -/
  | vcmpOr (d : BitVec 3) (a b : BitVec 5) (m t : BitVec 3)
  /-- Narrows two binary32 vectors to binary16. (R117) -/
  | vcvtF16F32 (d a b : BitVec 5) (m t : BitVec 3)
  /-- Narrows two binary32 vectors to BF16. (R117) -/
  | vcvtBf16F32 (d a b : BitVec 5) (m t : BitVec 3)
  /-- Widens binary16 elements to binary32. (R117) -/
  | vcvtF32F16 (d a : BitVec 5) (m t : BitVec 3)
  /-- Widens BF16 elements to binary32. (R117) -/
  | vcvtF32Bf16 (d a : BitVec 5) (m t : BitVec 3)
  /-- Converts binary32 to signed 32-bit integers with saturation. (R117) -/
  | vcvtI32F32 (d a : BitVec 5) (m t : BitVec 3)
  /-- Converts binary32 to unsigned 32-bit integers with saturation. (R117) -/
  | vcvtN32F32 (d a : BitVec 5) (m t : BitVec 3)
  /-- Converts signed 32-bit integers to binary32. (R117) -/
  | vcvtF32I32 (d a : BitVec 5) (m t : BitVec 3)
  /-- Converts unsigned 32-bit integers to binary32. (R117) -/
  | vcvtF32N32 (d a : BitVec 5) (m t : BitVec 3)
  /-- Reciprocal of each element. (R118) -/
  | vrcp (d a : BitVec 5) (m t : BitVec 3)
  /-- Reciprocal square root of each element. (R118) -/
  | vrsq (d a : BitVec 5) (m t : BitVec 3)
  /-- Power of two of each element. (R118) -/
  | vexp2 (d a : BitVec 5) (m t : BitVec 3)
  /-- Base-2 logarithm of each element. (R118) -/
  | vlog2 (d a : BitVec 5) (m t : BitVec 3)
  /-- Hyperbolic tangent of each element. (R118) -/
  | vtanh (d a : BitVec 5) (m t : BitVec 3)
  /-- Logistic sigmoid of each element. (R118) -/
  | vsig (d a : BitVec 5) (m t : BitVec 3)
  /-- Wrapping integer add of two vectors. (R119) -/
  | vaddi (d a b : BitVec 5) (m t : BitVec 3)
  /-- Wrapping integer subtract of two vectors. (R119) -/
  | vsubi (d a b : BitVec 5) (m t : BitVec 3)
  /-- Integer multiply, low bits. (R119) -/
  | vmuli (d a b : BitVec 5) (m t : BitVec 3)
  /-- Integer multiply, high bits. (R119) -/
  | vmulhi (d a b : BitVec 5) (m t : BitVec 3)
  /-- Integer minimum. (R119) -/
  | vmini (d a b : BitVec 5) (m t : BitVec 3)
  /-- Integer maximum. (R119) -/
  | vmaxi (d a b : BitVec 5) (m t : BitVec 3)
  /-- Absolute integer difference. (R119) -/
  | vabsdi (d a b : BitVec 5) (m t : BitVec 3)
  /-- Bitwise AND of vectors. (R119) -/
  | vand (d a b : BitVec 5) (m t : BitVec 3)
  /-- Bitwise OR of vectors. (R119) -/
  | vor (d a b : BitVec 5) (m t : BitVec 3)
  /-- Bitwise XOR of vectors. (R119) -/
  | vxor (d a b : BitVec 5) (m t : BitVec 3)
  /-- Bitwise NOT of a vector. (R119) -/
  | vnot (d a : BitVec 5) (m t : BitVec 3)
  /-- Shifts elements left by per-element counts. (R119) -/
  | vshl (d a b : BitVec 5) (m t : BitVec 3)
  /-- Shifts elements right logically by per-element counts. (R119) -/
  | vshr (d a b : BitVec 5) (m t : BitVec 3)
  /-- Shifts elements right arithmetically by per-element counts. (R119) -/
  | vsra (d a b : BitVec 5) (m t : BitVec 3)
  /-- Rounding right shift by per-element counts. (R119) -/
  | vrshr (d a b : BitVec 5) (m t : BitVec 3)
  /-- Saturating integer add. (R119) -/
  | vaddiSat (d a b : BitVec 5) (m t : BitVec 3)
  /-- Saturating integer subtract. (R119) -/
  | vsubiSat (d a b : BitVec 5) (m t : BitVec 3)
  /-- Integer add of a scalar to each element. (R119) -/
  | vaddiScalar (d a : BitVec 5) (sc : BitVec 6) (m t : BitVec 3)
  /-- Integer subtract of a scalar from each element. (R119) -/
  | vsubiScalar (d a : BitVec 5) (sc : BitVec 6) (m t : BitVec 3)
  /-- Integer multiply of each element by a scalar. (R119) -/
  | vmuliScalar (d a : BitVec 5) (sc : BitVec 6) (m t : BitVec 3)
  /-- Integer minimum with a scalar. (R119) -/
  | vminiScalar (d a : BitVec 5) (sc : BitVec 6) (m t : BitVec 3)
  /-- Integer maximum with a scalar. (R119) -/
  | vmaxiScalar (d a : BitVec 5) (sc : BitVec 6) (m t : BitVec 3)
  /-- Shifts elements left by an immediate. (R119) -/
  | vshlImm (d a : BitVec 5) (imm : BitVec 6) (m t : BitVec 3)
  /-- Shifts elements right logically by an immediate. (R119) -/
  | vshrImm (d a : BitVec 5) (imm : BitVec 6) (m t : BitVec 3)
  /-- Shifts elements right arithmetically by an immediate. (R119) -/
  | vsraImm (d a : BitVec 5) (imm : BitVec 6) (m t : BitVec 3)
  /-- Rounding right shift by an immediate. (R119) -/
  | vrshrImm (d a : BitVec 5) (imm : BitVec 6) (m t : BitVec 3)
  /-- Adds pairs of 16-bit products into 32-bit lanes, wrapping. (R120) -/
  | vmac2 (d a b : BitVec 5) (m t : BitVec 3)
  /-- Adds pairs of 16-bit products into 32-bit lanes, saturating. (R120) -/
  | vmac2Sat (d a b : BitVec 5) (m t : BitVec 3)
  /-- Adds four 8-bit products into 32-bit lanes, wrapping. (R120) -/
  | vdot4 (d a b : BitVec 5) (m t : BitVec 3)
  /-- Adds four 8-bit products into 32-bit lanes, saturating. (R120) -/
  | vdot4Sat (d a b : BitVec 5) (m t : BitVec 3)
  /-- Narrows two vectors with saturation. (R121) -/
  | vsatn (d a b : BitVec 5) (m t : BitVec 3)
  /-- Widens the lower half of the elements. (R121) -/
  | vwidenLo (d a : BitVec 5) (m t : BitVec 3)
  /-- Widens the upper half of the elements. (R121) -/
  | vwidenHi (d a : BitVec 5) (m t : BitVec 3)
  /-- Integer compare equal into a mask. (R122) -/
  | vcmpiEq (d : BitVec 3) (a b : BitVec 5) (m t : BitVec 3)
  /-- Integer compare not equal into a mask. (R122) -/
  | vcmpiNe (d : BitVec 3) (a b : BitVec 5) (m t : BitVec 3)
  /-- Integer compare less than into a mask. (R122) -/
  | vcmpiLt (d : BitVec 3) (a b : BitVec 5) (m t : BitVec 3)
  /-- Integer compare less or equal into a mask. (R122) -/
  | vcmpiLe (d : BitVec 3) (a b : BitVec 5) (m t : BitVec 3)
  /-- Population count of each element. (R123) -/
  | vpopc (d a : BitVec 5) (m t : BitVec 3)
  /-- Exclusive prefix popcount across active lanes. (R123) -/
  | vprepop (d a : BitVec 5) (m t : BitVec 3)
  /-- Leading zero count of each element. (R123) -/
  | vclz (d a : BitVec 5) (m t : BitVec 3)
  /-- Slides lanes up by an immediate, filling with zero. (R124) -/
  | vslideUp (d a : BitVec 5) (imm : BitVec 6) (m : BitVec 3)
  /-- Slides lanes down by an immediate, filling with zero. (R124) -/
  | vslideDn (d a : BitVec 5) (imm : BitVec 6) (m : BitVec 3)
  /-- Permutes lanes by per-lane indices. (R124) -/
  | vperm (d a b : BitVec 5) (m : BitVec 3)
  /-- Compresses the active lanes to the bottom. (R124) -/
  | vcmprs (d a : BitVec 5) (m : BitVec 3)
  /-- Expands lanes into the active lanes. (R124) -/
  | vexpnd (d a : BitVec 5) (m : BitVec 3)
  /-- Writes the count of active lanes below each lane. (R124) -/
  | viota (d : BitVec 5) (m : BitVec 3)
  /-- Selects each lane from va or vb by mask. (R124) -/
  | vselv (d a b : BitVec 5) (m : BitVec 3)
  /-- Copies active lanes. (R124) -/
  | vmov (d a : BitVec 5) (m : BitVec 3)
  /-- Broadcasts a scalar to the active lanes. (R124) -/
  | vbcast (d : BitVec 5) (sc : BitVec 6) (m : BitVec 3)
  /-- Integer sum of the active lanes to every lane. (R125) -/
  | vredAddInt (d a : BitVec 5) (m t : BitVec 3)
  /-- Integer minimum of the active lanes. (R125) -/
  | vredMinInt (d a : BitVec 5) (m t : BitVec 3)
  /-- Integer maximum of the active lanes. (R125) -/
  | vredMaxInt (d a : BitVec 5) (m t : BitVec 3)
  /-- Floating pairwise-tree sum of the active lanes. (R125) -/
  | vredAddFloat (d a : BitVec 5) (m t : BitVec 3)
  /-- Floating minimum of the active lanes. (R125) -/
  | vredMinFloat (d a : BitVec 5) (m t : BitVec 3)
  /-- Floating maximum of the active lanes. (R125) -/
  | vredMaxFloat (d a : BitVec 5) (m t : BitVec 3)
  /-- Inclusive integer sum scan across lanes. (R126) -/
  | vscaniAddInt (d a : BitVec 5) (m t : BitVec 3)
  /-- Inclusive integer maximum scan across lanes. (R126) -/
  | vscaniMaxInt (d a : BitVec 5) (m t : BitVec 3)
  /-- Inclusive floating sum scan across lanes. (R126) -/
  | vscaniAddFloat (d a : BitVec 5) (m t : BitVec 3)
  /-- Quantises a block to BX and writes its scale word and bitmap bit. (R128) -/
  | vqnt (d a b : BitVec 5) (m t : BitVec 3)
  /-- Dequantises a BX block to binary32. (R129) -/
  | vdqnt (d a b : BitVec 5) (m t : BitVec 3)
  /-- Merges candidates into a sorted top-k list. (R130) -/
  | vtopk (d a b : BitVec 5) (m t : BitVec 3)
  /-- Top-k merge that skips zero candidates. (R130) -/
  | vtopkNz (d a b : BitVec 5) (m t : BitVec 3)
  /-- ANDs two masks. (R131) -/
  | mand (d a b : BitVec 3)
  /-- ORs two masks. (R131) -/
  | mor (d a b : BitVec 3)
  /-- XORs two masks. (R131) -/
  | mxor (d a b : BitVec 3)
  /-- Inverts a mask. (R131) -/
  | mnot (d a : BitVec 3)
  /-- Sets a mask to its lowest n bits. (R131) -/
  | mset (d : BitVec 3) (n : BitVec 10)
  /-- Hands a tile step to the matrix unit. (R148) -/
  | mma (acc qa qb : BitVec 3) (sat clr ha hb : BitVec 1)
  -- S-slot instructions, long form (R66).
  /-- Loads a sign-extended 32-bit immediate. (R85) -/
  | movl (d : BitVec 6) (imm : BitVec 32)
  /-- Places a 32-bit immediate in the upper half of s[d]. (R85) -/
  | movhi (d : BitVec 6) (imm : BitVec 32)
  /-- Atomic add at the word's home. (R273) -/
  | amoadd (d a b : BitVec 6) (sg scope : BitVec 3) (order : BitVec 2) (rx w : BitVec 1) (imm : BitVec 19)
  /-- Atomic AND at the word's home. (R273) -/
  | amoand (d a b : BitVec 6) (sg scope : BitVec 3) (order : BitVec 2) (rx w : BitVec 1) (imm : BitVec 19)
  /-- Atomic OR at the word's home. (R273) -/
  | amoor (d a b : BitVec 6) (sg scope : BitVec 3) (order : BitVec 2) (rx w : BitVec 1) (imm : BitVec 19)
  /-- Atomic XOR at the word's home. (R273) -/
  | amoxor (d a b : BitVec 6) (sg scope : BitVec 3) (order : BitVec 2) (rx w : BitVec 1) (imm : BitVec 19)
  /-- Atomic signed minimum. (R273) -/
  | amomin (d a b : BitVec 6) (sg scope : BitVec 3) (order : BitVec 2) (rx w : BitVec 1) (imm : BitVec 19)
  /-- Atomic signed maximum. (R273) -/
  | amomax (d a b : BitVec 6) (sg scope : BitVec 3) (order : BitVec 2) (rx w : BitVec 1) (imm : BitVec 19)
  /-- Atomic unsigned minimum. (R273) -/
  | amominn (d a b : BitVec 6) (sg scope : BitVec 3) (order : BitVec 2) (rx w : BitVec 1) (imm : BitVec 19)
  /-- Atomic unsigned maximum. (R273) -/
  | amomaxn (d a b : BitVec 6) (sg scope : BitVec 3) (order : BitVec 2) (rx w : BitVec 1) (imm : BitVec 19)
  /-- Atomic swap. (R273) -/
  | amoswap (d a b : BitVec 6) (sg scope : BitVec 3) (order : BitVec 2) (rx w : BitVec 1) (imm : BitVec 19)
  /-- Atomic compare and swap. (R273) -/
  | amocas (d a b : BitVec 6) (sg : BitVec 3) (c : BitVec 6) (scope : BitVec 3) (order : BitVec 2) (rx w : BitVec 1) (imm : BitVec 19)
  -- S-slot instructions, short form (R64, R65).
  /-- Empties an answer word and sends a Caddy query. (R316) -/
  | wdq (a : BitVec 6) (c : BitVec 3)
  /-- Binds a stream unit to an inbound port or a pipe end. (R309) -/
  | sbind (e k : BitVec 3) (t r : BitVec 1) (u : BitVec 3)
  /-- Binds a stream unit to a local, global or host pattern. (R307) -/
  | scfg (n : BitVec 6) (k : BitVec 3) (r : BitVec 1) (u : BitVec 3)
  /-- Queues a copy to the same offset in each rank of a list. (R298) -/
  | mcast (n a : BitVec 6)
  /-- Queues a patterned copy with destination strides. (R290) -/
  | cpyt (n : BitVec 6)
  /-- Queues a scatter copy, plain or adding, through an index list. (R292) -/
  | cpys (n : BitVec 6)
  /-- Queues a gather copy through an index list. (R292) -/
  | cpyg (n : BitVec 6)
  /-- Queues a copy command and parks until it completes. (R296) -/
  | cpyw (n : BitVec 6)
  /-- Queues a linear or patterned copy command. (R291) -/
  | cpy (n : BitVec 6)
  /-- Sends a steal request to a rank and parks for the answer. (R229) -/
  | steal (n a : BitVec 6) (k : BitVec 3)
  /-- Divides the running range record and pushes its upper half. (R233) -/
  | split (n : BitVec 6) (k : BitVec 3)
  /-- Pushes a task record into another rank's deque. (R226) -/
  | dqpushr (n a : BitVec 6) (k : BitVec 3)
  /-- Takes an eligible task record, searching levels up to its scope. (R227) -/
  | dqpop (n : BitVec 6) (j : BitVec 1) (scope : BitVec 2) (w : BitVec 1) (k : BitVec 3)
  /-- Pushes a task record into a die queue. (R226) -/
  | forkd (n : BitVec 6) (k : BitVec 3)
  /-- Pushes a task record into the own deque, spilling to the die queue. (R226) -/
  | fork (n : BitVec 6) (k : BitVec 3)
  /-- Sends an end strip to a port. (R310) -/
  | psende (n : BitVec 6)
  /-- Sends one local strip to a port of another rank. (R310) -/
  | psend (n : BitVec 6)
  /-- Sends a software active message to a rank's handler. (R268) -/
  | send (n a : BitVec 6) (rx : BitVec 1) (h : BitVec 4)
  /-- Configures and takes an operand ring from a descriptor. (R139) -/
  | ringcfg (d : BitVec 3) (a : BitVec 6)
  /-- Releases an operand ring once no step uses it. (R139) -/
  | ringcfgRel (d : BitVec 3)
  /-- Pushes the tail slot of an owned ring. (R140) -/
  | ringadv (d : BitVec 3)
  /-- Discards the head tile of an owned ring. (R140) -/
  | ringadvPop (d : BitVec 3)
  /-- Reads a ring's status or slot offsets. (R141) -/
  | ringstat (d : BitVec 6) (a : BitVec 3) (which : BitVec 6)
  /-- Configures an accumulator and queues its clear. (R153) -/
  | mzero (d : BitVec 3)
  /-- Releases an accumulator once no step uses it. (R153) -/
  | mzeroRel (d : BitVec 3)
  /-- Loads an accumulator from the local store with conversion. (R155) -/
  | mload (c d : BitVec 3) (a b : BitVec 6)
  /-- Writes an accumulator to the local store with conversion. (R155) -/
  | mdrain (c d : BitVec 3) (a b : BitVec 6)
  /-- Writes GEOM. (R144) -/
  | geomset (a : BitVec 6)
  /-- Writes a mask of the valid rows or columns of the current tile. (R144) -/
  | geommask (d : BitVec 3) (c : BitVec 1)
  /-- Takes the repetition buffer and opens capture of the next n bundles. (R158) -/
  | repcap (n : BitVec 6)
  /-- Releases the repetition buffer. (R158) -/
  | repcapRel
  /-- Starts the captured sequence with a count and strides. (R159) -/
  | repgo (a b : BitVec 6)
  /-- Waits for the sequence to end and returns its iteration count. (R163) -/
  | repwait (d : BitVec 6)
  /-- Opens side A or B of a cursor from a descriptor. (R171) -/
  | cxopen (d : BitVec 3) (a : BitVec 6) (side : BitVec 1)
  /-- Closes and releases a cursor. (R171) -/
  | cxopenRel (d : BitVec 3)
  /-- Selects intersection over a range and restarts the walk. (R172) -/
  | cxand (d : BitVec 3) (a b : BitVec 6)
  /-- Selects union over a range and restarts the walk. (R172) -/
  | cxor (d : BitVec 3) (a b : BitVec 6)
  /-- Selects difference over a range and restarts the walk. (R172) -/
  | cxdiff (d : BitVec 3) (a b : BitVec 6)
  /-- Runs one pair-mode window and delivers coordinates and ordinals. (R174) -/
  | cxnext (d : BitVec 6) (c p m : BitVec 3)
  /-- Runs one word-mode window and delivers bitmap words. (R179) -/
  | cxnextW (d : BitVec 6) (c p m : BitVec 3)
  /-- Hands the upper half of side A's remainder to another cursor. (R181) -/
  | cxsplit (d a p : BitVec 3)
  /-- Writes a cursor's 64-byte image. (R182) -/
  | cxsave (a : BitVec 3) (b : BitVec 6)
  /-- Loads a cursor from its image. (R182) -/
  | cxrest (d : BitVec 3) (a : BitVec 6)
  /-- Reads cursor status, ordinals, word bases or the next word-mode start. (R180) -/
  | cxstat (d : BitVec 6) (a : BitVec 3) (which : BitVec 6)
  /-- Takes the scan engine and names its group. (R243) -/
  | scngrp (c : BitVec 1) (a b : BitVec 6)
  /-- Releases the scan engine after its tiles complete. (R243) -/
  | scngrpRel
  /-- Sets the scan operator and resets the lane registers. (R244) -/
  | scnop (a : BitVec 6)
  /-- Checks a tile descriptor and queues the tile for scanning. (R246) -/
  | scntile (a : BitVec 6)
  /-- Contributes RUN to a Flue round and receives the carry-in. (R250) -/
  | scnxch (d : BitVec 6) (f : BitVec 1)
  /-- Applies CIN to a scanned tile. (R251) -/
  | scnfix (a : BitVec 6)
  /-- Writes the scan engine state as an 832-byte image. (R251) -/
  | scnfixSt (a : BitVec 6)
  /-- Takes part in a full Flue barrier. (R252) -/
  | fbar (d : BitVec 6)
  /-- Full barrier that sums the members' event counters into a record. (R253) -/
  | fcomb (a : BitVec 6) (c : BitVec 1)
  /-- Tells a multicast's sender that a receiving buffer is free. (R299) -/
  | buffree (a : BitVec 6)
  /-- Reads the status of a copy queue. (R300) -/
  | cpyqstat (d q : BitVec 6)
  /-- Drains or ends a stream binding and releases the unit. (R313) -/
  | sclose (d : BitVec 6)
  /-- Writes a stream unit's 128-byte image. (R314) -/
  | ssave (d a : BitVec 6)
  /-- Restores a stream unit from its image. (R314) -/
  | srest (d a : BitVec 6)
  /-- Starts publishing the slot's channel. (R205) -/
  | pubon (d : BitVec 6)
  /-- Publishes a closing bundle and stops publishing. (R205) -/
  | puboff
  /-- Sends a join request to a channel and waits. (R206) -/
  | subscr (d a : BitVec 6) (t : BitVec 1)
  /-- A JOINED member leaves the stream. (R213) -/
  | unsub
  /-- A JOINED member leaves when its predicate is true. (R213) -/
  | unsubp (p : BitVec 3)
  /-- A JOINED member leaves when its mask is non-zero. (R213) -/
  | unsubm (m : BitVec 3)
  /-- An AWAY member waits to rejoin at a rendezvous. (R216) -/
  | resub (d a : BitVec 6)
  /-- A publisher waits at a rendezvous for its members' reports. (R215) -/
  | rdv (d a : BitVec 6)
  /-- Ends the slot's membership in any state. (R214) -/
  | leave
  /-- Waits until a local join counter reaches zero. (R235) -/
  | join (a : BitVec 6)
  /-- Drains the task's accesses, sends its join decrement and ends the task. (R236) -/
  | taskend
  /-- Cancels a lineage tag across the gang and parks until completion. (R237) -/
  | cancell (d a : BitVec 6)
  /-- Takes the producer or consumer end of a pipe, configuring it if needed. (R222) -/
  | pipebind (e : BitVec 3) (a : BitVec 6) (c : BitVec 1)
  /-- Releases the pipe ends the slot holds. (R222) -/
  | pipebindRel (e : BitVec 3)
  /-- Removes the oldest mailbox message into a register pair. (R302) -/
  | mbpop (d : BitVec 6)
  /-- Reads the oldest mailbox message without removing it. (R302) -/
  | mbpeek (d : BitVec 6)
  /-- Reads the message count or credits, or takes a credit. (R302) -/
  | mbcnt (d which : BitVec 6)
  /-- Loads a segment register from the local store. (R340) -/
  | segld (d : BitVec 3) (a : BitVec 6)
  /-- Stores a segment register to the local store. (R340) -/
  | segst (d : BitVec 3) (a : BitVec 6)
  /-- Checks an issue-slot table image and makes it the pending table. (R340) -/
  | istset (a : BitVec 6)
  /-- Starts an IDLE slot at an entry offset and level. (R341) -/
  | slotstart (a b : BitVec 6)
  /-- Stops a target slot without a record. (R342) -/
  | slotstopStop (d a : BitVec 6)
  /-- Makes a STOPPED slot READY. (R342) -/
  | slotstopResume (d a : BitVec 6)
  /-- Takes a STOPPED slot to IDLE through the HALT steps. (R342) -/
  | slotstopIdle (d a : BitVec 6)
  /-- Reads a dword of a target slot's record. (R343) -/
  | slotxferRd (d a : BitVec 6)
  /-- Writes a dword of a target slot's record. (R343) -/
  | slotxferWr (d a : BitVec 6)
  /-- Reads a target slot's vector register. (R343) -/
  | slotxferVrd (d : BitVec 5) (a : BitVec 6)
  /-- Writes a target slot's vector register. (R343) -/
  | slotxferVwr (d : BitVec 5) (a : BitVec 6)
  /-- Removes the oldest trap-queue record into a register pair. (R343) -/
  | slotxferTq (d : BitVec 6)
  /-- Writes the core-unit area entries marked dump. (R343) -/
  | slotxferDump (a : BitVec 6)
  /-- Loads the core-unit area entries marked dump back into the core. (R343) -/
  | slotxferLoad (a : BitVec 6)
  /-- Sends a 64-byte block to the HCP and parks until the reply. (R344) -/
  | hubcmd (d a : BitVec 6)
  /-- Bars the slot from issue until its next own IST entry, which is donated. (R105) -/
  | yield
  /-- Waits for a timeout or a mailbox message. (R106) -/
  | sleep (d a : BitVec 6)
  /-- Waits for a mailbox message, or for a credit with .cr. (R303) -/
  | waitmsg (c : BitVec 1)
  /-- Drains the slot's outstanding work, releases its units and makes it IDLE. (R107) -/
  | halt
  /-- Reads an identity or the cycle count into s[d]. (R103) -/
  | getid (d which : BitVec 6)
  /-- Reads a status or context register. (R102) -/
  | mfs (d c : BitVec 6)
  /-- Writes a status or context register, or clears STICKY flags. (R102) -/
  | mts (c a : BitVec 6)
  /-- Completes the bundle and stops the slot with BREAK. (R338) -/
  | trap (n : BitVec 6)
  /-- Lowers the slot to user level and jumps to s[a]. (R338) -/
  | eret (a : BitVec 6)
  /-- Enables user-level interrupts. (R338) -/
  | ulion
  /-- Disables user-level interrupts. (R338) -/
  | ulioff
  /-- Ends a user-level interrupt and returns to the interrupted PC. (R338) -/
  | uliret
  /-- Writes TIMER and selects trap or interrupt delivery of its expiry. (R338) -/
  | timerset (a : BitVec 6) (u : BitVec 1)
  /-- Opens an idempotent region and records its mark. (R333) -/
  | idem
  /-- Closes the idempotent region. (R333) -/
  | idemEnd
  /-- Reads an event counter. (R104) -/
  | evcrd (d n : BitVec 6)
  /-- Clears an event counter. (R104) -/
  | evcclr (n : BitVec 6)
  /-- Jumps to the offset in s[a]. (R99) -/
  | jr (a : BitVec 6)
  /-- Jumps to s[a] and writes the return offset to s55. (R99) -/
  | callr (a : BitVec 6)
  /-- Branches and writes the return offset to s55. (R99) -/
  | call (d : BitVec 20)
  /-- Branches when a mask is non-zero. (R99) -/
  | bmnz (m : BitVec 3) (d : BitVec 20)
  /-- Branches when a mask is zero. (R99) -/
  | bmz (m : BitVec 3) (d : BitVec 20)
  /-- Branches when a predicate is false. (R99) -/
  | bnc (p : BitVec 3) (d : BitVec 20)
  /-- Branches when a predicate is true. (R99) -/
  | bc (p : BitVec 3) (d : BitVec 20)
  /-- Branches unconditionally. (R99) -/
  | br (d : BitVec 20)
  /-- Scatters lanes to words by per-lane index under a mask. (R95) -/
  | vstx (d : BitVec 5) (a : BitVec 6) (sg : BitVec 3) (rx : BitVec 1) (vi : BitVec 5) (m : BitVec 3)
  /-- Gathers words by per-lane index under a mask. (R95) -/
  | vldx (d : BitVec 5) (a : BitVec 6) (sg : BitVec 3) (rx : BitVec 1) (vi : BitVec 5) (m : BitVec 3)
  /-- Broadcasts one loaded word to every lane. (R94) -/
  | vldb (d : BitVec 5) (a : BitVec 6) (sg : BitVec 3) (imm : BitVec 8)
  /-- Stores a vector register to 32 consecutive words. (R94) -/
  | vst (d : BitVec 5) (a : BitVec 6) (sg : BitVec 3) (rx : BitVec 1) (imm : BitVec 8)
  /-- Loads 32 consecutive words into a vector register. (R94) -/
  | vld (d : BitVec 5) (a : BitVec 6) (sg : BitVec 3) (rx : BitVec 1) (imm : BitVec 8)
  /-- Copies a word's FE bit into a predicate. (R97) -/
  | fetest (p : BitVec 3) (a : BitVec 6) (sg : BitVec 3) (imm : BitVec 8)
  /-- Sets a word's FE bit empty. (R97) -/
  | feclr (a : BitVec 6) (sg : BitVec 3) (imm : BitVec 8)
  /-- Sets a word's FE bit full. (R97) -/
  | feset (a : BitVec 6) (sg : BitVec 3) (imm : BitVec 8)
  /-- Computes segment base plus offset without access or check. (R86) -/
  | lea (d a : BitVec 6) (sg : BitVec 3) (imm : BitVec 8)
  /-- Stores a word and sets its FE bit full, serving its waiters. (R97) -/
  | stwfill (d a : BitVec 6) (sg : BitVec 3) (rx : BitVec 1) (imm : BitVec 8)
  /-- Loads a full word and empties it, otherwise parks as a waiter. (R97) -/
  | ldwtake (d a : BitVec 6) (sg : BitVec 3) (imm : BitVec 8)
  /-- Loads a word when its FE bit is full, otherwise parks as a waiter. (R97) -/
  | ldwsync (d a : BitVec 6) (sg : BitVec 3) (imm : BitVec 8)
  /-- Stores a doubleword. (R93) -/
  | std (d a : BitVec 6) (sg : BitVec 3) (rx : BitVec 1) (imm : BitVec 8)
  /-- Stores a word. (R93) -/
  | stw (d a : BitVec 6) (sg : BitVec 3) (rx : BitVec 1) (imm : BitVec 8)
  /-- Stores a halfword. (R93) -/
  | sth (d a : BitVec 6) (sg : BitVec 3) (rx : BitVec 1) (imm : BitVec 8)
  /-- Stores a byte. (R93) -/
  | stb (d a : BitVec 6) (sg : BitVec 3) (rx : BitVec 1) (imm : BitVec 8)
  /-- Loads a doubleword. (R93) -/
  | ldd (d a : BitVec 6) (sg : BitVec 3) (rx : BitVec 1) (imm : BitVec 8)
  /-- Loads a word, sign-extended. (R93) -/
  | ldws (d a : BitVec 6) (sg : BitVec 3) (rx : BitVec 1) (imm : BitVec 8)
  /-- Loads a word, zero-extended. (R93) -/
  | ldw (d a : BitVec 6) (sg : BitVec 3) (rx : BitVec 1) (imm : BitVec 8)
  /-- Loads a halfword, sign-extended. (R93) -/
  | ldhs (d a : BitVec 6) (sg : BitVec 3) (rx : BitVec 1) (imm : BitVec 8)
  /-- Loads a halfword, zero-extended. (R93) -/
  | ldh (d a : BitVec 6) (sg : BitVec 3) (rx : BitVec 1) (imm : BitVec 8)
  /-- Loads a byte, sign-extended. (R93) -/
  | ldbs (d a : BitVec 6) (sg : BitVec 3) (rx : BitVec 1) (imm : BitVec 8)
  /-- Loads a byte, zero-extended. (R93) -/
  | ldb (d a : BitVec 6) (sg : BitVec 3) (rx : BitVec 1) (imm : BitVec 8)
  /-- As FENCE, and also waits for the slot's copy commands and stream refills. (R275) -/
  | fencee (scope : BitVec 3)
  /-- Parks until earlier relaxed accesses within the scope complete. (R275) -/
  | fence (scope : BitVec 3)
  /-- Writes s[a] into a core shared register. (R101) -/
  | movtk (a : BitVec 6) (k : BitVec 12)
  /-- Reads a core shared register into s[d]. (R101) -/
  | movk (d : BitVec 6) (k : BitVec 12)
  /-- ANDs two predicates. (R90) -/
  | pand (d a b : BitVec 3)
  /-- ORs two predicates. (R90) -/
  | por (d a b : BitVec 3)
  /-- XORs two predicates. (R90) -/
  | pxor (d a b : BitVec 3)
  /-- Copies all predicates into a scalar register. (R90) -/
  | ptos (d : BitVec 6)
  /-- Loads p1 to p7 from bits of a scalar register. (R90) -/
  | stop (a : BitVec 6)
  /-- Copies a mask into a scalar register. (R90) -/
  | mtos (d : BitVec 6) (a : BitVec 3)
  /-- Copies a scalar register into a mask. (R90) -/
  | stom (d : BitVec 3) (a : BitVec 6)
  /-- Moves one vector lane into a scalar register. (R90) -/
  | vmovs (d : BitVec 6) (a : BitVec 5) (b : BitVec 6)
  /-- Writes a scalar value into one vector lane. (R90) -/
  | smovv (d : BitVec 5) (a b : BitVec 6)
  /-- Compares two scalar registers and writes a predicate. (R89) -/
  | cmp (c p : BitVec 3) (a b : BitVec 6)
  /-- Signed division on the core's divide unit; parks the slot. (R87) -/
  | div (d a b : BitVec 6)
  /-- Unsigned division on the divide unit. (R87) -/
  | divn (d a b : BitVec 6)
  /-- Signed remainder on the divide unit. (R87) -/
  | rem (d a b : BitVec 6)
  /-- Unsigned remainder on the divide unit. (R87) -/
  | remn (d a b : BitVec 6)
  /-- Adds two scalar registers. (R83) -/
  | add (d a b : BitVec 6)
  /-- Subtracts two scalar registers. (R83) -/
  | sub (d a b : BitVec 6)
  /-- Multiplies two scalar registers, low 64 bits. (R83) -/
  | mul (d a b : BitVec 6)
  /-- Signed high half of a 64x64 product. (R83) -/
  | mulh (d a b : BitVec 6)
  /-- Unsigned high half of a 64x64 product. (R83) -/
  | mulhn (d a b : BitVec 6)
  /-- Bitwise AND of two scalar registers. (R83) -/
  | and (d a b : BitVec 6)
  /-- Bitwise OR of two scalar registers. (R83) -/
  | or (d a b : BitVec 6)
  /-- Bitwise XOR of two scalar registers. (R83) -/
  | xor (d a b : BitVec 6)
  /-- s[a] AND NOT s[b]. (R83) -/
  | andn (d a b : BitVec 6)
  /-- Shifts left by s[b][5:0]. (R83) -/
  | shl (d a b : BitVec 6)
  /-- Shifts right logically by s[b][5:0]. (R83) -/
  | shr (d a b : BitVec 6)
  /-- Shifts right arithmetically by s[b][5:0]. (R83) -/
  | sra (d a b : BitVec 6)
  /-- Rotates right by s[b][5:0]. (R83) -/
  | rotr (d a b : BitVec 6)
  /-- Signed minimum. (R83) -/
  | min (d a b : BitVec 6)
  /-- Signed maximum. (R83) -/
  | max (d a b : BitVec 6)
  /-- Unsigned minimum. (R83) -/
  | minn (d a b : BitVec 6)
  /-- Unsigned maximum. (R83) -/
  | maxn (d a b : BitVec 6)
  /-- Counts leading zero bits. (R83) -/
  | clz (d a : BitVec 6)
  /-- Counts trailing zero bits. (R83) -/
  | ctz (d a : BitVec 6)
  /-- Counts one bits. (R83) -/
  | popc (d a : BitVec 6)
  /-- Reverses the bit order. (R83) -/
  | brev (d a : BitVec 6)
  /-- Gathers the bits of s[a] selected by s[b]. (R84) -/
  | bext (d a b : BitVec 6)
  /-- Scatters the low bits of s[a] to positions selected by s[b]. (R84) -/
  | bdep (d a b : BitVec 6)
  /-- Sign-extends s[a] from bit n. (R83) -/
  | sext (d a n : BitVec 6)
  /-- Zero-extends s[a] above bit n. (R83) -/
  | zext (d a n : BitVec 6)
  /-- Selects s[a] or s[b] by a predicate. (R83) -/
  | sel (d a b : BitVec 6) (p : BitVec 3)
  /-- Compares s[a] with an immediate and writes a predicate. (R89) -/
  | cmpi (c p : BitVec 3) (a : BitVec 6) (imm : BitVec 12)
  /-- Shifts s[a] right arithmetically by an immediate count. (R83) -/
  | srai (d a n : BitVec 6)
  /-- Shifts s[a] right logically by an immediate count. (R83) -/
  | shri (d a n : BitVec 6)
  /-- Shifts s[a] left by an immediate count. (R83) -/
  | shli (d a n : BitVec 6)
  /-- XORs s[a] with a sign-extended immediate. (R83) -/
  | xori (d a : BitVec 6) (imm : BitVec 12)
  /-- ORs s[a] with a sign-extended immediate. (R83) -/
  | ori (d a : BitVec 6) (imm : BitVec 12)
  /-- ANDs s[a] with a sign-extended immediate. (R83) -/
  | andi (d a : BitVec 6) (imm : BitVec 12)
  /-- Adds a sign-extended 12-bit immediate to s[a] and writes s[d]. (R83) -/
  | addi (d a : BitVec 6) (imm : BitVec 12)
  -- Steps of units, hub, host and controller.
  /-- The divide unit starts the next queued operation once free. (R88) -/
  | divideStart (core : Nat)
  /-- The divide unit writes its result and the slot becomes READY. (R88) -/
  | divideComplete (core : Nat)
  /-- A halting slot's outstanding work is complete; it releases its units and becomes IDLE. (R107) -/
  | haltDrainComplete (core slot : Nat)
  /-- The accesses a fence or release waits for have completed and the slot is READY. (R275) -/
  | fenceComplete (core slot : Nat)
  /-- The task's accesses and join decrement are done and the task ends. (R236) -/
  | taskendComplete (core slot : Nat)
  /-- The condition a parked RINGCFG, MZERO.rel, REPCAP or REPGO awaits holds and it completes. (R139) -/
  | unitWaitEnd (core slot : Nat)
  /-- A RINGADV parked on a full or empty ring acts once a pop or push occurs. (R140) -/
  | ringWaitEnd (core slot : Nat)
  /-- A bundle parked on a stream strip or place issues afresh when it is ready. (R312) -/
  | stripReady (core slot : Nat)
  /-- A place in a full copy queue frees and the parked bundle issues afresh. (R285) -/
  | copyQueuePlaceFree (core slot : Nat)
  /-- COUNT reaches zero with ARM set; the slot traps TIMER or gets a pending TIMER interrupt. (R28) -/
  | timerExpiry (core slot : Nat)
  /-- A SLEEP's time limit passes and it completes. (R106) -/
  | sleepTimeout (core slot : Nat)
  /-- A pending issue-slot table takes effect at a frame start. (R195) -/
  | istSwitch (core : Nat)
  /-- A core whose slots and units all wait gates its clock. (R199) -/
  | coreBank (core : Nat)
  /-- A restart ends and the events it held take effect. (R200) -/
  | restartEnd (core : Nat)
  /-- A published bundle reaches a member's core and falls due. (R209) -/
  | publishedBundleArrive (core slot : Nat) (bun : PubBundle)
  /-- A SUBSCR join request reaches the publisher's table and becomes PENDING or is refused. (R206) -/
  | joinRequestArrive (core slot tid : Nat)
  /-- A refusal reaches the subscriber and SUBSCR completes with 0. (R206) -/
  | subscrRefusalArrive (core slot : Nat)
  /-- A member's report reaches the publisher; the last one completes the RDV. (R215) -/
  | rdvReportArrive (core slot tid : Nat)
  /-- A rendezvous completion reaches a member's core and settles its membership. (R215) -/
  | rdvCompletionArrive (core slot : Nat) (fin : RdvEnd) (skew : Nat)
  /-- An AWAY or LEAVE notice reaches the publisher's table. (R213) -/
  | membershipNoticeArrive (core slot tid : Nat) (note : Notice)
  /-- The end of publishing reaches a member's core and ends its membership. (R205) -/
  | publishEndArrive (core slot chan : Nat)
  /-- A built-in request or active message arrives at the home's network interface. (R264) -/
  | remoteRequestArrive (core : Nat) (msg : NetMsg)
  /-- The handler port performs the oldest built-in request in a slot-14 cycle. (R264) -/
  | builtinRequestPerform (core : Nat)
  /-- A reply or acknowledgement reaches the requester and completes its access. (R265) -/
  | remoteReply (core : Nat) (rep : Reply)
  /-- A withdrawal of a stopped requester's remote FE wait reaches the home. (R276) -/
  | feWithdrawalArrive (core src slot : Nat)
  /-- A user handler starts on slot 14 with the message words. (R269) -/
  | handlerStart (core : Nat)
  /-- A pushed task record arrives at a deque or die queue and is accepted or refused. (R226) -/
  | pushArrive (push : Push)
  /-- A push acknowledgement reaches the parked pusher. (R226) -/
  | pushAckArrive (push : Push)
  /-- A refusal reaches the pusher and the join increment is undone. (R226) -/
  | pushRefusalArrive (push : Push)
  /-- A steal request reaches a victim deque, which divides, removes or refuses. (R228) -/
  | stealRequestArrive (core : Nat) (req : StealReq)
  /-- A steal answer reaches the requester or is placed in its deque. (R229) -/
  | stealAnswerArrive (core slot : Nat) (why : StealFor) (ans : StealAns)
  /-- A take or push reaches a die queue. (R223) -/
  | dieQueueRequest (die : Nat) (req : StealReq)
  /-- A waiting DQPOP starts a new search pass 1,024 cycles after a failed one. (R227) -/
  | dqpopPass (core slot : Nat)
  /-- An increment or decrement of a join counter is performed at its home. (R234) -/
  | joinCounterUpdate (core addr : Nat) (up : Bool)
  /-- A cancellation reaches a core and stops slots running the lineage. (R237) -/
  | cancelArrive (core gang tag : Nat)
  /-- A lineage cancellation completes and the issuer receives the purge count. (R237) -/
  | cancellComplete (core slot : Nat)
  /-- The matrix unit performs a queued MZERO clear. (R153) -/
  | accumulatorClear (core : Nat)
  /-- A handed tile step starts when the unit is free and its rings hold tiles. (R149) -/
  | mmaStepStart (core : Nat)
  /-- A tile step retires, writing the accumulator and popping its rings. (R149) -/
  | mmaStepRetire (core : Nat)
  /-- An MLOAD or MDRAIN completes and the slot is READY. (R155) -/
  | matrixOpComplete (core : Nat)
  /-- The repetition sequencer issues its next captured syllable. (R160) -/
  | sequencerIssue (core : Nat)
  /-- The sequence's last syllable completes and its steps retire. (R160) -/
  | sequenceEnd (core : Nat)
  /-- The scan engine processes one row of a queued tile. (R247) -/
  | scanTileRow (core : Nat)
  /-- The scan engine applies CIN to one row of a tile. (R251) -/
  | scnfixRow (core : Nat)
  /-- A Flue message reaches a member's engine and is held, used or mismatched. (R256) -/
  | flueMessageArrive (core : Nat) (msg : FlueMsg)
  /-- A Flue message waiting for a receiver place leaves its sender. (R255) -/
  | flueDeferredSend (core : Nat)
  /-- An SCNXCH, FBAR or FCOMB completes at a member. (R254) -/
  | flueOperationComplete (core : Nat)
  /-- A queued copy command starts in queue order. (R285) -/
  | copyCommandStart (core queue : Nat)
  /-- A copy command's writes are performed; it pushes its ring and posts its message. (R295) -/
  | copyCommandComplete (core queue : Nat)
  /-- A completion's ring push waiting on a full ring acts after a pop. (R297) -/
  | copyRingPushDeferred (core queue : Nat)
  /-- A multicast receiver's copy completes and pushes its own ring. (R298) -/
  | mcastTargetComplete (core queue rank : Nat)
  /-- Combined BUFFREEs from every listed rank add one credit at the sender. (R299) -/
  | buffreeCredit (core slot tag : Nat)
  /-- The copy engine refills a global or host read stream's staging. (R308) -/
  | streamRefill (core unit : Nat)
  /-- The copy engine drains a write stream's staged strips. (R308) -/
  | streamDrain (core unit : Nat)
  /-- A strip sent by PSEND enters a port FIFO. (R310) -/
  | portStripArrive (core port : Nat) (strip : VReg) (last : Bool) (src slot id : Nat)
  /-- A completion message or hub notice reaches a slot's mailbox. (R304) -/
  | messageArrive (core slot : Nat) (msg : Msg)
  /-- A message held for a full mailbox enters when a place frees. (R304) -/
  | mailboxHeldEntry (core slot : Nat)
  /-- A U message or pending TIMER interrupt is delivered into the handler. (R305) -/
  | uliDeliver (core slot : Nat)
  /-- A Caddy query is served at the hub with a tile number or the token. (R315) -/
  | caddyQuery (core slot counter addr : Nat)
  /-- A Caddy answer is written to its word with FE full. (R316) -/
  | caddyAnswer (core slot addr : Nat) (ans : W32)
  /-- An engine request meets an absent or forbidden page and is held with a fault record. (R329) -/
  | pageFault (core eng unit va : Nat) (wr : Bool) (reason : Nat)
  /-- A wake reaches the port and the core, retrying the request and readying a parked slot. (R330) -/
  | wakeArrive (fid tid : Nat)
  /-- An engine read meets a double-bit error and posts an ECC record. (R332) -/
  | engineEccError (core eng unit tid va : Nat)
  /-- PREEMPT reaches a core; slots stop, regions roll back and the core drains. (R334) -/
  | preemptArrive (core : Nat)
  /-- The HCP restarts slot 15 at its firmware entry after its fault. (R327) -/
  | slot15Restart (core : Nat)
  /-- The hub moves a rank onto a spare core. (R354) -/
  | rankMove (gang rank spx : Nat)
  /-- An engine write meets a shared COW frame and the hub copies it. (R368) -/
  | cowCopy (ctx va : Nat)
  /-- A frame whose share count reached zero returns to the pool. (R369) -/
  | frameReturn (frame : Nat)
  /-- A failed lane of a die-hub link is replaced by a spare lane. (R358) -/
  | laneSpare (die : Nat)
  /-- A flit that fails its CRC is resent. (R358) -/
  | flitRetry (kind link : Nat)
  /-- A die-hub link is declared failed and its traffic rerouted. (R359) -/
  | linkFail (die : Nat)
  /-- A repaired link heals at a cycle the hub chooses. (R362) -/
  | linkHeal (die : Nat)
  /-- A memory-die link fails and its frames' requests fault with REASON 5. (R363) -/
  | memoryLinkFail (die : Nat)
  /-- A Cord link that fails to retrain drops out of every CROUTE mask. (R383) -/
  | cordLinkDrop (link : Nat)
  /-- A remote atomic arrives at its home package and is applied or served from the reply cache. (R384) -/
  | cordAtomicArrive (req : CordAtomic)
  /-- No reply 50 µs after sending; the requester reports INDETERMINATE. (R384) -/
  | cordAtomicTimeout (seq : Nat)
  /-- A Cord transfer's writes are performed and its completion posted. (R383) -/
  | cordTransferComplete (xid : Nat)
  /-- A package arrives at a Cord barrier; the Nth completes the generation. (R385) -/
  | cbarArrive (bid pkg count : Nat)
  /-- HUBCMD code reporting that slot 15 has saved its core. (R334) -/
  | saved (core slot : Nat) (blk : BitVec 512)
  /-- HUBCMD code reporting that slot 15 has restored its core. (R336) -/
  | restored (core slot : Nat) (blk : BitVec 512)
  /-- HUBCMD code that fails the gang's launch with reason 5. (R380) -/
  | gangfail (core slot : Nat) (blk : BitVec 512)
  /-- HUBCMD code that sets a Caddy counter. (R380) -/
  | caddy (core slot : Nat) (blk : BitVec 512)
  /-- HUBCMD code that writes memory of another package over Cord. (R380) -/
  | cwrite (core slot : Nat) (blk : BitVec 512)
  /-- HUBCMD code that reads memory of another package over Cord. (R380) -/
  | cread (core slot : Nat) (blk : BitVec 512)
  /-- HUBCMD code for an atomic at another package. (R380) -/
  | catom (core slot : Nat) (blk : BitVec 512)
  /-- HUBCMD code that arrives at a package-level barrier. (R380) -/
  | cbar (core slot : Nat) (blk : BitVec 512)
  /-- The host raises a queue's doorbell. (R374) -/
  | sqtailWrite (queue : Nat) (val : W64)
  /-- The hub reads and accepts the next submission entry. (R374) -/
  | entryAccept
  /-- Writing EN enables or ends a queue's acceptance. (R374) -/
  | sqctlEn (queue : Nat) (val : W64)
  /-- Writing RST resets a queue's indices and clears STOP. (R374) -/
  | sqctlRst (queue : Nat)
  /-- Host write of WAKE naming a FID and TID. (R330) -/
  | wake (val : W64)
  /-- Host write consuming fault records, letting waiting records enter. (R372) -/
  | fqcons (val : W64)
  /-- Host write of a hub register with no behaviour of its own. (R372) -/
  | hubRegisterWrite (off : Nat) (val : W64)
  /-- Queue command that launches a gang from a descriptor. (R378) -/
  | launch (e : SqEntry)
  /-- The placer reserves a launch's cores, writes their tables and starts the entry slots. (R355) -/
  | gangPlace (gang : Nat)
  /-- Every slot of the gang is IDLE with no work in flight; the launch is DONE. (R379) -/
  | launchDone (gang : Nat)
  /-- Queue command that copies memory, possibly to another package. (R377) -/
  | copy (e : SqEntry)
  /-- Queue command that forks pages copy-on-write under a lineage tag. (R367) -/
  | pgfork (e : SqEntry)
  /-- Queue command that cancels a lineage of a gang. (R377) -/
  | cancel (e : SqEntry)
  /-- Queue command that kills a context. (R337) -/
  | kill (e : SqEntry)
  /-- Every engine serving a killed context has retired its writes. (R337) -/
  | killDrained (ctx : Nat)
  /-- Queue command FENCE that finishes after every earlier command of the queue. (R377) -/
  | queueFence (e : SqEntry)
  /-- Queue command that writes a value to host memory after earlier commands. (R377) -/
  | signal (e : SqEntry)
  /-- Queue command that discards held faulting requests. (R331) -/
  | cancelFaults (e : SqEntry)
  /-- Queue command that pre-empts a gang. (R334) -/
  | preempt (e : SqEntry)
  /-- Queue command that restores and resumes a gang. (R377) -/
  | resume (e : SqEntry)
  /-- A command finishes; its journal entry, completion record and interrupt follow. (R376) -/
  | commandFinish (queue seq : Nat)
  /-- A host CXL.mem write performed as one 64-byte line. (R371) -/
  | hostMemWrite (addr : Nat) (line : BitVec 512)
  /-- A host CXL.mem read returning one line whole. (R371) -/
  | hostMemRead (addr : Nat)
  /-- Power becomes good and bring-up starts. (R386) -/
  | powerOn
  /-- PERST# starts a package reset. (R386) -/
  | perst
  /-- The next bring-up stage runs after the one before succeeds. (R386) -/
  | bringUpStage
  /-- MGCTL.RST write starts a package reset. (R396) -/
  | rst
  /-- MGCTL.SVNCOMMIT write raises the fused SVN. (R388) -/
  | svncommit
  /-- Write of the power limit, clamped to 600 to 2,000 W. (R396) -/
  | pwrlimWrite (val : W32)
  /-- Write of a management register with no behaviour of its own. (R396) -/
  | mgmtRegisterWrite (off : Nat) (val : W32)
  /-- A replacement firmware image is accepted through the management connector. (R388) -/
  | firmwareImageLoad (img : Nat) (svn : BitVec 16) (keyok sigok : Bool)
  /-- The controller samples power, current and temperature every 10 µs. (R391) -/
  | powerSample (mw amps temp : Nat)
  /-- A clock step change takes effect at a frame start. (R392) -/
  | clockStepChange
  /-- The scrubber checks and corrects a local-store word. (R395) -/
  | scrub (core addr : Nat)
  /-- SPDM GET_VERSION request. (R390) -/
  | getVersion
  /-- SPDM GET_CAPABILITIES request. (R390) -/
  | getCapabilities
  /-- SPDM NEGOTIATE_ALGORITHMS request selecting the extended algorithms. (R390) -/
  | negotiateAlgorithms (extasym exthash : Bool)
  /-- SPDM GET_DIGESTS request. (R390) -/
  | getDigests
  /-- SPDM GET_CERTIFICATE request for slot 0. (R390) -/
  | getCertificate (slot off len : Nat)
  /-- SPDM CHALLENGE request. (R390) -/
  | challenge (slot : Nat)
  /-- SPDM GET_MEASUREMENTS request. (R390) -/
  | getMeasurements (idx : Nat) (signed : Bool)
  /-- A session or other unsupported SPDM request receives ERROR UnsupportedRequest. (R390) -/
  | spdmUnsupportedRequest (code : Nat)
  /-- A signed SPDM response is completed and sent. (R390) -/
  | spdmSignedResponse
  /-- A fetched syllable that matches no assigned encoding, or has a non-zero reserved field, traps ILLEGAL with no effect. (R68) -/
  | unassignedEncoding (vhalf : Bool)
  /-- The hub's 64 KiB copy of a shared frame ends; the writing mapping points at the new frame, and the stalled writes proceed. (R368) -/
  | cowCopyComplete (ctx va : Nat)
  /-- The scan engine writes the header or one 128-byte strip of the SCNFIX.st image, and READY follows the last strip. (R251) -/
  | scanImageStripWrite (core : Nat)
  /-- A reply-cache entry reaches 100 µs of age, which frees the cache, so the home applies the remote atomics it held back. (R384) -/
  | replyCacheEntryAge (link : Nat)
  /-- A die-hub link finishes retraining onto a spare lane and delivers the flits it held, in order and once each. (R358) -/
  | retrainingEnd (die : Nat)
  /-- The changeover to the rerouted path ends, and the rerouted bounds hold from then on for messages sent later. (R359) -/
  | changeoverEnd (die : Nat)
  deriving DecidableEq, Repr, Inhabited

end Sys2Proof
end

