-- ==== Sys2Proof/WellFormed.lean ====
section
/-! DEFINITION. Which field values an entry allows (R59, R61, R62 and the entries): a value outside its
range makes the syllable ILLEGAL (R68). A cursor is one of four (log entry 111). -/

namespace Sys2Proof

/-- The width of an element for an I-table type code (R61, R108). -/
def intWidth (t : Nat) : Nat :=
  match t / 2 with
  | 0 => 32
  | 1 => 16
  | 2 => 8
  | _ => 64

/-- F-table codes of the instructions that do not round: .f32, .f16, .bf16 (R61). -/
def fCode045 (t : Nat) : Bool := t = 0 || t = 4 || t = 5

/-- The register codes of MFS and MTS (R102). -/
def statusCode (c : Nat) : Bool := c ≤ 4 || (8 ≤ c && c ≤ 13) || (16 ≤ c && c ≤ 31)

/-- Every field of the instruction holds a value its entry allows (R59). -/
def Instr.wf (i : Instr) : Bool :=
  match i with
  | .vadd _ _ _ _ t => t.toNat ≤ 5
  | .vsub _ _ _ _ t => t.toNat ≤ 5
  | .vmul _ _ _ _ t => t.toNat ≤ 5
  | .vmin _ _ _ _ t => fCode045 t.toNat
  | .vmax _ _ _ _ t => fCode045 t.toNat
  | .vabs _ _ _ t => fCode045 t.toNat
  | .vneg _ _ _ t => fCode045 t.toNat
  | .vclass _ _ _ t => fCode045 t.toNat
  | .vrndi _ _ _ t => t.toNat ≤ 5
  | .vaddScalar _ _ _ _ t => t.toNat ≤ 5
  | .vsubScalar _ _ _ _ t => t.toNat ≤ 5
  | .vmulScalar _ _ _ _ t => t.toNat ≤ 5
  | .vfma _ _ _ _ _ t => t.toNat ≤ 2
  | .vfms _ _ _ _ _ t => t.toNat ≤ 2
  | .vfnma _ _ _ _ _ t => t.toNat ≤ 2
  | .vcmpEq _ _ _ _ t => fCode045 t.toNat
  | .vcmpNe _ _ _ _ t => fCode045 t.toNat
  | .vcmpLt _ _ _ _ t => fCode045 t.toNat
  | .vcmpLe _ _ _ _ t => fCode045 t.toNat
  | .vcmpUn _ _ _ _ t => fCode045 t.toNat
  | .vcmpOr _ _ _ _ t => fCode045 t.toNat
  | .vcvtF16F32 _ _ _ _ t => t.toNat ≤ 3
  | .vcvtBf16F32 _ _ _ _ t => t.toNat ≤ 3
  | .vcvtF32F16 _ _ _ t => t.toNat ≤ 3
  | .vcvtF32Bf16 _ _ _ t => t.toNat ≤ 3
  | .vcvtI32F32 _ _ _ t => t.toNat ≤ 3
  | .vcvtN32F32 _ _ _ t => t.toNat ≤ 3
  | .vcvtF32I32 _ _ _ t => t.toNat ≤ 3
  | .vcvtF32N32 _ _ _ t => t.toNat ≤ 3
  | .vrcp _ _ _ t => fCode045 t.toNat
  | .vrsq _ _ _ t => fCode045 t.toNat
  | .vexp2 _ _ _ t => fCode045 t.toNat
  | .vlog2 _ _ _ t => fCode045 t.toNat
  | .vtanh _ _ _ t => fCode045 t.toNat
  | .vsig _ _ _ t => fCode045 t.toNat
  | .vmuli _ _ _ _ t => t.toNat ≤ 5
  | .vmulhi _ _ _ _ t => t.toNat ≤ 5
  | .vmuliScalar _ _ _ _ t => t.toNat ≤ 5
  | .vshlImm _ _ imm _ t => imm.toNat < intWidth t.toNat
  | .vshrImm _ _ imm _ t => imm.toNat < intWidth t.toNat
  | .vsraImm _ _ imm _ t => imm.toNat < intWidth t.toNat
  | .vrshrImm _ _ imm _ t => imm.toNat < intWidth t.toNat
  | .vsatn _ _ _ _ t => t.toNat ≤ 5
  | .vwidenLo _ _ _ t => t.toNat ≤ 5
  | .vwidenHi _ _ _ t => t.toNat ≤ 5
  | .vprepop _ _ _ t => t.toNat ≤ 1
  | .vslideUp _ _ imm _ => imm.toNat ≤ 31
  | .vslideDn _ _ imm _ => imm.toNat ≤ 31
  | .vredAddInt _ _ _ t => t.toNat ≤ 1
  | .vredMinInt _ _ _ t => t.toNat ≤ 1
  | .vredMaxInt _ _ _ t => t.toNat ≤ 1
  | .vredAddFloat _ _ _ t => t.toNat ≤ 3
  | .vredMinFloat _ _ _ t => t.toNat = 0
  | .vredMaxFloat _ _ _ t => t.toNat = 0
  | .vscaniAddInt _ _ _ t => t.toNat ≤ 1
  | .vscaniMaxInt _ _ _ t => t.toNat ≤ 1
  | .vscaniAddFloat _ _ _ t => t.toNat ≤ 3
  | .vqnt _ _ _ _ t => t.toNat ≤ 1
  | .vdqnt _ _ _ _ t => t.toNat ≤ 1
  | .vtopk d _ _ _ t => t.toNat ≤ 2 && d.toNat % 2 = 0
  | .vtopkNz d _ _ _ t => t.toNat ≤ 2 && d.toNat % 2 = 0
  | .mset _ n => n.toNat ≤ 32
  | .amoadd _ _ _ _ scope _ _ _ _ => scope.toNat ≤ 4
  | .amoand _ _ _ _ scope _ _ _ _ => scope.toNat ≤ 4
  | .amoor _ _ _ _ scope _ _ _ _ => scope.toNat ≤ 4
  | .amoxor _ _ _ _ scope _ _ _ _ => scope.toNat ≤ 4
  | .amomin _ _ _ _ scope _ _ _ _ => scope.toNat ≤ 4
  | .amomax _ _ _ _ scope _ _ _ _ => scope.toNat ≤ 4
  | .amominn _ _ _ _ scope _ _ _ _ => scope.toNat ≤ 4
  | .amomaxn _ _ _ _ scope _ _ _ _ => scope.toNat ≤ 4
  | .amoswap _ _ _ _ scope _ _ _ _ => scope.toNat ≤ 4
  | .amocas _ _ _ _ _ scope _ _ _ _ => scope.toNat ≤ 4
  | .sbind e k t r _ => (t = 1#1 || r = 0#1 && e.toNat ≤ 3) && (r = 0#1 || k = 0#3)
  | .scfg n k r _ => n.toNat % 4 = 0 && (r = 0#1 || k = 0#3)
  | .mcast n _ => n.toNat % 4 = 0
  | .cpyt n => n.toNat % 4 = 0
  | .cpys n => n.toNat % 4 = 0
  | .cpyg n => n.toNat % 4 = 0
  | .cpyw n => n.toNat % 4 = 0
  | .cpy n => n.toNat % 4 = 0
  | .steal n _ _ => n.toNat % 4 = 0
  | .split n _ => n.toNat % 4 = 0
  | .dqpushr n _ _ => n.toNat % 4 = 0
  | .dqpop n _ _ _ _ => n.toNat % 4 = 0
  | .forkd n _ => n.toNat % 4 = 0
  | .fork n _ => n.toNat % 4 = 0
  | .psende n => n.toNat % 4 = 0
  | .psend n => n.toNat % 4 = 0
  | .send n _ _ _ => n.toNat % 4 = 0
  | .ringstat _ _ which => which.toNat ≤ 2
  | .mload c _ _ _ => c.toNat ≤ 4
  | .mdrain c _ _ _ => c.toNat ≤ 4
  | .repcap n => 1 ≤ n.toNat && n.toNat ≤ 16
  | .cxopen d _ _ => d.toNat ≤ 3
  | .cxopenRel d => d.toNat ≤ 3
  | .cxand d _ _ => d.toNat ≤ 3
  | .cxor d _ _ => d.toNat ≤ 3
  | .cxdiff d _ _ => d.toNat ≤ 3
  | .cxnext d c _ _ => d.toNat ≤ 29 && c.toNat ≤ 3
  | .cxnextW d c _ _ => d.toNat ≤ 29 && c.toNat ≤ 3
  | .cxsplit d a _ => d ≠ a && d.toNat ≤ 3 && a.toNat ≤ 3
  | .cxsave a _ => a.toNat ≤ 3
  | .cxrest d _ => d.toNat ≤ 3
  | .cxstat _ a which => which.toNat ≤ 5 && a.toNat ≤ 3
  | .cpyqstat _ q => q.toNat ≤ 3
  | .sclose d => 24 ≤ d.toNat && d.toNat ≤ 31
  | .ssave d _ => 24 ≤ d.toNat && d.toNat ≤ 31
  | .srest d _ => 24 ≤ d.toNat && d.toNat ≤ 31
  | .mbpop d => d.toNat % 2 = 0 && d.toNat ≠ 0
  | .mbpeek d => d.toNat % 2 = 0 && d.toNat ≠ 0
  | .mbcnt _ which => which.toNat ≤ 2
  | .slotxferTq d => d.toNat % 2 = 0 && d.toNat ≠ 0
  | .getid _ which => which.toNat ≤ 6
  | .mfs _ c => statusCode c.toNat
  | .mts c _ => statusCode c.toNat
  | .evcrd _ n => n.toNat ≤ 15
  | .evcclr n => n.toNat ≤ 15
  | .fencee scope => scope.toNat ≤ 4
  | .fence scope => scope.toNat ≤ 4
  | .movtk _ k => k.toNat < 192
  | .movk _ k => k.toNat < 192
  | .cmp c _ _ _ => c.toNat ≤ 5
  | .cmpi c _ _ _ => c.toNat ≤ 5
  | _ => true

end Sys2Proof
end

