-- ==== Sys2Proof/Decode.lean ====
section
/-! DEFINITION. Bundles and syllables (R56 to R68): the encoder, written from the encoding tables, and the
decoder, total on any word. A syllable decodes when it is exactly the encoding of a well-formed
instruction: an assigned major and fn, every unused field zero, every field in its range (R68). -/

namespace Sys2Proof

/-- A field of a word, as an operand of its width (R58, R60). -/
def bits (w lo n : Nat) : BitVec n := BitVec.ofNat n (fld w lo n)

/-- Which half of a bundle an instruction's encoding is, or none (R56). -/
def Instr.kind (i : Instr) : SylKind :=
  match i with
  | .vnop => .vector
  | .vadd _ _ _ _ _ => .vector
  | .vsub _ _ _ _ _ => .vector
  | .vmul _ _ _ _ _ => .vector
  | .vmin _ _ _ _ _ => .vector
  | .vmax _ _ _ _ _ => .vector
  | .vabs _ _ _ _ => .vector
  | .vneg _ _ _ _ => .vector
  | .vclass _ _ _ _ => .vector
  | .vrndi _ _ _ _ => .vector
  | .vaddScalar _ _ _ _ _ => .vector
  | .vsubScalar _ _ _ _ _ => .vector
  | .vmulScalar _ _ _ _ _ => .vector
  | .vfma _ _ _ _ _ _ => .vector
  | .vfms _ _ _ _ _ _ => .vector
  | .vfnma _ _ _ _ _ _ => .vector
  | .vcmpEq _ _ _ _ _ => .vector
  | .vcmpNe _ _ _ _ _ => .vector
  | .vcmpLt _ _ _ _ _ => .vector
  | .vcmpLe _ _ _ _ _ => .vector
  | .vcmpUn _ _ _ _ _ => .vector
  | .vcmpOr _ _ _ _ _ => .vector
  | .vcvtF16F32 _ _ _ _ _ => .vector
  | .vcvtBf16F32 _ _ _ _ _ => .vector
  | .vcvtF32F16 _ _ _ _ => .vector
  | .vcvtF32Bf16 _ _ _ _ => .vector
  | .vcvtI32F32 _ _ _ _ => .vector
  | .vcvtN32F32 _ _ _ _ => .vector
  | .vcvtF32I32 _ _ _ _ => .vector
  | .vcvtF32N32 _ _ _ _ => .vector
  | .vrcp _ _ _ _ => .vector
  | .vrsq _ _ _ _ => .vector
  | .vexp2 _ _ _ _ => .vector
  | .vlog2 _ _ _ _ => .vector
  | .vtanh _ _ _ _ => .vector
  | .vsig _ _ _ _ => .vector
  | .vaddi _ _ _ _ _ => .vector
  | .vsubi _ _ _ _ _ => .vector
  | .vmuli _ _ _ _ _ => .vector
  | .vmulhi _ _ _ _ _ => .vector
  | .vmini _ _ _ _ _ => .vector
  | .vmaxi _ _ _ _ _ => .vector
  | .vabsdi _ _ _ _ _ => .vector
  | .vand _ _ _ _ _ => .vector
  | .vor _ _ _ _ _ => .vector
  | .vxor _ _ _ _ _ => .vector
  | .vnot _ _ _ _ => .vector
  | .vshl _ _ _ _ _ => .vector
  | .vshr _ _ _ _ _ => .vector
  | .vsra _ _ _ _ _ => .vector
  | .vrshr _ _ _ _ _ => .vector
  | .vaddiSat _ _ _ _ _ => .vector
  | .vsubiSat _ _ _ _ _ => .vector
  | .vaddiScalar _ _ _ _ _ => .vector
  | .vsubiScalar _ _ _ _ _ => .vector
  | .vmuliScalar _ _ _ _ _ => .vector
  | .vminiScalar _ _ _ _ _ => .vector
  | .vmaxiScalar _ _ _ _ _ => .vector
  | .vshlImm _ _ _ _ _ => .vector
  | .vshrImm _ _ _ _ _ => .vector
  | .vsraImm _ _ _ _ _ => .vector
  | .vrshrImm _ _ _ _ _ => .vector
  | .vmac2 _ _ _ _ _ => .vector
  | .vmac2Sat _ _ _ _ _ => .vector
  | .vdot4 _ _ _ _ _ => .vector
  | .vdot4Sat _ _ _ _ _ => .vector
  | .vsatn _ _ _ _ _ => .vector
  | .vwidenLo _ _ _ _ => .vector
  | .vwidenHi _ _ _ _ => .vector
  | .vcmpiEq _ _ _ _ _ => .vector
  | .vcmpiNe _ _ _ _ _ => .vector
  | .vcmpiLt _ _ _ _ _ => .vector
  | .vcmpiLe _ _ _ _ _ => .vector
  | .vpopc _ _ _ _ => .vector
  | .vprepop _ _ _ _ => .vector
  | .vclz _ _ _ _ => .vector
  | .vslideUp _ _ _ _ => .vector
  | .vslideDn _ _ _ _ => .vector
  | .vperm _ _ _ _ => .vector
  | .vcmprs _ _ _ => .vector
  | .vexpnd _ _ _ => .vector
  | .viota _ _ => .vector
  | .vselv _ _ _ _ => .vector
  | .vmov _ _ _ => .vector
  | .vbcast _ _ _ => .vector
  | .vredAddInt _ _ _ _ => .vector
  | .vredMinInt _ _ _ _ => .vector
  | .vredMaxInt _ _ _ _ => .vector
  | .vredAddFloat _ _ _ _ => .vector
  | .vredMinFloat _ _ _ _ => .vector
  | .vredMaxFloat _ _ _ _ => .vector
  | .vscaniAddInt _ _ _ _ => .vector
  | .vscaniMaxInt _ _ _ _ => .vector
  | .vscaniAddFloat _ _ _ _ => .vector
  | .vqnt _ _ _ _ _ => .vector
  | .vdqnt _ _ _ _ _ => .vector
  | .vtopk _ _ _ _ _ => .vector
  | .vtopkNz _ _ _ _ _ => .vector
  | .mand _ _ _ => .vector
  | .mor _ _ _ => .vector
  | .mxor _ _ _ => .vector
  | .mnot _ _ => .vector
  | .mset _ _ => .vector
  | .mma _ _ _ _ _ _ _ => .vector
  | .movl _ _ => .long
  | .movhi _ _ => .long
  | .amoadd _ _ _ _ _ _ _ _ _ => .long
  | .amoand _ _ _ _ _ _ _ _ _ => .long
  | .amoor _ _ _ _ _ _ _ _ _ => .long
  | .amoxor _ _ _ _ _ _ _ _ _ => .long
  | .amomin _ _ _ _ _ _ _ _ _ => .long
  | .amomax _ _ _ _ _ _ _ _ _ => .long
  | .amominn _ _ _ _ _ _ _ _ _ => .long
  | .amomaxn _ _ _ _ _ _ _ _ _ => .long
  | .amoswap _ _ _ _ _ _ _ _ _ => .long
  | .amocas _ _ _ _ _ _ _ _ _ _ => .long
  | .wdq _ _ => .short
  | .sbind _ _ _ _ _ => .short
  | .scfg _ _ _ _ => .short
  | .mcast _ _ => .short
  | .cpyt _ => .short
  | .cpys _ => .short
  | .cpyg _ => .short
  | .cpyw _ => .short
  | .cpy _ => .short
  | .steal _ _ _ => .short
  | .split _ _ => .short
  | .dqpushr _ _ _ => .short
  | .dqpop _ _ _ _ _ => .short
  | .forkd _ _ => .short
  | .fork _ _ => .short
  | .psende _ => .short
  | .psend _ => .short
  | .send _ _ _ _ => .short
  | .ringcfg _ _ => .short
  | .ringcfgRel _ => .short
  | .ringadv _ => .short
  | .ringadvPop _ => .short
  | .ringstat _ _ _ => .short
  | .mzero _ => .short
  | .mzeroRel _ => .short
  | .mload _ _ _ _ => .short
  | .mdrain _ _ _ _ => .short
  | .geomset _ => .short
  | .geommask _ _ => .short
  | .repcap _ => .short
  | .repcapRel => .short
  | .repgo _ _ => .short
  | .repwait _ => .short
  | .cxopen _ _ _ => .short
  | .cxopenRel _ => .short
  | .cxand _ _ _ => .short
  | .cxor _ _ _ => .short
  | .cxdiff _ _ _ => .short
  | .cxnext _ _ _ _ => .short
  | .cxnextW _ _ _ _ => .short
  | .cxsplit _ _ _ => .short
  | .cxsave _ _ => .short
  | .cxrest _ _ => .short
  | .cxstat _ _ _ => .short
  | .scngrp _ _ _ => .short
  | .scngrpRel => .short
  | .scnop _ => .short
  | .scntile _ => .short
  | .scnxch _ _ => .short
  | .scnfix _ => .short
  | .scnfixSt _ => .short
  | .fbar _ => .short
  | .fcomb _ _ => .short
  | .buffree _ => .short
  | .cpyqstat _ _ => .short
  | .sclose _ => .short
  | .ssave _ _ => .short
  | .srest _ _ => .short
  | .pubon _ => .short
  | .puboff => .short
  | .subscr _ _ _ => .short
  | .unsub => .short
  | .unsubp _ => .short
  | .unsubm _ => .short
  | .resub _ _ => .short
  | .rdv _ _ => .short
  | .leave => .short
  | .join _ => .short
  | .taskend => .short
  | .cancell _ _ => .short
  | .pipebind _ _ _ => .short
  | .pipebindRel _ => .short
  | .mbpop _ => .short
  | .mbpeek _ => .short
  | .mbcnt _ _ => .short
  | .segld _ _ => .short
  | .segst _ _ => .short
  | .istset _ => .short
  | .slotstart _ _ => .short
  | .slotstopStop _ _ => .short
  | .slotstopResume _ _ => .short
  | .slotstopIdle _ _ => .short
  | .slotxferRd _ _ => .short
  | .slotxferWr _ _ => .short
  | .slotxferVrd _ _ => .short
  | .slotxferVwr _ _ => .short
  | .slotxferTq _ => .short
  | .slotxferDump _ => .short
  | .slotxferLoad _ => .short
  | .hubcmd _ _ => .short
  | .yield => .short
  | .sleep _ _ => .short
  | .waitmsg _ => .short
  | .halt => .short
  | .getid _ _ => .short
  | .mfs _ _ => .short
  | .mts _ _ => .short
  | .trap _ => .short
  | .eret _ => .short
  | .ulion => .short
  | .ulioff => .short
  | .uliret => .short
  | .timerset _ _ => .short
  | .idem => .short
  | .idemEnd => .short
  | .evcrd _ _ => .short
  | .evcclr _ => .short
  | .jr _ => .short
  | .callr _ => .short
  | .call _ => .short
  | .bmnz _ _ => .short
  | .bmz _ _ => .short
  | .bnc _ _ => .short
  | .bc _ _ => .short
  | .br _ => .short
  | .vstx _ _ _ _ _ _ => .short
  | .vldx _ _ _ _ _ _ => .short
  | .vldb _ _ _ _ => .short
  | .vst _ _ _ _ _ => .short
  | .vld _ _ _ _ _ => .short
  | .fetest _ _ _ _ => .short
  | .feclr _ _ _ => .short
  | .feset _ _ _ => .short
  | .lea _ _ _ _ => .short
  | .stwfill _ _ _ _ _ => .short
  | .ldwtake _ _ _ _ => .short
  | .ldwsync _ _ _ _ => .short
  | .std _ _ _ _ _ => .short
  | .stw _ _ _ _ _ => .short
  | .sth _ _ _ _ _ => .short
  | .stb _ _ _ _ _ => .short
  | .ldd _ _ _ _ _ => .short
  | .ldws _ _ _ _ _ => .short
  | .ldw _ _ _ _ _ => .short
  | .ldhs _ _ _ _ _ => .short
  | .ldh _ _ _ _ _ => .short
  | .ldbs _ _ _ _ _ => .short
  | .ldb _ _ _ _ _ => .short
  | .fencee _ => .short
  | .fence _ => .short
  | .movtk _ _ => .short
  | .movk _ _ => .short
  | .pand _ _ _ => .short
  | .por _ _ _ => .short
  | .pxor _ _ _ => .short
  | .ptos _ => .short
  | .stop _ => .short
  | .mtos _ _ => .short
  | .stom _ _ => .short
  | .vmovs _ _ _ => .short
  | .smovv _ _ _ => .short
  | .cmp _ _ _ _ => .short
  | .div _ _ _ => .short
  | .divn _ _ _ => .short
  | .rem _ _ _ => .short
  | .remn _ _ _ => .short
  | .add _ _ _ => .short
  | .sub _ _ _ => .short
  | .mul _ _ _ => .short
  | .mulh _ _ _ => .short
  | .mulhn _ _ _ => .short
  | .and _ _ _ => .short
  | .or _ _ _ => .short
  | .xor _ _ _ => .short
  | .andn _ _ _ => .short
  | .shl _ _ _ => .short
  | .shr _ _ _ => .short
  | .sra _ _ _ => .short
  | .rotr _ _ _ => .short
  | .min _ _ _ => .short
  | .max _ _ _ => .short
  | .minn _ _ _ => .short
  | .maxn _ _ _ => .short
  | .clz _ _ => .short
  | .ctz _ _ => .short
  | .popc _ _ => .short
  | .brev _ _ => .short
  | .bext _ _ _ => .short
  | .bdep _ _ _ => .short
  | .sext _ _ _ => .short
  | .zext _ _ _ => .short
  | .sel _ _ _ _ => .short
  | .cmpi _ _ _ _ => .short
  | .srai _ _ _ => .short
  | .shri _ _ _ => .short
  | .shli _ _ _ => .short
  | .xori _ _ _ => .short
  | .ori _ _ _ => .short
  | .andi _ _ _ => .short
  | .addi _ _ _ => .short
  | .divideStart _ => .event
  | .divideComplete _ => .event
  | .haltDrainComplete _ _ => .event
  | .fenceComplete _ _ => .event
  | .taskendComplete _ _ => .event
  | .unitWaitEnd _ _ => .event
  | .ringWaitEnd _ _ => .event
  | .stripReady _ _ => .event
  | .copyQueuePlaceFree _ _ => .event
  | .timerExpiry _ _ => .event
  | .sleepTimeout _ _ => .event
  | .istSwitch _ => .event
  | .coreBank _ => .event
  | .restartEnd _ => .event
  | .publishedBundleArrive _ _ _ => .event
  | .joinRequestArrive _ _ _ => .event
  | .subscrRefusalArrive _ _ => .event
  | .rdvReportArrive _ _ _ => .event
  | .rdvCompletionArrive _ _ _ _ => .event
  | .membershipNoticeArrive _ _ _ _ => .event
  | .publishEndArrive _ _ _ => .event
  | .remoteRequestArrive _ _ => .event
  | .builtinRequestPerform _ => .event
  | .remoteReply _ _ => .event
  | .feWithdrawalArrive _ _ _ => .event
  | .handlerStart _ => .event
  | .pushArrive _ => .event
  | .pushAckArrive _ => .event
  | .pushRefusalArrive _ => .event
  | .stealRequestArrive _ _ => .event
  | .stealAnswerArrive _ _ _ _ => .event
  | .dieQueueRequest _ _ => .event
  | .dqpopPass _ _ => .event
  | .joinCounterUpdate _ _ _ => .event
  | .cancelArrive _ _ _ => .event
  | .cancellComplete _ _ => .event
  | .accumulatorClear _ => .event
  | .mmaStepStart _ => .event
  | .mmaStepRetire _ => .event
  | .matrixOpComplete _ => .event
  | .sequencerIssue _ => .event
  | .sequenceEnd _ => .event
  | .scanTileRow _ => .event
  | .scnfixRow _ => .event
  | .flueMessageArrive _ _ => .event
  | .flueDeferredSend _ => .event
  | .flueOperationComplete _ => .event
  | .copyCommandStart _ _ => .event
  | .copyCommandComplete _ _ => .event
  | .copyRingPushDeferred _ _ => .event
  | .mcastTargetComplete _ _ _ => .event
  | .buffreeCredit _ _ _ => .event
  | .streamRefill _ _ => .event
  | .streamDrain _ _ => .event
  | .portStripArrive _ _ _ _ _ _ _ => .event
  | .messageArrive _ _ _ => .event
  | .mailboxHeldEntry _ _ => .event
  | .uliDeliver _ _ => .event
  | .caddyQuery _ _ _ _ => .event
  | .caddyAnswer _ _ _ _ => .event
  | .pageFault _ _ _ _ _ _ => .event
  | .wakeArrive _ _ => .event
  | .engineEccError _ _ _ _ _ => .event
  | .preemptArrive _ => .event
  | .slot15Restart _ => .event
  | .rankMove _ _ _ => .event
  | .cowCopy _ _ => .event
  | .frameReturn _ => .event
  | .laneSpare _ => .event
  | .flitRetry _ _ => .event
  | .linkFail _ => .event
  | .linkHeal _ => .event
  | .memoryLinkFail _ => .event
  | .cordLinkDrop _ => .event
  | .cordAtomicArrive _ => .event
  | .cordAtomicTimeout _ => .event
  | .cordTransferComplete _ => .event
  | .cbarArrive _ _ _ => .event
  | .saved _ _ _ => .event
  | .restored _ _ _ => .event
  | .gangfail _ _ _ => .event
  | .caddy _ _ _ => .event
  | .cwrite _ _ _ => .event
  | .cread _ _ _ => .event
  | .catom _ _ _ => .event
  | .cbar _ _ _ => .event
  | .sqtailWrite _ _ => .event
  | .entryAccept => .event
  | .sqctlEn _ _ => .event
  | .sqctlRst _ => .event
  | .wake _ => .event
  | .fqcons _ => .event
  | .hubRegisterWrite _ _ => .event
  | .launch _ => .event
  | .gangPlace _ => .event
  | .launchDone _ => .event
  | .copy _ => .event
  | .pgfork _ => .event
  | .cancel _ => .event
  | .kill _ => .event
  | .killDrained _ => .event
  | .queueFence _ => .event
  | .signal _ => .event
  | .cancelFaults _ => .event
  | .preempt _ => .event
  | .resume _ => .event
  | .commandFinish _ _ => .event
  | .hostMemWrite _ _ => .event
  | .hostMemRead _ => .event
  | .powerOn => .event
  | .perst => .event
  | .bringUpStage => .event
  | .rst => .event
  | .svncommit => .event
  | .pwrlimWrite _ => .event
  | .mgmtRegisterWrite _ _ => .event
  | .firmwareImageLoad _ _ _ _ => .event
  | .powerSample _ _ _ => .event
  | .clockStepChange => .event
  | .scrub _ _ => .event
  | .getVersion => .event
  | .getCapabilities => .event
  | .negotiateAlgorithms _ _ => .event
  | .getDigests => .event
  | .getCertificate _ _ _ => .event
  | .challenge _ => .event
  | .getMeasurements _ _ => .event
  | .spdmUnsupportedRequest _ => .event
  | .spdmSignedResponse => .event
  | .unassignedEncoding _ => .event
  | .cowCopyComplete _ _ => .event
  | .scanImageStripWrite _ => .event
  | .replyCacheEntryAge _ => .event
  | .retrainingEnd _ => .event
  | .changeoverEnd _ => .event

/-- The word of an S syllable, of a V syllable, or of a long-form bundle (R58, R60); 0 for a step that no
word encodes. -/
def encode (i : Instr) : Nat :=
  match i with
  | .vnop => 0x00000000
  | .vadd d a b m t => 0x02000000 + d.toNat * 0x100000 + a.toNat * 0x8000 + b.toNat * 0x400 + m.toNat * 0x80 + t.toNat * 0x10
  | .vsub d a b m t => 0x02000001 + d.toNat * 0x100000 + a.toNat * 0x8000 + b.toNat * 0x400 + m.toNat * 0x80 + t.toNat * 0x10
  | .vmul d a b m t => 0x02000002 + d.toNat * 0x100000 + a.toNat * 0x8000 + b.toNat * 0x400 + m.toNat * 0x80 + t.toNat * 0x10
  | .vmin d a b m t => 0x02000003 + d.toNat * 0x100000 + a.toNat * 0x8000 + b.toNat * 0x400 + m.toNat * 0x80 + t.toNat * 0x10
  | .vmax d a b m t => 0x02000004 + d.toNat * 0x100000 + a.toNat * 0x8000 + b.toNat * 0x400 + m.toNat * 0x80 + t.toNat * 0x10
  | .vabs d a m t => 0x02000005 + d.toNat * 0x100000 + a.toNat * 0x8000 + m.toNat * 0x80 + t.toNat * 0x10
  | .vneg d a m t => 0x02000006 + d.toNat * 0x100000 + a.toNat * 0x8000 + m.toNat * 0x80 + t.toNat * 0x10
  | .vclass d a m t => 0x02000007 + d.toNat * 0x100000 + a.toNat * 0x8000 + m.toNat * 0x80 + t.toNat * 0x10
  | .vrndi d a m t => 0x02000008 + d.toNat * 0x100000 + a.toNat * 0x8000 + m.toNat * 0x80 + t.toNat * 0x10
  | .vaddScalar d a sc m t => 0x04000000 + d.toNat * 0x100000 + a.toNat * 0x8000 + sc.toNat * 0x200 + m.toNat * 0x40 + t.toNat * 0x8
  | .vsubScalar d a sc m t => 0x04000001 + d.toNat * 0x100000 + a.toNat * 0x8000 + sc.toNat * 0x200 + m.toNat * 0x40 + t.toNat * 0x8
  | .vmulScalar d a sc m t => 0x04000002 + d.toNat * 0x100000 + a.toNat * 0x8000 + sc.toNat * 0x200 + m.toNat * 0x40 + t.toNat * 0x8
  | .vfma d a b c m t => 0x06000000 + d.toNat * 0x100000 + a.toNat * 0x8000 + b.toNat * 0x400 + c.toNat * 0x20 + m.toNat * 0x4 + t.toNat
  | .vfms d a b c m t => 0x08000000 + d.toNat * 0x100000 + a.toNat * 0x8000 + b.toNat * 0x400 + c.toNat * 0x20 + m.toNat * 0x4 + t.toNat
  | .vfnma d a b c m t => 0x0A000000 + d.toNat * 0x100000 + a.toNat * 0x8000 + b.toNat * 0x400 + c.toNat * 0x20 + m.toNat * 0x4 + t.toNat
  | .vcmpEq d a b m t => 0x0C000000 + d.toNat * 0x100000 + a.toNat * 0x8000 + b.toNat * 0x400 + m.toNat * 0x80 + t.toNat * 0x10
  | .vcmpNe d a b m t => 0x0C000001 + d.toNat * 0x100000 + a.toNat * 0x8000 + b.toNat * 0x400 + m.toNat * 0x80 + t.toNat * 0x10
  | .vcmpLt d a b m t => 0x0C000002 + d.toNat * 0x100000 + a.toNat * 0x8000 + b.toNat * 0x400 + m.toNat * 0x80 + t.toNat * 0x10
  | .vcmpLe d a b m t => 0x0C000003 + d.toNat * 0x100000 + a.toNat * 0x8000 + b.toNat * 0x400 + m.toNat * 0x80 + t.toNat * 0x10
  | .vcmpUn d a b m t => 0x0C000004 + d.toNat * 0x100000 + a.toNat * 0x8000 + b.toNat * 0x400 + m.toNat * 0x80 + t.toNat * 0x10
  | .vcmpOr d a b m t => 0x0C000005 + d.toNat * 0x100000 + a.toNat * 0x8000 + b.toNat * 0x400 + m.toNat * 0x80 + t.toNat * 0x10
  | .vcvtF16F32 d a b m t => 0x0E000000 + d.toNat * 0x100000 + a.toNat * 0x8000 + b.toNat * 0x400 + m.toNat * 0x80 + t.toNat * 0x10
  | .vcvtBf16F32 d a b m t => 0x0E000001 + d.toNat * 0x100000 + a.toNat * 0x8000 + b.toNat * 0x400 + m.toNat * 0x80 + t.toNat * 0x10
  | .vcvtF32F16 d a m t => 0x0E000002 + d.toNat * 0x100000 + a.toNat * 0x8000 + m.toNat * 0x80 + t.toNat * 0x10
  | .vcvtF32Bf16 d a m t => 0x0E000003 + d.toNat * 0x100000 + a.toNat * 0x8000 + m.toNat * 0x80 + t.toNat * 0x10
  | .vcvtI32F32 d a m t => 0x0E000004 + d.toNat * 0x100000 + a.toNat * 0x8000 + m.toNat * 0x80 + t.toNat * 0x10
  | .vcvtN32F32 d a m t => 0x0E000005 + d.toNat * 0x100000 + a.toNat * 0x8000 + m.toNat * 0x80 + t.toNat * 0x10
  | .vcvtF32I32 d a m t => 0x0E000006 + d.toNat * 0x100000 + a.toNat * 0x8000 + m.toNat * 0x80 + t.toNat * 0x10
  | .vcvtF32N32 d a m t => 0x0E000007 + d.toNat * 0x100000 + a.toNat * 0x8000 + m.toNat * 0x80 + t.toNat * 0x10
  | .vrcp d a m t => 0x10000000 + d.toNat * 0x100000 + a.toNat * 0x8000 + m.toNat * 0x80 + t.toNat * 0x10
  | .vrsq d a m t => 0x10000001 + d.toNat * 0x100000 + a.toNat * 0x8000 + m.toNat * 0x80 + t.toNat * 0x10
  | .vexp2 d a m t => 0x10000002 + d.toNat * 0x100000 + a.toNat * 0x8000 + m.toNat * 0x80 + t.toNat * 0x10
  | .vlog2 d a m t => 0x10000003 + d.toNat * 0x100000 + a.toNat * 0x8000 + m.toNat * 0x80 + t.toNat * 0x10
  | .vtanh d a m t => 0x10000004 + d.toNat * 0x100000 + a.toNat * 0x8000 + m.toNat * 0x80 + t.toNat * 0x10
  | .vsig d a m t => 0x10000005 + d.toNat * 0x100000 + a.toNat * 0x8000 + m.toNat * 0x80 + t.toNat * 0x10
  | .vaddi d a b m t => 0x20000000 + d.toNat * 0x100000 + a.toNat * 0x8000 + b.toNat * 0x400 + m.toNat * 0x80 + t.toNat * 0x10
  | .vsubi d a b m t => 0x20000001 + d.toNat * 0x100000 + a.toNat * 0x8000 + b.toNat * 0x400 + m.toNat * 0x80 + t.toNat * 0x10
  | .vmuli d a b m t => 0x20000002 + d.toNat * 0x100000 + a.toNat * 0x8000 + b.toNat * 0x400 + m.toNat * 0x80 + t.toNat * 0x10
  | .vmulhi d a b m t => 0x20000003 + d.toNat * 0x100000 + a.toNat * 0x8000 + b.toNat * 0x400 + m.toNat * 0x80 + t.toNat * 0x10
  | .vmini d a b m t => 0x20000004 + d.toNat * 0x100000 + a.toNat * 0x8000 + b.toNat * 0x400 + m.toNat * 0x80 + t.toNat * 0x10
  | .vmaxi d a b m t => 0x20000005 + d.toNat * 0x100000 + a.toNat * 0x8000 + b.toNat * 0x400 + m.toNat * 0x80 + t.toNat * 0x10
  | .vabsdi d a b m t => 0x20000006 + d.toNat * 0x100000 + a.toNat * 0x8000 + b.toNat * 0x400 + m.toNat * 0x80 + t.toNat * 0x10
  | .vand d a b m t => 0x20000007 + d.toNat * 0x100000 + a.toNat * 0x8000 + b.toNat * 0x400 + m.toNat * 0x80 + t.toNat * 0x10
  | .vor d a b m t => 0x20000008 + d.toNat * 0x100000 + a.toNat * 0x8000 + b.toNat * 0x400 + m.toNat * 0x80 + t.toNat * 0x10
  | .vxor d a b m t => 0x20000009 + d.toNat * 0x100000 + a.toNat * 0x8000 + b.toNat * 0x400 + m.toNat * 0x80 + t.toNat * 0x10
  | .vnot d a m t => 0x2000000A + d.toNat * 0x100000 + a.toNat * 0x8000 + m.toNat * 0x80 + t.toNat * 0x10
  | .vshl d a b m t => 0x2000000B + d.toNat * 0x100000 + a.toNat * 0x8000 + b.toNat * 0x400 + m.toNat * 0x80 + t.toNat * 0x10
  | .vshr d a b m t => 0x2000000C + d.toNat * 0x100000 + a.toNat * 0x8000 + b.toNat * 0x400 + m.toNat * 0x80 + t.toNat * 0x10
  | .vsra d a b m t => 0x2000000D + d.toNat * 0x100000 + a.toNat * 0x8000 + b.toNat * 0x400 + m.toNat * 0x80 + t.toNat * 0x10
  | .vrshr d a b m t => 0x2000000E + d.toNat * 0x100000 + a.toNat * 0x8000 + b.toNat * 0x400 + m.toNat * 0x80 + t.toNat * 0x10
  | .vaddiSat d a b m t => 0x22000000 + d.toNat * 0x100000 + a.toNat * 0x8000 + b.toNat * 0x400 + m.toNat * 0x80 + t.toNat * 0x10
  | .vsubiSat d a b m t => 0x22000001 + d.toNat * 0x100000 + a.toNat * 0x8000 + b.toNat * 0x400 + m.toNat * 0x80 + t.toNat * 0x10
  | .vaddiScalar d a sc m t => 0x24000000 + d.toNat * 0x100000 + a.toNat * 0x8000 + sc.toNat * 0x200 + m.toNat * 0x40 + t.toNat * 0x8
  | .vsubiScalar d a sc m t => 0x24000001 + d.toNat * 0x100000 + a.toNat * 0x8000 + sc.toNat * 0x200 + m.toNat * 0x40 + t.toNat * 0x8
  | .vmuliScalar d a sc m t => 0x24000002 + d.toNat * 0x100000 + a.toNat * 0x8000 + sc.toNat * 0x200 + m.toNat * 0x40 + t.toNat * 0x8
  | .vminiScalar d a sc m t => 0x24000003 + d.toNat * 0x100000 + a.toNat * 0x8000 + sc.toNat * 0x200 + m.toNat * 0x40 + t.toNat * 0x8
  | .vmaxiScalar d a sc m t => 0x24000004 + d.toNat * 0x100000 + a.toNat * 0x8000 + sc.toNat * 0x200 + m.toNat * 0x40 + t.toNat * 0x8
  | .vshlImm d a imm m t => 0x26000000 + d.toNat * 0x100000 + a.toNat * 0x8000 + imm.toNat * 0x200 + m.toNat * 0x40 + t.toNat * 0x8
  | .vshrImm d a imm m t => 0x26000001 + d.toNat * 0x100000 + a.toNat * 0x8000 + imm.toNat * 0x200 + m.toNat * 0x40 + t.toNat * 0x8
  | .vsraImm d a imm m t => 0x26000002 + d.toNat * 0x100000 + a.toNat * 0x8000 + imm.toNat * 0x200 + m.toNat * 0x40 + t.toNat * 0x8
  | .vrshrImm d a imm m t => 0x26000003 + d.toNat * 0x100000 + a.toNat * 0x8000 + imm.toNat * 0x200 + m.toNat * 0x40 + t.toNat * 0x8
  | .vmac2 d a b m t => 0x28000000 + d.toNat * 0x100000 + a.toNat * 0x8000 + b.toNat * 0x400 + m.toNat * 0x80 + t.toNat * 0x10
  | .vmac2Sat d a b m t => 0x28000001 + d.toNat * 0x100000 + a.toNat * 0x8000 + b.toNat * 0x400 + m.toNat * 0x80 + t.toNat * 0x10
  | .vdot4 d a b m t => 0x2A000000 + d.toNat * 0x100000 + a.toNat * 0x8000 + b.toNat * 0x400 + m.toNat * 0x80 + t.toNat * 0x10
  | .vdot4Sat d a b m t => 0x2A000001 + d.toNat * 0x100000 + a.toNat * 0x8000 + b.toNat * 0x400 + m.toNat * 0x80 + t.toNat * 0x10
  | .vsatn d a b m t => 0x2C000000 + d.toNat * 0x100000 + a.toNat * 0x8000 + b.toNat * 0x400 + m.toNat * 0x80 + t.toNat * 0x10
  | .vwidenLo d a m t => 0x2E000000 + d.toNat * 0x100000 + a.toNat * 0x8000 + m.toNat * 0x80 + t.toNat * 0x10
  | .vwidenHi d a m t => 0x2E000001 + d.toNat * 0x100000 + a.toNat * 0x8000 + m.toNat * 0x80 + t.toNat * 0x10
  | .vcmpiEq d a b m t => 0x30000000 + d.toNat * 0x100000 + a.toNat * 0x8000 + b.toNat * 0x400 + m.toNat * 0x80 + t.toNat * 0x10
  | .vcmpiNe d a b m t => 0x30000001 + d.toNat * 0x100000 + a.toNat * 0x8000 + b.toNat * 0x400 + m.toNat * 0x80 + t.toNat * 0x10
  | .vcmpiLt d a b m t => 0x30000002 + d.toNat * 0x100000 + a.toNat * 0x8000 + b.toNat * 0x400 + m.toNat * 0x80 + t.toNat * 0x10
  | .vcmpiLe d a b m t => 0x30000003 + d.toNat * 0x100000 + a.toNat * 0x8000 + b.toNat * 0x400 + m.toNat * 0x80 + t.toNat * 0x10
  | .vpopc d a m t => 0x32000000 + d.toNat * 0x100000 + a.toNat * 0x8000 + m.toNat * 0x80 + t.toNat * 0x10
  | .vprepop d a m t => 0x32000001 + d.toNat * 0x100000 + a.toNat * 0x8000 + m.toNat * 0x80 + t.toNat * 0x10
  | .vclz d a m t => 0x32000002 + d.toNat * 0x100000 + a.toNat * 0x8000 + m.toNat * 0x80 + t.toNat * 0x10
  | .vslideUp d a imm m => 0x40000000 + d.toNat * 0x100000 + a.toNat * 0x8000 + imm.toNat * 0x200 + m.toNat * 0x40
  | .vslideDn d a imm m => 0x40000001 + d.toNat * 0x100000 + a.toNat * 0x8000 + imm.toNat * 0x200 + m.toNat * 0x40
  | .vperm d a b m => 0x42000000 + d.toNat * 0x100000 + a.toNat * 0x8000 + b.toNat * 0x400 + m.toNat * 0x80
  | .vcmprs d a m => 0x42000001 + d.toNat * 0x100000 + a.toNat * 0x8000 + m.toNat * 0x80
  | .vexpnd d a m => 0x42000002 + d.toNat * 0x100000 + a.toNat * 0x8000 + m.toNat * 0x80
  | .viota d m => 0x42000003 + d.toNat * 0x100000 + m.toNat * 0x80
  | .vselv d a b m => 0x42000004 + d.toNat * 0x100000 + a.toNat * 0x8000 + b.toNat * 0x400 + m.toNat * 0x80
  | .vmov d a m => 0x42000005 + d.toNat * 0x100000 + a.toNat * 0x8000 + m.toNat * 0x80
  | .vbcast d sc m => 0x44000000 + d.toNat * 0x100000 + sc.toNat * 0x200 + m.toNat * 0x40
  | .vredAddInt d a m t => 0x46000000 + d.toNat * 0x100000 + a.toNat * 0x8000 + m.toNat * 0x80 + t.toNat * 0x10
  | .vredMinInt d a m t => 0x46000001 + d.toNat * 0x100000 + a.toNat * 0x8000 + m.toNat * 0x80 + t.toNat * 0x10
  | .vredMaxInt d a m t => 0x46000002 + d.toNat * 0x100000 + a.toNat * 0x8000 + m.toNat * 0x80 + t.toNat * 0x10
  | .vredAddFloat d a m t => 0x46000008 + d.toNat * 0x100000 + a.toNat * 0x8000 + m.toNat * 0x80 + t.toNat * 0x10
  | .vredMinFloat d a m t => 0x46000009 + d.toNat * 0x100000 + a.toNat * 0x8000 + m.toNat * 0x80 + t.toNat * 0x10
  | .vredMaxFloat d a m t => 0x4600000A + d.toNat * 0x100000 + a.toNat * 0x8000 + m.toNat * 0x80 + t.toNat * 0x10
  | .vscaniAddInt d a m t => 0x48000000 + d.toNat * 0x100000 + a.toNat * 0x8000 + m.toNat * 0x80 + t.toNat * 0x10
  | .vscaniMaxInt d a m t => 0x48000001 + d.toNat * 0x100000 + a.toNat * 0x8000 + m.toNat * 0x80 + t.toNat * 0x10
  | .vscaniAddFloat d a m t => 0x48000008 + d.toNat * 0x100000 + a.toNat * 0x8000 + m.toNat * 0x80 + t.toNat * 0x10
  | .vqnt d a b m t => 0x50000000 + d.toNat * 0x100000 + a.toNat * 0x8000 + b.toNat * 0x400 + m.toNat * 0x80 + t.toNat * 0x10
  | .vdqnt d a b m t => 0x52000000 + d.toNat * 0x100000 + a.toNat * 0x8000 + b.toNat * 0x400 + m.toNat * 0x80 + t.toNat * 0x10
  | .vtopk d a b m t => 0x54000000 + d.toNat * 0x100000 + a.toNat * 0x8000 + b.toNat * 0x400 + m.toNat * 0x80 + t.toNat * 0x10
  | .vtopkNz d a b m t => 0x54000001 + d.toNat * 0x100000 + a.toNat * 0x8000 + b.toNat * 0x400 + m.toNat * 0x80 + t.toNat * 0x10
  | .mand d a b => 0x60000000 + d.toNat * 0x100000 + a.toNat * 0x8000 + b.toNat * 0x400
  | .mor d a b => 0x60000001 + d.toNat * 0x100000 + a.toNat * 0x8000 + b.toNat * 0x400
  | .mxor d a b => 0x60000002 + d.toNat * 0x100000 + a.toNat * 0x8000 + b.toNat * 0x400
  | .mnot d a => 0x60000003 + d.toNat * 0x100000 + a.toNat * 0x8000
  | .mset d n => 0x60000004 + d.toNat * 0x100000 + n.toNat * 0x400
  | .mma acc qa qb sat clr ha hb => 0x80000000 + acc.toNat * 0x400000 + qa.toNat * 0x80000 + qb.toNat * 0x10000 + sat.toNat * 0x8000 + clr.toNat * 0x4000 + ha.toNat * 0x2000 + hb.toNat * 0x1000
  | .movl d imm => 0x80000000 + d.toNat * 0x40000 + imm.toNat * 0x100000000
  | .movhi d imm => 0x81000000 + d.toNat * 0x40000 + imm.toNat * 0x100000000
  | .amoadd d a b sg scope order rx w imm => 0x90000000 + d.toNat * 0x40000 + a.toNat * 0x1000 + b.toNat * 0x40 + sg.toNat * 0x8 + scope.toNat * 0x80000000000000 + order.toNat * 0x20000000000000 + rx.toNat * 0x10000000000000 + w.toNat * 0x8000000000000 + imm.toNat * 0x100000000
  | .amoand d a b sg scope order rx w imm => 0x91000000 + d.toNat * 0x40000 + a.toNat * 0x1000 + b.toNat * 0x40 + sg.toNat * 0x8 + scope.toNat * 0x80000000000000 + order.toNat * 0x20000000000000 + rx.toNat * 0x10000000000000 + w.toNat * 0x8000000000000 + imm.toNat * 0x100000000
  | .amoor d a b sg scope order rx w imm => 0x92000000 + d.toNat * 0x40000 + a.toNat * 0x1000 + b.toNat * 0x40 + sg.toNat * 0x8 + scope.toNat * 0x80000000000000 + order.toNat * 0x20000000000000 + rx.toNat * 0x10000000000000 + w.toNat * 0x8000000000000 + imm.toNat * 0x100000000
  | .amoxor d a b sg scope order rx w imm => 0x93000000 + d.toNat * 0x40000 + a.toNat * 0x1000 + b.toNat * 0x40 + sg.toNat * 0x8 + scope.toNat * 0x80000000000000 + order.toNat * 0x20000000000000 + rx.toNat * 0x10000000000000 + w.toNat * 0x8000000000000 + imm.toNat * 0x100000000
  | .amomin d a b sg scope order rx w imm => 0x94000000 + d.toNat * 0x40000 + a.toNat * 0x1000 + b.toNat * 0x40 + sg.toNat * 0x8 + scope.toNat * 0x80000000000000 + order.toNat * 0x20000000000000 + rx.toNat * 0x10000000000000 + w.toNat * 0x8000000000000 + imm.toNat * 0x100000000
  | .amomax d a b sg scope order rx w imm => 0x95000000 + d.toNat * 0x40000 + a.toNat * 0x1000 + b.toNat * 0x40 + sg.toNat * 0x8 + scope.toNat * 0x80000000000000 + order.toNat * 0x20000000000000 + rx.toNat * 0x10000000000000 + w.toNat * 0x8000000000000 + imm.toNat * 0x100000000
  | .amominn d a b sg scope order rx w imm => 0x96000000 + d.toNat * 0x40000 + a.toNat * 0x1000 + b.toNat * 0x40 + sg.toNat * 0x8 + scope.toNat * 0x80000000000000 + order.toNat * 0x20000000000000 + rx.toNat * 0x10000000000000 + w.toNat * 0x8000000000000 + imm.toNat * 0x100000000
  | .amomaxn d a b sg scope order rx w imm => 0x97000000 + d.toNat * 0x40000 + a.toNat * 0x1000 + b.toNat * 0x40 + sg.toNat * 0x8 + scope.toNat * 0x80000000000000 + order.toNat * 0x20000000000000 + rx.toNat * 0x10000000000000 + w.toNat * 0x8000000000000 + imm.toNat * 0x100000000
  | .amoswap d a b sg scope order rx w imm => 0x98000000 + d.toNat * 0x40000 + a.toNat * 0x1000 + b.toNat * 0x40 + sg.toNat * 0x8 + scope.toNat * 0x80000000000000 + order.toNat * 0x20000000000000 + rx.toNat * 0x10000000000000 + w.toNat * 0x8000000000000 + imm.toNat * 0x100000000
  | .amocas d a b sg c scope order rx w imm => 0x99000000 + d.toNat * 0x40000 + a.toNat * 0x1000 + b.toNat * 0x40 + sg.toNat * 0x8 + c.toNat * 0x400000000000000 + scope.toNat * 0x80000000000000 + order.toNat * 0x20000000000000 + rx.toNat * 0x10000000000000 + w.toNat * 0x8000000000000 + imm.toNat * 0x100000000
  | .wdq a c => 0x51000000 + a.toNat * 0x1000 + c.toNat
  | .sbind e k t r u => 0x50000000 + e.toNat * 0x100 + k.toNat * 0x20 + t.toNat * 0x10 + r.toNat * 0x8 + u.toNat
  | .scfg n k r u => 0x4F000000 + n.toNat * 0x40000 + k.toNat * 0x20 + r.toNat * 0x8 + u.toNat
  | .mcast n a => 0x4E000000 + n.toNat * 0x40000 + a.toNat * 0x1000
  | .cpyt n => 0x4D000000 + n.toNat * 0x40000
  | .cpys n => 0x4C000000 + n.toNat * 0x40000
  | .cpyg n => 0x4B000000 + n.toNat * 0x40000
  | .cpyw n => 0x4A000000 + n.toNat * 0x40000
  | .cpy n => 0x49000000 + n.toNat * 0x40000
  | .steal n a k => 0x48000000 + n.toNat * 0x40000 + a.toNat * 0x1000 + k.toNat
  | .split n k => 0x47000000 + n.toNat * 0x40000 + k.toNat
  | .dqpushr n a k => 0x46000000 + n.toNat * 0x40000 + a.toNat * 0x1000 + k.toNat
  | .dqpop n j scope w k => 0x45000000 + n.toNat * 0x40000 + j.toNat * 0x40 + scope.toNat * 0x10 + w.toNat * 0x8 + k.toNat
  | .forkd n k => 0x44000000 + n.toNat * 0x40000 + k.toNat
  | .fork n k => 0x43000000 + n.toNat * 0x40000 + k.toNat
  | .psende n => 0x42000000 + n.toNat * 0x40000
  | .psend n => 0x41000000 + n.toNat * 0x40000
  | .send n a rx h => 0x40000000 + n.toNat * 0x40000 + a.toNat * 0x1000 + rx.toNat * 0x10 + h.toNat
  | .ringcfg d a => 0x38000000 + d.toNat * 0x40000 + a.toNat * 0x1000
  | .ringcfgRel d => 0x38000040 + d.toNat * 0x40000
  | .ringadv d => 0x38000001 + d.toNat * 0x40000
  | .ringadvPop d => 0x38000041 + d.toNat * 0x40000
  | .ringstat d a which => 0x38000002 + d.toNat * 0x40000 + a.toNat * 0x1000 + which.toNat * 0x40
  | .mzero d => 0x38000003 + d.toNat * 0x40000
  | .mzeroRel d => 0x38000043 + d.toNat * 0x40000
  | .mload c d a b => 0x38000004 + c.toNat * 0x200000 + d.toNat * 0x40000 + a.toNat * 0x1000 + b.toNat * 0x40
  | .mdrain c d a b => 0x38000005 + c.toNat * 0x200000 + d.toNat * 0x40000 + a.toNat * 0x1000 + b.toNat * 0x40
  | .geomset a => 0x38000006 + a.toNat * 0x1000
  | .geommask d c => 0x38000007 + d.toNat * 0x40000 + c.toNat * 0x40
  | .repcap n => 0x38000008 + n.toNat * 0x1000
  | .repcapRel => 0x38000048
  | .repgo a b => 0x38000009 + a.toNat * 0x1000 + b.toNat * 0x40
  | .repwait d => 0x3800000A + d.toNat * 0x40000
  | .cxopen d a side => 0x37000000 + d.toNat * 0x40000 + a.toNat * 0x1000 + side.toNat * 0x40
  | .cxopenRel d => 0x37000080 + d.toNat * 0x40000
  | .cxand d a b => 0x37000001 + d.toNat * 0x40000 + a.toNat * 0x1000 + b.toNat * 0x40
  | .cxor d a b => 0x37000002 + d.toNat * 0x40000 + a.toNat * 0x1000 + b.toNat * 0x40
  | .cxdiff d a b => 0x37000003 + d.toNat * 0x40000 + a.toNat * 0x1000 + b.toNat * 0x40
  | .cxnext d c p m => 0x37000004 + d.toNat * 0x40000 + c.toNat * 0x1000 + p.toNat * 0x200 + m.toNat * 0x40
  | .cxnextW d c p m => 0x37008004 + d.toNat * 0x40000 + c.toNat * 0x1000 + p.toNat * 0x200 + m.toNat * 0x40
  | .cxsplit d a p => 0x37000005 + d.toNat * 0x40000 + a.toNat * 0x1000 + p.toNat * 0x40
  | .cxsave a b => 0x37000006 + a.toNat * 0x1000 + b.toNat * 0x40
  | .cxrest d a => 0x37000007 + d.toNat * 0x40000 + a.toNat * 0x1000
  | .cxstat d a which => 0x37000008 + d.toNat * 0x40000 + a.toNat * 0x1000 + which.toNat * 0x40
  | .scngrp c a b => 0x36000000 + c.toNat * 0x40000 + a.toNat * 0x1000 + b.toNat * 0x40
  | .scngrpRel => 0x36080000
  | .scnop a => 0x36000001 + a.toNat * 0x1000
  | .scntile a => 0x36000002 + a.toNat * 0x1000
  | .scnxch d f => 0x36000003 + d.toNat * 0x40000 + f.toNat * 0x40
  | .scnfix a => 0x36000004 + a.toNat * 0x1000
  | .scnfixSt a => 0x36000044 + a.toNat * 0x1000
  | .fbar d => 0x36000005 + d.toNat * 0x40000
  | .fcomb a c => 0x36000006 + a.toNat * 0x1000 + c.toNat * 0x40
  | .buffree a => 0x35000000 + a.toNat * 0x1000
  | .cpyqstat d q => 0x35000001 + d.toNat * 0x40000 + q.toNat * 0x40
  | .sclose d => 0x35000002 + d.toNat * 0x40000
  | .ssave d a => 0x35000003 + d.toNat * 0x40000 + a.toNat * 0x1000
  | .srest d a => 0x35000004 + d.toNat * 0x40000 + a.toNat * 0x1000
  | .pubon d => 0x34000000 + d.toNat * 0x40000
  | .puboff => 0x34000001
  | .subscr d a t => 0x34000002 + d.toNat * 0x40000 + a.toNat * 0x1000 + t.toNat * 0x40
  | .unsub => 0x34000003
  | .unsubp p => 0x34000004 + p.toNat * 0x1000
  | .unsubm m => 0x34000005 + m.toNat * 0x1000
  | .resub d a => 0x34000006 + d.toNat * 0x40000 + a.toNat * 0x1000
  | .rdv d a => 0x34000007 + d.toNat * 0x40000 + a.toNat * 0x1000
  | .leave => 0x34000008
  | .join a => 0x33000000 + a.toNat * 0x1000
  | .taskend => 0x33000001
  | .cancell d a => 0x33000002 + d.toNat * 0x40000 + a.toNat * 0x1000
  | .pipebind e a c => 0x33000003 + e.toNat * 0x40000 + a.toNat * 0x1000 + c.toNat * 0x40
  | .pipebindRel e => 0x33000083 + e.toNat * 0x40000
  | .mbpop d => 0x32000000 + d.toNat * 0x40000
  | .mbpeek d => 0x32000001 + d.toNat * 0x40000
  | .mbcnt d which => 0x32000002 + d.toNat * 0x40000 + which.toNat * 0x40
  | .segld d a => 0x31000000 + d.toNat * 0x40000 + a.toNat * 0x1000
  | .segst d a => 0x31000001 + d.toNat * 0x40000 + a.toNat * 0x1000
  | .istset a => 0x31000002 + a.toNat * 0x1000
  | .slotstart a b => 0x31000003 + a.toNat * 0x1000 + b.toNat * 0x40
  | .slotstopStop d a => 0x31000004 + d.toNat * 0x40000 + a.toNat * 0x1000
  | .slotstopResume d a => 0x31000044 + d.toNat * 0x40000 + a.toNat * 0x1000
  | .slotstopIdle d a => 0x31000084 + d.toNat * 0x40000 + a.toNat * 0x1000
  | .slotxferRd d a => 0x31000005 + d.toNat * 0x40000 + a.toNat * 0x1000
  | .slotxferWr d a => 0x31000045 + d.toNat * 0x40000 + a.toNat * 0x1000
  | .slotxferVrd d a => 0x31000085 + d.toNat * 0x40000 + a.toNat * 0x1000
  | .slotxferVwr d a => 0x310000C5 + d.toNat * 0x40000 + a.toNat * 0x1000
  | .slotxferTq d => 0x31000105 + d.toNat * 0x40000
  | .slotxferDump a => 0x31000145 + a.toNat * 0x1000
  | .slotxferLoad a => 0x31000185 + a.toNat * 0x1000
  | .hubcmd d a => 0x31000006 + d.toNat * 0x40000 + a.toNat * 0x1000
  | .yield => 0x30000000
  | .sleep d a => 0x30000001 + d.toNat * 0x40000 + a.toNat * 0x1000
  | .waitmsg c => 0x30000002 + c.toNat * 0x40
  | .halt => 0x30000003
  | .getid d which => 0x30000004 + d.toNat * 0x40000 + which.toNat * 0x1000
  | .mfs d c => 0x30000005 + d.toNat * 0x40000 + c.toNat * 0x1000
  | .mts c a => 0x30000006 + c.toNat * 0x40000 + a.toNat * 0x1000
  | .trap n => 0x30000007 + n.toNat * 0x1000
  | .eret a => 0x30000008 + a.toNat * 0x1000
  | .ulion => 0x30000009
  | .ulioff => 0x3000000A
  | .uliret => 0x3000000B
  | .timerset a u => 0x3000000C + a.toNat * 0x1000 + u.toNat * 0x40
  | .idem => 0x3000000D
  | .idemEnd => 0x3000004D
  | .evcrd d n => 0x3000000E + d.toNat * 0x40000 + n.toNat * 0x1000
  | .evcclr n => 0x3000000F + n.toNat * 0x1000
  | .jr a => 0x2E000000 + a.toNat * 0x1000
  | .callr a => 0x2E000001 + a.toNat * 0x1000
  | .call d => 0x2D000000 + d.toNat
  | .bmnz m d => 0x2C000000 + m.toNat * 0x100000 + d.toNat
  | .bmz m d => 0x2B000000 + m.toNat * 0x100000 + d.toNat
  | .bnc p d => 0x2A000000 + p.toNat * 0x100000 + d.toNat
  | .bc p d => 0x29000000 + p.toNat * 0x100000 + d.toNat
  | .br d => 0x28000000 + d.toNat
  | .vstx d a sg rx vi m => 0x27000000 + d.toNat * 0x40000 + a.toNat * 0x1000 + sg.toNat * 0x200 + rx.toNat * 0x100 + vi.toNat * 0x8 + m.toNat
  | .vldx d a sg rx vi m => 0x26000000 + d.toNat * 0x40000 + a.toNat * 0x1000 + sg.toNat * 0x200 + rx.toNat * 0x100 + vi.toNat * 0x8 + m.toNat
  | .vldb d a sg imm => 0x25000000 + d.toNat * 0x40000 + a.toNat * 0x1000 + sg.toNat * 0x200 + imm.toNat
  | .vst d a sg rx imm => 0x24000000 + d.toNat * 0x40000 + a.toNat * 0x1000 + sg.toNat * 0x200 + rx.toNat * 0x100 + imm.toNat
  | .vld d a sg rx imm => 0x23000000 + d.toNat * 0x40000 + a.toNat * 0x1000 + sg.toNat * 0x200 + rx.toNat * 0x100 + imm.toNat
  | .fetest p a sg imm => 0x22000000 + p.toNat * 0x40000 + a.toNat * 0x1000 + sg.toNat * 0x200 + imm.toNat
  | .feclr a sg imm => 0x21000000 + a.toNat * 0x1000 + sg.toNat * 0x200 + imm.toNat
  | .feset a sg imm => 0x20000000 + a.toNat * 0x1000 + sg.toNat * 0x200 + imm.toNat
  | .lea d a sg imm => 0x1F000000 + d.toNat * 0x40000 + a.toNat * 0x1000 + sg.toNat * 0x200 + imm.toNat
  | .stwfill d a sg rx imm => 0x1E000000 + d.toNat * 0x40000 + a.toNat * 0x1000 + sg.toNat * 0x200 + rx.toNat * 0x100 + imm.toNat
  | .ldwtake d a sg imm => 0x1D000000 + d.toNat * 0x40000 + a.toNat * 0x1000 + sg.toNat * 0x200 + imm.toNat
  | .ldwsync d a sg imm => 0x1C000000 + d.toNat * 0x40000 + a.toNat * 0x1000 + sg.toNat * 0x200 + imm.toNat
  | .std d a sg rx imm => 0x1B000000 + d.toNat * 0x40000 + a.toNat * 0x1000 + sg.toNat * 0x200 + rx.toNat * 0x100 + imm.toNat
  | .stw d a sg rx imm => 0x1A000000 + d.toNat * 0x40000 + a.toNat * 0x1000 + sg.toNat * 0x200 + rx.toNat * 0x100 + imm.toNat
  | .sth d a sg rx imm => 0x19000000 + d.toNat * 0x40000 + a.toNat * 0x1000 + sg.toNat * 0x200 + rx.toNat * 0x100 + imm.toNat
  | .stb d a sg rx imm => 0x18000000 + d.toNat * 0x40000 + a.toNat * 0x1000 + sg.toNat * 0x200 + rx.toNat * 0x100 + imm.toNat
  | .ldd d a sg rx imm => 0x16000000 + d.toNat * 0x40000 + a.toNat * 0x1000 + sg.toNat * 0x200 + rx.toNat * 0x100 + imm.toNat
  | .ldws d a sg rx imm => 0x15000000 + d.toNat * 0x40000 + a.toNat * 0x1000 + sg.toNat * 0x200 + rx.toNat * 0x100 + imm.toNat
  | .ldw d a sg rx imm => 0x14000000 + d.toNat * 0x40000 + a.toNat * 0x1000 + sg.toNat * 0x200 + rx.toNat * 0x100 + imm.toNat
  | .ldhs d a sg rx imm => 0x13000000 + d.toNat * 0x40000 + a.toNat * 0x1000 + sg.toNat * 0x200 + rx.toNat * 0x100 + imm.toNat
  | .ldh d a sg rx imm => 0x12000000 + d.toNat * 0x40000 + a.toNat * 0x1000 + sg.toNat * 0x200 + rx.toNat * 0x100 + imm.toNat
  | .ldbs d a sg rx imm => 0x11000000 + d.toNat * 0x40000 + a.toNat * 0x1000 + sg.toNat * 0x200 + rx.toNat * 0x100 + imm.toNat
  | .ldb d a sg rx imm => 0x10000000 + d.toNat * 0x40000 + a.toNat * 0x1000 + sg.toNat * 0x200 + rx.toNat * 0x100 + imm.toNat
  | .fencee scope => 0x0F000000 + scope.toNat
  | .fence scope => 0x0E000000 + scope.toNat
  | .movtk a k => 0x0D000000 + a.toNat * 0x1000 + k.toNat
  | .movk d k => 0x0C000000 + d.toNat * 0x40000 + k.toNat
  | .pand d a b => 0x0B000000 + d.toNat * 0x40000 + a.toNat * 0x1000 + b.toNat * 0x40
  | .por d a b => 0x0B000001 + d.toNat * 0x40000 + a.toNat * 0x1000 + b.toNat * 0x40
  | .pxor d a b => 0x0B000002 + d.toNat * 0x40000 + a.toNat * 0x1000 + b.toNat * 0x40
  | .ptos d => 0x0B000003 + d.toNat * 0x40000
  | .stop a => 0x0B000004 + a.toNat * 0x1000
  | .mtos d a => 0x0B000005 + d.toNat * 0x40000 + a.toNat * 0x1000
  | .stom d a => 0x0B000006 + d.toNat * 0x40000 + a.toNat * 0x1000
  | .vmovs d a b => 0x0B000007 + d.toNat * 0x40000 + a.toNat * 0x1000 + b.toNat * 0x40
  | .smovv d a b => 0x0B000008 + d.toNat * 0x40000 + a.toNat * 0x1000 + b.toNat * 0x40
  | .cmp c p a b => 0x0A000000 + c.toNat * 0x200000 + p.toNat * 0x40000 + a.toNat * 0x1000 + b.toNat * 0x40
  | .div d a b => 0x09000000 + d.toNat * 0x40000 + a.toNat * 0x1000 + b.toNat * 0x40
  | .divn d a b => 0x09000001 + d.toNat * 0x40000 + a.toNat * 0x1000 + b.toNat * 0x40
  | .rem d a b => 0x09000002 + d.toNat * 0x40000 + a.toNat * 0x1000 + b.toNat * 0x40
  | .remn d a b => 0x09000003 + d.toNat * 0x40000 + a.toNat * 0x1000 + b.toNat * 0x40
  | .add d a b => 0x08000000 + d.toNat * 0x40000 + a.toNat * 0x1000 + b.toNat * 0x40
  | .sub d a b => 0x08000001 + d.toNat * 0x40000 + a.toNat * 0x1000 + b.toNat * 0x40
  | .mul d a b => 0x08000002 + d.toNat * 0x40000 + a.toNat * 0x1000 + b.toNat * 0x40
  | .mulh d a b => 0x08000003 + d.toNat * 0x40000 + a.toNat * 0x1000 + b.toNat * 0x40
  | .mulhn d a b => 0x08000004 + d.toNat * 0x40000 + a.toNat * 0x1000 + b.toNat * 0x40
  | .and d a b => 0x08000005 + d.toNat * 0x40000 + a.toNat * 0x1000 + b.toNat * 0x40
  | .or d a b => 0x08000006 + d.toNat * 0x40000 + a.toNat * 0x1000 + b.toNat * 0x40
  | .xor d a b => 0x08000007 + d.toNat * 0x40000 + a.toNat * 0x1000 + b.toNat * 0x40
  | .andn d a b => 0x08000008 + d.toNat * 0x40000 + a.toNat * 0x1000 + b.toNat * 0x40
  | .shl d a b => 0x08000009 + d.toNat * 0x40000 + a.toNat * 0x1000 + b.toNat * 0x40
  | .shr d a b => 0x0800000A + d.toNat * 0x40000 + a.toNat * 0x1000 + b.toNat * 0x40
  | .sra d a b => 0x0800000B + d.toNat * 0x40000 + a.toNat * 0x1000 + b.toNat * 0x40
  | .rotr d a b => 0x0800000C + d.toNat * 0x40000 + a.toNat * 0x1000 + b.toNat * 0x40
  | .min d a b => 0x0800000D + d.toNat * 0x40000 + a.toNat * 0x1000 + b.toNat * 0x40
  | .max d a b => 0x0800000E + d.toNat * 0x40000 + a.toNat * 0x1000 + b.toNat * 0x40
  | .minn d a b => 0x0800000F + d.toNat * 0x40000 + a.toNat * 0x1000 + b.toNat * 0x40
  | .maxn d a b => 0x08000010 + d.toNat * 0x40000 + a.toNat * 0x1000 + b.toNat * 0x40
  | .clz d a => 0x08000011 + d.toNat * 0x40000 + a.toNat * 0x1000
  | .ctz d a => 0x08000012 + d.toNat * 0x40000 + a.toNat * 0x1000
  | .popc d a => 0x08000013 + d.toNat * 0x40000 + a.toNat * 0x1000
  | .brev d a => 0x08000014 + d.toNat * 0x40000 + a.toNat * 0x1000
  | .bext d a b => 0x08000015 + d.toNat * 0x40000 + a.toNat * 0x1000 + b.toNat * 0x40
  | .bdep d a b => 0x08000016 + d.toNat * 0x40000 + a.toNat * 0x1000 + b.toNat * 0x40
  | .sext d a n => 0x08000017 + d.toNat * 0x40000 + a.toNat * 0x1000 + n.toNat * 0x40
  | .zext d a n => 0x08000018 + d.toNat * 0x40000 + a.toNat * 0x1000 + n.toNat * 0x40
  | .sel d a b p => 0x08000020 + d.toNat * 0x40000 + a.toNat * 0x1000 + b.toNat * 0x40 + p.toNat
  | .cmpi c p a imm => 0x07000000 + c.toNat * 0x200000 + p.toNat * 0x40000 + a.toNat * 0x1000 + imm.toNat
  | .srai d a n => 0x06000000 + d.toNat * 0x40000 + a.toNat * 0x1000 + n.toNat
  | .shri d a n => 0x05000000 + d.toNat * 0x40000 + a.toNat * 0x1000 + n.toNat
  | .shli d a n => 0x04000000 + d.toNat * 0x40000 + a.toNat * 0x1000 + n.toNat
  | .xori d a imm => 0x03000000 + d.toNat * 0x40000 + a.toNat * 0x1000 + imm.toNat
  | .ori d a imm => 0x02000000 + d.toNat * 0x40000 + a.toNat * 0x1000 + imm.toNat
  | .andi d a imm => 0x01000000 + d.toNat * 0x40000 + a.toNat * 0x1000 + imm.toNat
  | .addi d a imm => 0x00000000 + d.toNat * 0x40000 + a.toNat * 0x1000 + imm.toNat
  | .divideStart _ => 0
  | .divideComplete _ => 0
  | .haltDrainComplete _ _ => 0
  | .fenceComplete _ _ => 0
  | .taskendComplete _ _ => 0
  | .unitWaitEnd _ _ => 0
  | .ringWaitEnd _ _ => 0
  | .stripReady _ _ => 0
  | .copyQueuePlaceFree _ _ => 0
  | .timerExpiry _ _ => 0
  | .sleepTimeout _ _ => 0
  | .istSwitch _ => 0
  | .coreBank _ => 0
  | .restartEnd _ => 0
  | .publishedBundleArrive _ _ _ => 0
  | .joinRequestArrive _ _ _ => 0
  | .subscrRefusalArrive _ _ => 0
  | .rdvReportArrive _ _ _ => 0
  | .rdvCompletionArrive _ _ _ _ => 0
  | .membershipNoticeArrive _ _ _ _ => 0
  | .publishEndArrive _ _ _ => 0
  | .remoteRequestArrive _ _ => 0
  | .builtinRequestPerform _ => 0
  | .remoteReply _ _ => 0
  | .feWithdrawalArrive _ _ _ => 0
  | .handlerStart _ => 0
  | .pushArrive _ => 0
  | .pushAckArrive _ => 0
  | .pushRefusalArrive _ => 0
  | .stealRequestArrive _ _ => 0
  | .stealAnswerArrive _ _ _ _ => 0
  | .dieQueueRequest _ _ => 0
  | .dqpopPass _ _ => 0
  | .joinCounterUpdate _ _ _ => 0
  | .cancelArrive _ _ _ => 0
  | .cancellComplete _ _ => 0
  | .accumulatorClear _ => 0
  | .mmaStepStart _ => 0
  | .mmaStepRetire _ => 0
  | .matrixOpComplete _ => 0
  | .sequencerIssue _ => 0
  | .sequenceEnd _ => 0
  | .scanTileRow _ => 0
  | .scnfixRow _ => 0
  | .flueMessageArrive _ _ => 0
  | .flueDeferredSend _ => 0
  | .flueOperationComplete _ => 0
  | .copyCommandStart _ _ => 0
  | .copyCommandComplete _ _ => 0
  | .copyRingPushDeferred _ _ => 0
  | .mcastTargetComplete _ _ _ => 0
  | .buffreeCredit _ _ _ => 0
  | .streamRefill _ _ => 0
  | .streamDrain _ _ => 0
  | .portStripArrive _ _ _ _ _ _ _ => 0
  | .messageArrive _ _ _ => 0
  | .mailboxHeldEntry _ _ => 0
  | .uliDeliver _ _ => 0
  | .caddyQuery _ _ _ _ => 0
  | .caddyAnswer _ _ _ _ => 0
  | .pageFault _ _ _ _ _ _ => 0
  | .wakeArrive _ _ => 0
  | .engineEccError _ _ _ _ _ => 0
  | .preemptArrive _ => 0
  | .slot15Restart _ => 0
  | .rankMove _ _ _ => 0
  | .cowCopy _ _ => 0
  | .frameReturn _ => 0
  | .laneSpare _ => 0
  | .flitRetry _ _ => 0
  | .linkFail _ => 0
  | .linkHeal _ => 0
  | .memoryLinkFail _ => 0
  | .cordLinkDrop _ => 0
  | .cordAtomicArrive _ => 0
  | .cordAtomicTimeout _ => 0
  | .cordTransferComplete _ => 0
  | .cbarArrive _ _ _ => 0
  | .saved _ _ _ => 0
  | .restored _ _ _ => 0
  | .gangfail _ _ _ => 0
  | .caddy _ _ _ => 0
  | .cwrite _ _ _ => 0
  | .cread _ _ _ => 0
  | .catom _ _ _ => 0
  | .cbar _ _ _ => 0
  | .sqtailWrite _ _ => 0
  | .entryAccept => 0
  | .sqctlEn _ _ => 0
  | .sqctlRst _ => 0
  | .wake _ => 0
  | .fqcons _ => 0
  | .hubRegisterWrite _ _ => 0
  | .launch _ => 0
  | .gangPlace _ => 0
  | .launchDone _ => 0
  | .copy _ => 0
  | .pgfork _ => 0
  | .cancel _ => 0
  | .kill _ => 0
  | .killDrained _ => 0
  | .queueFence _ => 0
  | .signal _ => 0
  | .cancelFaults _ => 0
  | .preempt _ => 0
  | .resume _ => 0
  | .commandFinish _ _ => 0
  | .hostMemWrite _ _ => 0
  | .hostMemRead _ => 0
  | .powerOn => 0
  | .perst => 0
  | .bringUpStage => 0
  | .rst => 0
  | .svncommit => 0
  | .pwrlimWrite _ => 0
  | .mgmtRegisterWrite _ _ => 0
  | .firmwareImageLoad _ _ _ _ => 0
  | .powerSample _ _ _ => 0
  | .clockStepChange => 0
  | .scrub _ _ => 0
  | .getVersion => 0
  | .getCapabilities => 0
  | .negotiateAlgorithms _ _ => 0
  | .getDigests => 0
  | .getCertificate _ _ _ => 0
  | .challenge _ => 0
  | .getMeasurements _ _ => 0
  | .spdmUnsupportedRequest _ => 0
  | .spdmSignedResponse => 0
  | .unassignedEncoding _ => 0
  | .cowCopyComplete _ _ => 0
  | .scanImageStripWrite _ => 0
  | .replyCacheEntryAge _ => 0
  | .retrainingEnd _ => 0
  | .changeoverEnd _ => 0

/-- The fn values of S major 0x38 (R65). -/
def readMctl (w : Nat) : Option Instr :=
  match fld w 0 6 with
  | 0x00 => if fld w 6 6 = 1 then some (.ringcfgRel (bits w 18 3)) else some (.ringcfg (bits w 18 3) (bits w 12 6))
  | 0x01 => if fld w 6 6 = 1 then some (.ringadvPop (bits w 18 3)) else some (.ringadv (bits w 18 3))
  | 0x02 => some (.ringstat (bits w 18 6) (bits w 12 3) (bits w 6 6))
  | 0x03 => if fld w 6 6 = 1 then some (.mzeroRel (bits w 18 3)) else some (.mzero (bits w 18 3))
  | 0x04 => some (.mload (bits w 21 3) (bits w 18 3) (bits w 12 6) (bits w 6 6))
  | 0x05 => some (.mdrain (bits w 21 3) (bits w 18 3) (bits w 12 6) (bits w 6 6))
  | 0x06 => some (.geomset (bits w 12 6))
  | 0x07 => some (.geommask (bits w 18 3) (bits w 6 1))
  | 0x08 => if fld w 6 6 = 1 then some (.repcapRel) else some (.repcap (bits w 12 6))
  | 0x09 => some (.repgo (bits w 12 6) (bits w 6 6))
  | 0x0A => some (.repwait (bits w 18 6))
  | _ => none

/-- The fn values of S major 0x37 (R65). -/
def readCx (w : Nat) : Option Instr :=
  match fld w 0 6 with
  | 0x00 => if fld w 6 6 = 2 then some (.cxopenRel (bits w 18 3)) else some (.cxopen (bits w 18 3) (bits w 12 6) (bits w 6 1))
  | 0x01 => some (.cxand (bits w 18 3) (bits w 12 6) (bits w 6 6))
  | 0x02 => some (.cxor (bits w 18 3) (bits w 12 6) (bits w 6 6))
  | 0x03 => some (.cxdiff (bits w 18 3) (bits w 12 6) (bits w 6 6))
  | 0x04 => if fld w 15 1 = 1 then some (.cxnextW (bits w 18 6) (bits w 12 3) (bits w 9 3) (bits w 6 3)) else some (.cxnext (bits w 18 6) (bits w 12 3) (bits w 9 3) (bits w 6 3))
  | 0x05 => some (.cxsplit (bits w 18 3) (bits w 12 3) (bits w 6 3))
  | 0x06 => some (.cxsave (bits w 12 3) (bits w 6 6))
  | 0x07 => some (.cxrest (bits w 18 3) (bits w 12 6))
  | 0x08 => some (.cxstat (bits w 18 6) (bits w 12 3) (bits w 6 6))
  | _ => none

/-- The fn values of S major 0x36 (R65). -/
def readScan (w : Nat) : Option Instr :=
  match fld w 0 6 with
  | 0x00 => if fld w 18 6 = 2 then some (.scngrpRel) else some (.scngrp (bits w 18 1) (bits w 12 6) (bits w 6 6))
  | 0x01 => some (.scnop (bits w 12 6))
  | 0x02 => some (.scntile (bits w 12 6))
  | 0x03 => some (.scnxch (bits w 18 6) (bits w 6 1))
  | 0x04 => if fld w 6 6 = 1 then some (.scnfixSt (bits w 12 6)) else some (.scnfix (bits w 12 6))
  | 0x05 => some (.fbar (bits w 18 6))
  | 0x06 => some (.fcomb (bits w 12 6) (bits w 6 1))
  | _ => none

/-- The fn values of S major 0x35 (R65). -/
def readXfer (w : Nat) : Option Instr :=
  match fld w 0 6 with
  | 0x00 => some (.buffree (bits w 12 6))
  | 0x01 => some (.cpyqstat (bits w 18 6) (bits w 6 6))
  | 0x02 => some (.sclose (bits w 18 6))
  | 0x03 => some (.ssave (bits w 18 6) (bits w 12 6))
  | 0x04 => some (.srest (bits w 18 6) (bits w 12 6))
  | _ => none

/-- The fn values of S major 0x34 (R65). -/
def readChan (w : Nat) : Option Instr :=
  match fld w 0 6 with
  | 0x00 => some (.pubon (bits w 18 6))
  | 0x01 => some (.puboff)
  | 0x02 => some (.subscr (bits w 18 6) (bits w 12 6) (bits w 6 1))
  | 0x03 => some (.unsub)
  | 0x04 => some (.unsubp (bits w 12 3))
  | 0x05 => some (.unsubm (bits w 12 3))
  | 0x06 => some (.resub (bits w 18 6) (bits w 12 6))
  | 0x07 => some (.rdv (bits w 18 6) (bits w 12 6))
  | 0x08 => some (.leave)
  | _ => none

/-- The fn values of S major 0x33 (R65). -/
def readTask (w : Nat) : Option Instr :=
  match fld w 0 6 with
  | 0x00 => some (.join (bits w 12 6))
  | 0x01 => some (.taskend)
  | 0x02 => some (.cancell (bits w 18 6) (bits w 12 6))
  | 0x03 => if fld w 6 6 = 2 then some (.pipebindRel (bits w 18 3)) else if fld w 7 5 = 0 then some (.pipebind (bits w 18 3) (bits w 12 6) (bits w 6 1)) else none
  | _ => none

/-- The fn values of S major 0x32 (R65). -/
def readMbox (w : Nat) : Option Instr :=
  match fld w 0 6 with
  | 0x00 => some (.mbpop (bits w 18 6))
  | 0x01 => some (.mbpeek (bits w 18 6))
  | 0x02 => some (.mbcnt (bits w 18 6) (bits w 6 6))
  | _ => none

/-- The fn values of S major 0x31 (R65). -/
def readPriv (w : Nat) : Option Instr :=
  match fld w 0 6 with
  | 0x00 => some (.segld (bits w 18 3) (bits w 12 6))
  | 0x01 => some (.segst (bits w 18 3) (bits w 12 6))
  | 0x02 => some (.istset (bits w 12 6))
  | 0x03 => some (.slotstart (bits w 12 6) (bits w 6 6))
  | 0x04 => if fld w 6 6 = 1 then some (.slotstopResume (bits w 18 6) (bits w 12 6)) else if fld w 6 6 = 2 then some (.slotstopIdle (bits w 18 6) (bits w 12 6)) else some (.slotstopStop (bits w 18 6) (bits w 12 6))
  | 0x05 => if fld w 6 6 = 1 then some (.slotxferWr (bits w 18 6) (bits w 12 6)) else if fld w 6 6 = 2 then some (.slotxferVrd (bits w 18 5) (bits w 12 6)) else if fld w 6 6 = 3 then some (.slotxferVwr (bits w 18 5) (bits w 12 6)) else if fld w 6 6 = 4 then some (.slotxferTq (bits w 18 6)) else if fld w 6 6 = 5 then some (.slotxferDump (bits w 12 6)) else if fld w 6 6 = 6 then some (.slotxferLoad (bits w 12 6)) else some (.slotxferRd (bits w 18 6) (bits w 12 6))
  | 0x06 => some (.hubcmd (bits w 18 6) (bits w 12 6))
  | _ => none

/-- The fn values of S major 0x30 (R65). -/
def readSys (w : Nat) : Option Instr :=
  match fld w 0 6 with
  | 0x00 => some (.yield)
  | 0x01 => some (.sleep (bits w 18 6) (bits w 12 6))
  | 0x02 => some (.waitmsg (bits w 6 1))
  | 0x03 => some (.halt)
  | 0x04 => some (.getid (bits w 18 6) (bits w 12 6))
  | 0x05 => some (.mfs (bits w 18 6) (bits w 12 6))
  | 0x06 => some (.mts (bits w 18 6) (bits w 12 6))
  | 0x07 => some (.trap (bits w 12 6))
  | 0x08 => some (.eret (bits w 12 6))
  | 0x09 => some (.ulion)
  | 0x0A => some (.ulioff)
  | 0x0B => some (.uliret)
  | 0x0C => some (.timerset (bits w 12 6) (bits w 6 1))
  | 0x0D => if fld w 6 6 = 1 then some (.idemEnd) else some (.idem)
  | 0x0E => some (.evcrd (bits w 18 6) (bits w 12 6))
  | 0x0F => some (.evcclr (bits w 12 6))
  | _ => none

/-- The fn values of S major 0x2E (R65). -/
def readCtrl (w : Nat) : Option Instr :=
  match fld w 0 6 with
  | 0x00 => some (.jr (bits w 12 6))
  | 0x01 => some (.callr (bits w 12 6))
  | _ => none

/-- The fn values of S major 0x0B (R65). -/
noncomputable def readPred (w : Nat) : Option Instr :=
  match fld w 0 6 with
  | 0x00 => some (.pand (bits w 18 3) (bits w 12 3) (bits w 6 3))
  | 0x01 => some (.por (bits w 18 3) (bits w 12 3) (bits w 6 3))
  | 0x02 => some (.pxor (bits w 18 3) (bits w 12 3) (bits w 6 3))
  | 0x03 => some (.ptos (bits w 18 6))
  | 0x04 => some (.stop (bits w 12 6))
  | 0x05 => some (.mtos (bits w 18 6) (bits w 12 3))
  | 0x06 => some (.stom (bits w 18 3) (bits w 12 6))
  | 0x07 => some (.vmovs (bits w 18 6) (bits w 12 5) (bits w 6 6))
  | 0x08 => some (.smovv (bits w 18 5) (bits w 12 6) (bits w 6 6))
  | _ => none

/-- The fn values of S major 0x09 (R65). -/
noncomputable def readIdiv (w : Nat) : Option Instr :=
  match fld w 0 6 with
  | 0x00 => some (.div (bits w 18 6) (bits w 12 6) (bits w 6 6))
  | 0x01 => some (.divn (bits w 18 6) (bits w 12 6) (bits w 6 6))
  | 0x02 => some (.rem (bits w 18 6) (bits w 12 6) (bits w 6 6))
  | 0x03 => some (.remn (bits w 18 6) (bits w 12 6) (bits w 6 6))
  | _ => none

/-- The fn values of S major 0x08 (R65). -/
noncomputable def readInt (w : Nat) : Option Instr :=
  match fld w 0 6 with
  | 0x00 => some (.add (bits w 18 6) (bits w 12 6) (bits w 6 6))
  | 0x01 => some (.sub (bits w 18 6) (bits w 12 6) (bits w 6 6))
  | 0x02 => some (.mul (bits w 18 6) (bits w 12 6) (bits w 6 6))
  | 0x03 => some (.mulh (bits w 18 6) (bits w 12 6) (bits w 6 6))
  | 0x04 => some (.mulhn (bits w 18 6) (bits w 12 6) (bits w 6 6))
  | 0x05 => some (.and (bits w 18 6) (bits w 12 6) (bits w 6 6))
  | 0x06 => some (.or (bits w 18 6) (bits w 12 6) (bits w 6 6))
  | 0x07 => some (.xor (bits w 18 6) (bits w 12 6) (bits w 6 6))
  | 0x08 => some (.andn (bits w 18 6) (bits w 12 6) (bits w 6 6))
  | 0x09 => some (.shl (bits w 18 6) (bits w 12 6) (bits w 6 6))
  | 0x0A => some (.shr (bits w 18 6) (bits w 12 6) (bits w 6 6))
  | 0x0B => some (.sra (bits w 18 6) (bits w 12 6) (bits w 6 6))
  | 0x0C => some (.rotr (bits w 18 6) (bits w 12 6) (bits w 6 6))
  | 0x0D => some (.min (bits w 18 6) (bits w 12 6) (bits w 6 6))
  | 0x0E => some (.max (bits w 18 6) (bits w 12 6) (bits w 6 6))
  | 0x0F => some (.minn (bits w 18 6) (bits w 12 6) (bits w 6 6))
  | 0x10 => some (.maxn (bits w 18 6) (bits w 12 6) (bits w 6 6))
  | 0x11 => some (.clz (bits w 18 6) (bits w 12 6))
  | 0x12 => some (.ctz (bits w 18 6) (bits w 12 6))
  | 0x13 => some (.popc (bits w 18 6) (bits w 12 6))
  | 0x14 => some (.brev (bits w 18 6) (bits w 12 6))
  | 0x15 => some (.bext (bits w 18 6) (bits w 12 6) (bits w 6 6))
  | 0x16 => some (.bdep (bits w 18 6) (bits w 12 6) (bits w 6 6))
  | 0x17 => some (.sext (bits w 18 6) (bits w 12 6) (bits w 6 6))
  | 0x18 => some (.zext (bits w 18 6) (bits w 12 6) (bits w 6 6))
  | _ => if fld w 3 3 = 4 then some (.sel (bits w 18 6) (bits w 12 6) (bits w 6 6) (bits w 0 3)) else none

/-- The fields of an S syllable read under its major and fn, whatever its unused fields hold: the reading
that the handle checks of R69 use. `none`: the major or the fn is unassigned (R64, R65). -/
noncomputable def readS (w : Nat) : Option Instr :=
  match fld w 24 8 with
  | 0x51 => some (.wdq (bits w 12 6) (bits w 0 3))
  | 0x50 => some (.sbind (bits w 8 3) (bits w 5 3) (bits w 4 1) (bits w 3 1) (bits w 0 3))
  | 0x4F => some (.scfg (bits w 18 6) (bits w 5 3) (bits w 3 1) (bits w 0 3))
  | 0x4E => some (.mcast (bits w 18 6) (bits w 12 6))
  | 0x4D => some (.cpyt (bits w 18 6))
  | 0x4C => some (.cpys (bits w 18 6))
  | 0x4B => some (.cpyg (bits w 18 6))
  | 0x4A => some (.cpyw (bits w 18 6))
  | 0x49 => some (.cpy (bits w 18 6))
  | 0x48 => some (.steal (bits w 18 6) (bits w 12 6) (bits w 0 3))
  | 0x47 => some (.split (bits w 18 6) (bits w 0 3))
  | 0x46 => some (.dqpushr (bits w 18 6) (bits w 12 6) (bits w 0 3))
  | 0x45 => some (.dqpop (bits w 18 6) (bits w 6 1) (bits w 4 2) (bits w 3 1) (bits w 0 3))
  | 0x44 => some (.forkd (bits w 18 6) (bits w 0 3))
  | 0x43 => some (.fork (bits w 18 6) (bits w 0 3))
  | 0x42 => some (.psende (bits w 18 6))
  | 0x41 => some (.psend (bits w 18 6))
  | 0x40 => some (.send (bits w 18 6) (bits w 12 6) (bits w 4 1) (bits w 0 4))
  | 0x38 => readMctl w
  | 0x37 => readCx w
  | 0x36 => readScan w
  | 0x35 => readXfer w
  | 0x34 => readChan w
  | 0x33 => readTask w
  | 0x32 => readMbox w
  | 0x31 => readPriv w
  | 0x30 => readSys w
  | 0x2E => readCtrl w
  | 0x2D => some (.call (bits w 0 20))
  | 0x2C => some (.bmnz (bits w 20 3) (bits w 0 20))
  | 0x2B => some (.bmz (bits w 20 3) (bits w 0 20))
  | 0x2A => some (.bnc (bits w 20 3) (bits w 0 20))
  | 0x29 => some (.bc (bits w 20 3) (bits w 0 20))
  | 0x28 => some (.br (bits w 0 20))
  | 0x27 => some (.vstx (bits w 18 5) (bits w 12 6) (bits w 9 3) (bits w 8 1) (bits w 3 5) (bits w 0 3))
  | 0x26 => some (.vldx (bits w 18 5) (bits w 12 6) (bits w 9 3) (bits w 8 1) (bits w 3 5) (bits w 0 3))
  | 0x25 => some (.vldb (bits w 18 5) (bits w 12 6) (bits w 9 3) (bits w 0 8))
  | 0x24 => some (.vst (bits w 18 5) (bits w 12 6) (bits w 9 3) (bits w 8 1) (bits w 0 8))
  | 0x23 => some (.vld (bits w 18 5) (bits w 12 6) (bits w 9 3) (bits w 8 1) (bits w 0 8))
  | 0x22 => some (.fetest (bits w 18 3) (bits w 12 6) (bits w 9 3) (bits w 0 8))
  | 0x21 => some (.feclr (bits w 12 6) (bits w 9 3) (bits w 0 8))
  | 0x20 => some (.feset (bits w 12 6) (bits w 9 3) (bits w 0 8))
  | 0x1F => some (.lea (bits w 18 6) (bits w 12 6) (bits w 9 3) (bits w 0 8))
  | 0x1E => some (.stwfill (bits w 18 6) (bits w 12 6) (bits w 9 3) (bits w 8 1) (bits w 0 8))
  | 0x1D => some (.ldwtake (bits w 18 6) (bits w 12 6) (bits w 9 3) (bits w 0 8))
  | 0x1C => some (.ldwsync (bits w 18 6) (bits w 12 6) (bits w 9 3) (bits w 0 8))
  | 0x1B => some (.std (bits w 18 6) (bits w 12 6) (bits w 9 3) (bits w 8 1) (bits w 0 8))
  | 0x1A => some (.stw (bits w 18 6) (bits w 12 6) (bits w 9 3) (bits w 8 1) (bits w 0 8))
  | 0x19 => some (.sth (bits w 18 6) (bits w 12 6) (bits w 9 3) (bits w 8 1) (bits w 0 8))
  | 0x18 => some (.stb (bits w 18 6) (bits w 12 6) (bits w 9 3) (bits w 8 1) (bits w 0 8))
  | 0x16 => some (.ldd (bits w 18 6) (bits w 12 6) (bits w 9 3) (bits w 8 1) (bits w 0 8))
  | 0x15 => some (.ldws (bits w 18 6) (bits w 12 6) (bits w 9 3) (bits w 8 1) (bits w 0 8))
  | 0x14 => some (.ldw (bits w 18 6) (bits w 12 6) (bits w 9 3) (bits w 8 1) (bits w 0 8))
  | 0x13 => some (.ldhs (bits w 18 6) (bits w 12 6) (bits w 9 3) (bits w 8 1) (bits w 0 8))
  | 0x12 => some (.ldh (bits w 18 6) (bits w 12 6) (bits w 9 3) (bits w 8 1) (bits w 0 8))
  | 0x11 => some (.ldbs (bits w 18 6) (bits w 12 6) (bits w 9 3) (bits w 8 1) (bits w 0 8))
  | 0x10 => some (.ldb (bits w 18 6) (bits w 12 6) (bits w 9 3) (bits w 8 1) (bits w 0 8))
  | 0x0F => some (.fencee (bits w 0 3))
  | 0x0E => some (.fence (bits w 0 3))
  | 0x0D => some (.movtk (bits w 12 6) (bits w 0 12))
  | 0x0C => some (.movk (bits w 18 6) (bits w 0 12))
  | 0x0B => readPred w
  | 0x0A => some (.cmp (bits w 21 3) (bits w 18 3) (bits w 12 6) (bits w 6 6))
  | 0x09 => readIdiv w
  | 0x08 => readInt w
  | 0x07 => some (.cmpi (bits w 21 3) (bits w 18 3) (bits w 12 6) (bits w 0 12))
  | 0x06 => some (.srai (bits w 18 6) (bits w 12 6) (bits w 0 6))
  | 0x05 => some (.shri (bits w 18 6) (bits w 12 6) (bits w 0 6))
  | 0x04 => some (.shli (bits w 18 6) (bits w 12 6) (bits w 0 6))
  | 0x03 => some (.xori (bits w 18 6) (bits w 12 6) (bits w 0 12))
  | 0x02 => some (.ori (bits w 18 6) (bits w 12 6) (bits w 0 12))
  | 0x01 => some (.andi (bits w 18 6) (bits w 12 6) (bits w 0 12))
  | 0x00 => some (.addi (bits w 18 6) (bits w 12 6) (bits w 0 12))
  | _ => none

/-- The fields of a V syllable read under its major and fn (R67). -/
def readV (w : Nat) : Option Instr :=
  match fld w 25 7 with
  | 0x00 => some (.vnop)
  | 0x01 =>
    match fld w 0 4 with
    | 0 => some (.vadd (bits w 20 5) (bits w 15 5) (bits w 10 5) (bits w 7 3) (bits w 4 3))
    | 1 => some (.vsub (bits w 20 5) (bits w 15 5) (bits w 10 5) (bits w 7 3) (bits w 4 3))
    | 2 => some (.vmul (bits w 20 5) (bits w 15 5) (bits w 10 5) (bits w 7 3) (bits w 4 3))
    | 3 => some (.vmin (bits w 20 5) (bits w 15 5) (bits w 10 5) (bits w 7 3) (bits w 4 3))
    | 4 => some (.vmax (bits w 20 5) (bits w 15 5) (bits w 10 5) (bits w 7 3) (bits w 4 3))
    | 5 => some (.vabs (bits w 20 5) (bits w 15 5) (bits w 7 3) (bits w 4 3))
    | 6 => some (.vneg (bits w 20 5) (bits w 15 5) (bits w 7 3) (bits w 4 3))
    | 7 => some (.vclass (bits w 20 5) (bits w 15 5) (bits w 7 3) (bits w 4 3))
    | 8 => some (.vrndi (bits w 20 5) (bits w 15 5) (bits w 7 3) (bits w 4 3))
    | _ => none
  | 0x02 =>
    match fld w 0 3 with
    | 0 => some (.vaddScalar (bits w 20 5) (bits w 15 5) (bits w 9 6) (bits w 6 3) (bits w 3 3))
    | 1 => some (.vsubScalar (bits w 20 5) (bits w 15 5) (bits w 9 6) (bits w 6 3) (bits w 3 3))
    | 2 => some (.vmulScalar (bits w 20 5) (bits w 15 5) (bits w 9 6) (bits w 6 3) (bits w 3 3))
    | _ => none
  | 0x03 => some (.vfma (bits w 20 5) (bits w 15 5) (bits w 10 5) (bits w 5 5) (bits w 2 3) (bits w 0 2))
  | 0x04 => some (.vfms (bits w 20 5) (bits w 15 5) (bits w 10 5) (bits w 5 5) (bits w 2 3) (bits w 0 2))
  | 0x05 => some (.vfnma (bits w 20 5) (bits w 15 5) (bits w 10 5) (bits w 5 5) (bits w 2 3) (bits w 0 2))
  | 0x06 =>
    match fld w 0 4 with
    | 0 => some (.vcmpEq (bits w 20 3) (bits w 15 5) (bits w 10 5) (bits w 7 3) (bits w 4 3))
    | 1 => some (.vcmpNe (bits w 20 3) (bits w 15 5) (bits w 10 5) (bits w 7 3) (bits w 4 3))
    | 2 => some (.vcmpLt (bits w 20 3) (bits w 15 5) (bits w 10 5) (bits w 7 3) (bits w 4 3))
    | 3 => some (.vcmpLe (bits w 20 3) (bits w 15 5) (bits w 10 5) (bits w 7 3) (bits w 4 3))
    | 4 => some (.vcmpUn (bits w 20 3) (bits w 15 5) (bits w 10 5) (bits w 7 3) (bits w 4 3))
    | 5 => some (.vcmpOr (bits w 20 3) (bits w 15 5) (bits w 10 5) (bits w 7 3) (bits w 4 3))
    | _ => none
  | 0x07 =>
    match fld w 0 4 with
    | 0 => some (.vcvtF16F32 (bits w 20 5) (bits w 15 5) (bits w 10 5) (bits w 7 3) (bits w 4 3))
    | 1 => some (.vcvtBf16F32 (bits w 20 5) (bits w 15 5) (bits w 10 5) (bits w 7 3) (bits w 4 3))
    | 2 => some (.vcvtF32F16 (bits w 20 5) (bits w 15 5) (bits w 7 3) (bits w 4 3))
    | 3 => some (.vcvtF32Bf16 (bits w 20 5) (bits w 15 5) (bits w 7 3) (bits w 4 3))
    | 4 => some (.vcvtI32F32 (bits w 20 5) (bits w 15 5) (bits w 7 3) (bits w 4 3))
    | 5 => some (.vcvtN32F32 (bits w 20 5) (bits w 15 5) (bits w 7 3) (bits w 4 3))
    | 6 => some (.vcvtF32I32 (bits w 20 5) (bits w 15 5) (bits w 7 3) (bits w 4 3))
    | 7 => some (.vcvtF32N32 (bits w 20 5) (bits w 15 5) (bits w 7 3) (bits w 4 3))
    | _ => none
  | 0x08 =>
    match fld w 0 4 with
    | 0 => some (.vrcp (bits w 20 5) (bits w 15 5) (bits w 7 3) (bits w 4 3))
    | 1 => some (.vrsq (bits w 20 5) (bits w 15 5) (bits w 7 3) (bits w 4 3))
    | 2 => some (.vexp2 (bits w 20 5) (bits w 15 5) (bits w 7 3) (bits w 4 3))
    | 3 => some (.vlog2 (bits w 20 5) (bits w 15 5) (bits w 7 3) (bits w 4 3))
    | 4 => some (.vtanh (bits w 20 5) (bits w 15 5) (bits w 7 3) (bits w 4 3))
    | 5 => some (.vsig (bits w 20 5) (bits w 15 5) (bits w 7 3) (bits w 4 3))
    | _ => none
  | 0x10 =>
    match fld w 0 4 with
    | 0 => some (.vaddi (bits w 20 5) (bits w 15 5) (bits w 10 5) (bits w 7 3) (bits w 4 3))
    | 1 => some (.vsubi (bits w 20 5) (bits w 15 5) (bits w 10 5) (bits w 7 3) (bits w 4 3))
    | 2 => some (.vmuli (bits w 20 5) (bits w 15 5) (bits w 10 5) (bits w 7 3) (bits w 4 3))
    | 3 => some (.vmulhi (bits w 20 5) (bits w 15 5) (bits w 10 5) (bits w 7 3) (bits w 4 3))
    | 4 => some (.vmini (bits w 20 5) (bits w 15 5) (bits w 10 5) (bits w 7 3) (bits w 4 3))
    | 5 => some (.vmaxi (bits w 20 5) (bits w 15 5) (bits w 10 5) (bits w 7 3) (bits w 4 3))
    | 6 => some (.vabsdi (bits w 20 5) (bits w 15 5) (bits w 10 5) (bits w 7 3) (bits w 4 3))
    | 7 => some (.vand (bits w 20 5) (bits w 15 5) (bits w 10 5) (bits w 7 3) (bits w 4 3))
    | 8 => some (.vor (bits w 20 5) (bits w 15 5) (bits w 10 5) (bits w 7 3) (bits w 4 3))
    | 9 => some (.vxor (bits w 20 5) (bits w 15 5) (bits w 10 5) (bits w 7 3) (bits w 4 3))
    | 10 => some (.vnot (bits w 20 5) (bits w 15 5) (bits w 7 3) (bits w 4 3))
    | 11 => some (.vshl (bits w 20 5) (bits w 15 5) (bits w 10 5) (bits w 7 3) (bits w 4 3))
    | 12 => some (.vshr (bits w 20 5) (bits w 15 5) (bits w 10 5) (bits w 7 3) (bits w 4 3))
    | 13 => some (.vsra (bits w 20 5) (bits w 15 5) (bits w 10 5) (bits w 7 3) (bits w 4 3))
    | 14 => some (.vrshr (bits w 20 5) (bits w 15 5) (bits w 10 5) (bits w 7 3) (bits w 4 3))
    | _ => none
  | 0x11 =>
    match fld w 0 4 with
    | 0 => some (.vaddiSat (bits w 20 5) (bits w 15 5) (bits w 10 5) (bits w 7 3) (bits w 4 3))
    | 1 => some (.vsubiSat (bits w 20 5) (bits w 15 5) (bits w 10 5) (bits w 7 3) (bits w 4 3))
    | _ => none
  | 0x12 =>
    match fld w 0 3 with
    | 0 => some (.vaddiScalar (bits w 20 5) (bits w 15 5) (bits w 9 6) (bits w 6 3) (bits w 3 3))
    | 1 => some (.vsubiScalar (bits w 20 5) (bits w 15 5) (bits w 9 6) (bits w 6 3) (bits w 3 3))
    | 2 => some (.vmuliScalar (bits w 20 5) (bits w 15 5) (bits w 9 6) (bits w 6 3) (bits w 3 3))
    | 3 => some (.vminiScalar (bits w 20 5) (bits w 15 5) (bits w 9 6) (bits w 6 3) (bits w 3 3))
    | 4 => some (.vmaxiScalar (bits w 20 5) (bits w 15 5) (bits w 9 6) (bits w 6 3) (bits w 3 3))
    | _ => none
  | 0x13 =>
    match fld w 0 3 with
    | 0 => some (.vshlImm (bits w 20 5) (bits w 15 5) (bits w 9 6) (bits w 6 3) (bits w 3 3))
    | 1 => some (.vshrImm (bits w 20 5) (bits w 15 5) (bits w 9 6) (bits w 6 3) (bits w 3 3))
    | 2 => some (.vsraImm (bits w 20 5) (bits w 15 5) (bits w 9 6) (bits w 6 3) (bits w 3 3))
    | 3 => some (.vrshrImm (bits w 20 5) (bits w 15 5) (bits w 9 6) (bits w 6 3) (bits w 3 3))
    | _ => none
  | 0x14 =>
    match fld w 0 4 with
    | 0 => some (.vmac2 (bits w 20 5) (bits w 15 5) (bits w 10 5) (bits w 7 3) (bits w 4 3))
    | 1 => some (.vmac2Sat (bits w 20 5) (bits w 15 5) (bits w 10 5) (bits w 7 3) (bits w 4 3))
    | _ => none
  | 0x15 =>
    match fld w 0 4 with
    | 0 => some (.vdot4 (bits w 20 5) (bits w 15 5) (bits w 10 5) (bits w 7 3) (bits w 4 3))
    | 1 => some (.vdot4Sat (bits w 20 5) (bits w 15 5) (bits w 10 5) (bits w 7 3) (bits w 4 3))
    | _ => none
  | 0x16 => if fld w 0 4 = 0 then some (.vsatn (bits w 20 5) (bits w 15 5) (bits w 10 5) (bits w 7 3) (bits w 4 3)) else none
  | 0x17 =>
    match fld w 0 4 with
    | 0 => some (.vwidenLo (bits w 20 5) (bits w 15 5) (bits w 7 3) (bits w 4 3))
    | 1 => some (.vwidenHi (bits w 20 5) (bits w 15 5) (bits w 7 3) (bits w 4 3))
    | _ => none
  | 0x18 =>
    match fld w 0 4 with
    | 0 => some (.vcmpiEq (bits w 20 3) (bits w 15 5) (bits w 10 5) (bits w 7 3) (bits w 4 3))
    | 1 => some (.vcmpiNe (bits w 20 3) (bits w 15 5) (bits w 10 5) (bits w 7 3) (bits w 4 3))
    | 2 => some (.vcmpiLt (bits w 20 3) (bits w 15 5) (bits w 10 5) (bits w 7 3) (bits w 4 3))
    | 3 => some (.vcmpiLe (bits w 20 3) (bits w 15 5) (bits w 10 5) (bits w 7 3) (bits w 4 3))
    | _ => none
  | 0x19 =>
    match fld w 0 4 with
    | 0 => some (.vpopc (bits w 20 5) (bits w 15 5) (bits w 7 3) (bits w 4 3))
    | 1 => some (.vprepop (bits w 20 5) (bits w 15 5) (bits w 7 3) (bits w 4 3))
    | 2 => some (.vclz (bits w 20 5) (bits w 15 5) (bits w 7 3) (bits w 4 3))
    | _ => none
  | 0x20 =>
    match fld w 0 3 with
    | 0 => some (.vslideUp (bits w 20 5) (bits w 15 5) (bits w 9 6) (bits w 6 3))
    | 1 => some (.vslideDn (bits w 20 5) (bits w 15 5) (bits w 9 6) (bits w 6 3))
    | _ => none
  | 0x21 =>
    match fld w 0 4 with
    | 0 => some (.vperm (bits w 20 5) (bits w 15 5) (bits w 10 5) (bits w 7 3))
    | 1 => some (.vcmprs (bits w 20 5) (bits w 15 5) (bits w 7 3))
    | 2 => some (.vexpnd (bits w 20 5) (bits w 15 5) (bits w 7 3))
    | 3 => some (.viota (bits w 20 5) (bits w 7 3))
    | 4 => some (.vselv (bits w 20 5) (bits w 15 5) (bits w 10 5) (bits w 7 3))
    | 5 => some (.vmov (bits w 20 5) (bits w 15 5) (bits w 7 3))
    | _ => none
  | 0x22 => if fld w 0 3 = 0 then some (.vbcast (bits w 20 5) (bits w 9 6) (bits w 6 3)) else none
  | 0x23 =>
    match fld w 0 4 with
    | 0 => some (.vredAddInt (bits w 20 5) (bits w 15 5) (bits w 7 3) (bits w 4 3))
    | 1 => some (.vredMinInt (bits w 20 5) (bits w 15 5) (bits w 7 3) (bits w 4 3))
    | 2 => some (.vredMaxInt (bits w 20 5) (bits w 15 5) (bits w 7 3) (bits w 4 3))
    | 8 => some (.vredAddFloat (bits w 20 5) (bits w 15 5) (bits w 7 3) (bits w 4 3))
    | 9 => some (.vredMinFloat (bits w 20 5) (bits w 15 5) (bits w 7 3) (bits w 4 3))
    | 10 => some (.vredMaxFloat (bits w 20 5) (bits w 15 5) (bits w 7 3) (bits w 4 3))
    | _ => none
  | 0x24 =>
    match fld w 0 4 with
    | 0 => some (.vscaniAddInt (bits w 20 5) (bits w 15 5) (bits w 7 3) (bits w 4 3))
    | 1 => some (.vscaniMaxInt (bits w 20 5) (bits w 15 5) (bits w 7 3) (bits w 4 3))
    | 8 => some (.vscaniAddFloat (bits w 20 5) (bits w 15 5) (bits w 7 3) (bits w 4 3))
    | _ => none
  | 0x28 => if fld w 0 4 = 0 then some (.vqnt (bits w 20 5) (bits w 15 5) (bits w 10 5) (bits w 7 3) (bits w 4 3)) else none
  | 0x29 => if fld w 0 4 = 0 then some (.vdqnt (bits w 20 5) (bits w 15 5) (bits w 10 5) (bits w 7 3) (bits w 4 3)) else none
  | 0x2A =>
    match fld w 0 4 with
    | 0 => some (.vtopk (bits w 20 5) (bits w 15 5) (bits w 10 5) (bits w 7 3) (bits w 4 3))
    | 1 => some (.vtopkNz (bits w 20 5) (bits w 15 5) (bits w 10 5) (bits w 7 3) (bits w 4 3))
    | _ => none
  | 0x30 =>
    match fld w 0 4 with
    | 0 => some (.mand (bits w 20 3) (bits w 15 3) (bits w 10 3))
    | 1 => some (.mor (bits w 20 3) (bits w 15 3) (bits w 10 3))
    | 2 => some (.mxor (bits w 20 3) (bits w 15 3) (bits w 10 3))
    | 3 => some (.mnot (bits w 20 3) (bits w 15 3))
    | 4 => some (.mset (bits w 20 3) (bits w 10 10))
    | _ => none
  | 0x40 => some (.mma (bits w 22 3) (bits w 19 3) (bits w 16 3) (bits w 15 1) (bits w 14 1) (bits w 13 1) (bits w 12 1))
  | _ => none

/-- The fields of a long-form bundle (R66). -/
def readL (w : Nat) : Option Instr :=
  match fld w 24 8 with
  | 0x80 => some (.movl (bits w 18 6) (bits w 32 32))
  | 0x81 => some (.movhi (bits w 18 6) (bits w 32 32))
  | 0x90 => some (.amoadd (bits w 18 6) (bits w 12 6) (bits w 6 6) (bits w 3 3) (bits w 55 3) (bits w 53 2) (bits w 52 1) (bits w 51 1) (bits w 32 19))
  | 0x91 => some (.amoand (bits w 18 6) (bits w 12 6) (bits w 6 6) (bits w 3 3) (bits w 55 3) (bits w 53 2) (bits w 52 1) (bits w 51 1) (bits w 32 19))
  | 0x92 => some (.amoor (bits w 18 6) (bits w 12 6) (bits w 6 6) (bits w 3 3) (bits w 55 3) (bits w 53 2) (bits w 52 1) (bits w 51 1) (bits w 32 19))
  | 0x93 => some (.amoxor (bits w 18 6) (bits w 12 6) (bits w 6 6) (bits w 3 3) (bits w 55 3) (bits w 53 2) (bits w 52 1) (bits w 51 1) (bits w 32 19))
  | 0x94 => some (.amomin (bits w 18 6) (bits w 12 6) (bits w 6 6) (bits w 3 3) (bits w 55 3) (bits w 53 2) (bits w 52 1) (bits w 51 1) (bits w 32 19))
  | 0x95 => some (.amomax (bits w 18 6) (bits w 12 6) (bits w 6 6) (bits w 3 3) (bits w 55 3) (bits w 53 2) (bits w 52 1) (bits w 51 1) (bits w 32 19))
  | 0x96 => some (.amominn (bits w 18 6) (bits w 12 6) (bits w 6 6) (bits w 3 3) (bits w 55 3) (bits w 53 2) (bits w 52 1) (bits w 51 1) (bits w 32 19))
  | 0x97 => some (.amomaxn (bits w 18 6) (bits w 12 6) (bits w 6 6) (bits w 3 3) (bits w 55 3) (bits w 53 2) (bits w 52 1) (bits w 51 1) (bits w 32 19))
  | 0x98 => some (.amoswap (bits w 18 6) (bits w 12 6) (bits w 6 6) (bits w 3 3) (bits w 55 3) (bits w 53 2) (bits w 52 1) (bits w 51 1) (bits w 32 19))
  | 0x99 => some (.amocas (bits w 18 6) (bits w 12 6) (bits w 6 6) (bits w 3 3) (bits w 58 6) (bits w 55 3) (bits w 53 2) (bits w 52 1) (bits w 51 1) (bits w 32 19))
  | _ => none

/-- A reading stands only when the word is exactly the encoding of a well-formed instruction (R68). -/
def exactly (w : Nat) (r : Option Instr) : Option Instr :=
  match r with
  | some i => if encode i = w && i.wf then some i else none
  | none => none

/-- The instruction an S syllable holds (R68). -/
noncomputable def decodeS (w : Nat) : Option Instr := exactly w (readS w)

/-- The instruction a V syllable holds (R68). -/
def decodeV (w : Nat) : Option Instr := exactly w (readV w)

/-- The instruction a long-form bundle holds (R66, R68). -/
def decodeL (w : Nat) : Option Instr := exactly w (readL w)

/-- What a 64-bit bundle holds (R56): a long S instruction, or an S and a V syllable, each decoded or not. -/
inductive Bundle where
  | long (i : Option Instr)
  | pair (si vi : Option Instr)
  deriving DecidableEq, Repr

/-- Bit 31 of the S syllable is L (R56). -/
noncomputable def decodeBundle (w : Nat) : Bundle :=
  if fld w 31 1 = 1 then .long (decodeL w)
  else .pair (decodeS (fld w 0 32)) (decodeV (fld w 32 32))

/-- The bundle that holds one instruction alone: an S syllable beside VNOP, a V syllable beside NOP, or a
long-form word (R56, R74). -/
def bundleOf (i : Instr) : Nat :=
  match i.kind with
  | .short | .long => encode i
  | .vector => encode i * 0x100000000
  | .event => 0

/-- The bundle a table word stands for. The table numbers the bits of a row relative to its syllable (R58,
R60) and does not say which syllable: a word of up to 32 bits is taken as the S syllable where it is one, and
as the V syllable where it is not (log entry 10); a wider word is the bundle itself. -/
noncomputable def tableBundle (nbits w : Nat) : Nat :=
  if nbits ≤ 32 then
    match decodeS w with
    | some _ => w
    | none =>
      match decodeV w with
      | some _ => w * 0x100000000
      | none => w
  else w

/-- The instruction a bundle holds beside NOP or VNOP. -/
def soleInstr (b : Bundle) : Option Instr :=
  match b with
  | .long i => i
  | .pair (some i) (some .vnop) => some i
  | .pair (some (.addi 0 0 0)) (some j) => some j
  | .pair _ _ => none

/-- The instruction the decoder reads from a row's bits (log entry 10). -/
noncomputable def decodeTableWord (nbits w : Nat) : Option Instr := soleInstr (decodeBundle (tableBundle nbits w))

end Sys2Proof
end

