-- ==== Sys2Proof/Machine/Bits.lean ====
section
/-! DEFINITION. Integers of R31 to R33, elements of a vector register (R31, R108) and little-endian bytes. -/

namespace Sys2Proof.Machine

/-- The signed reading of the low `w` bits of a number (R31). -/
def sgn (w x : Nat) : Int :=
  let y := x % 2 ^ w
  if 2 * y < 2 ^ w then (y : Int) else (y : Int) - (2 ^ w : Nat)

/-- The low `w` bits of an exact integer (R8, R32). -/
def wrap (w : Nat) (x : Int) : Nat := (x % ((2 ^ w : Nat) : Int)).toNat

/-- A number of a type: signed for an even code, unsigned for an odd one (R61). -/
def rdInt (signed : Bool) (w x : Nat) : Int := if signed then sgn w x else ((x % 2 ^ w : Nat) : Int)

/-- SatI (R32): the clamped value, and whether it clamped. -/
def satI (w : Nat) (x : Int) : Int × Bool :=
  if x > 2 ^ (w - 1) - 1 then (2 ^ (w - 1) - 1, true)
  else if x < -(2 ^ (w - 1)) then (-(2 ^ (w - 1)), true)
  else (x, false)

/-- SatN (R32): the clamped value, and whether it clamped. -/
def satN (w : Nat) (x : Int) : Int × Bool :=
  if x > 2 ^ w - 1 then (2 ^ w - 1, true) else if x < 0 then (0, true) else (x, false)

/-- SatI or SatN by the type's signedness (R32). -/
def satT (signed : Bool) (w : Nat) (x : Int) : Int × Bool := if signed then satI w x else satN w x

/-- RShrRnd (R33). -/
def rshrRnd (x : Int) (n : Nat) : Int := if n = 0 then x else (x + 2 ^ (n - 1)) / 2 ^ n

/-- The number with value `f k` in field `k` of width `w`, for k below `n`. -/
def packN (w : Nat) (f : Nat → Nat) : Nat → Nat
  | 0 => 0
  | k + 1 => packN w f k + f k % 2 ^ w * 2 ^ (w * k)

/-- Element `k` of width `w` of a vector register (R31). -/
def VReg.elem (v : VReg) (w k : Nat) : Nat := v.toNat / 2 ^ (w * k) % 2 ^ w

/-- Lane `j` of a vector register (R30). -/
def VReg.lane (v : VReg) (j : Nat) : W32 := BitVec.ofNat 32 (v.toNat / 2 ^ (32 * j))

/-- The vector register whose elements of width `w` are `f k`. -/
def VReg.ofElems (w : Nat) (f : Nat → Nat) : VReg := BitVec.ofNat 1024 (packN w f (1024 / w))

/-- The vector register with the lanes of `f`. -/
def VReg.ofLanes (f : Nat → W32) : VReg := VReg.ofElems 32 (fun j => (f j).toNat)

/-- Whether element `k` of width `w` is active under a mask (R108). -/
def active (m : W32) (w k : Nat) : Bool :=
  if w = 64 then m.getLsbD (2 * k) else m.getLsbD (w * k / 32)

/-- Whether any element of width `w` is active under a mask (R70, R108). -/
def anyActive (m : W32) (w : Nat) : Bool :=
  if w = 64 then (m &&& 0x55555555#32) != 0#32 else m != 0#32

/-- The number of 1 bits among the low `n` bits. -/
def popcount (x : Nat) : Nat → Nat
  | 0 => 0
  | n + 1 => popcount x n + x / 2 ^ n % 2

/-- The number of leading zeros of the low `n` bits. -/
def clzN (x : Nat) : Nat → Nat
  | 0 => 0
  | n + 1 => if x / 2 ^ n % 2 = 1 then 0 else clzN x n + 1

/-- The number of trailing zeros of a number of `n` bits, counted from bit `k`. -/
def ctzFrom (x k : Nat) : Nat → Nat
  | 0 => 0
  | n + 1 => if x / 2 ^ k % 2 = 1 then 0 else ctzFrom x (k + 1) n + 1

/-- The first `n` numbers `lo`, `lo + step`, and so on. -/
def steps (lo step : Nat) : Nat → List Nat
  | 0 => []
  | n + 1 => lo :: steps (lo + step) step n

end Sys2Proof.Machine
end

