-- ==== Sys2Proof/Machine/Float.lean ====
section
/-! DEFINITION. Floating formats, exact values, Round, and the flags it raises (R34 to R38, R53, R54). -/

namespace Sys2Proof.Machine

/-- A floating format: exponent and fraction widths (R34). -/
structure Fmt where
  eb : Nat
  fb : Nat
  deriving DecidableEq, Repr

/-- binary32 (R34). -/
def Fmt.f32 : Fmt := ⟨8, 23⟩
/-- binary16 (R34). -/
def Fmt.f16 : Fmt := ⟨5, 10⟩
/-- BF16 (R34). -/
def Fmt.bf16 : Fmt := ⟨8, 7⟩
/-- The exponent bias (R34). -/
def Fmt.bias (F : Fmt) : Nat := 2 ^ (F.eb - 1) - 1
/-- The width in bits (R34). -/
def Fmt.width (F : Fmt) : Nat := 1 + F.eb + F.fb
/-- The bits of +∞. -/
def Fmt.inf (F : Fmt) : Nat := (2 ^ F.eb - 1) * 2 ^ F.fb
/-- The canonical NaN (R35). -/
def Fmt.qnan (F : Fmt) : Nat := F.inf + 2 ^ (F.fb - 1)
/-- The sign bit. -/
def Fmt.sign (F : Fmt) (neg : Bool) : Nat := if neg then 2 ^ (F.eb + F.fb) else 0
/-- The least exponent of a normal number. -/
def Fmt.emin (F : Fmt) : Int := 1 - (F.bias : Int)

/-- An exact value: NaN, an infinity, or ±m × 2^e (zero keeps its sign) (R37). -/
inductive Fv where
  | nan
  | inf (neg : Bool)
  | fin (neg : Bool) (m : Nat) (e : Int)
  deriving DecidableEq, Repr

/-- A rounding mode (R36). -/
inductive RMode where
  | rne
  | rz
  | rdn
  | rup
  deriving DecidableEq, Repr

/-- What one result element raises: the flags of STICKY, and whether a NaN was generated (R53, R54). -/
structure Flg where
  sat : Bool := false
  ovf : Bool := false
  nan : Bool := false
  inf : Bool := false
  ufl : Bool := false
  bx : Bool := false
  gen : Bool := false
  deriving DecidableEq, Repr

/-- The flags of several roundings of one element together (R54). -/
def Flg.or (a b : Flg) : Flg :=
  ⟨a.sat || b.sat, a.ovf || b.ovf, a.nan || b.nan, a.inf || b.inf, a.ufl || b.ufl, a.bx || b.bx, a.gen || b.gen⟩

/-- The STICKY bits of an element's flags (R27). -/
def Flg.bits (a : Flg) : W64 :=
  BitVec.ofNat 64 (a.sat.toNat + a.ovf.toNat * 2 + a.nan.toNat * 4 + a.inf.toNat * 8 + a.ufl.toNat * 16
    + a.bx.toNat * 32)

/-- The value of an element's bits (R34, R35). -/
def Fmt.val (F : Fmt) (x : Nat) : Fv :=
  let f := x % 2 ^ F.fb
  let e := x / 2 ^ F.fb % 2 ^ F.eb
  let neg := x / 2 ^ (F.fb + F.eb) % 2 = 1
  if e = 2 ^ F.eb - 1 then (if f = 0 then .inf neg else .nan)
  else if e = 0 then .fin neg f (F.emin - F.fb)
  else .fin neg (2 ^ F.fb + f) ((e : Int) - F.bias - F.fb)

/-- Whether a value is a NaN. -/
def Fv.isNan : Fv → Bool
  | .nan => true
  | _ => false

/-- Whether a value is an infinity. -/
def Fv.isInf : Fv → Bool
  | .inf _ => true
  | _ => false

/-- The negated value. -/
def Fv.neg : Fv → Fv
  | .nan => .nan
  | .inf n => .inf (!n)
  | .fin n m e => .fin (!n) m e

/-- A signed multiple of a power of two, as a value; `z` is the sign of an exact zero. -/
def Fv.ofInt (x : Int) (e : Int) (z : Bool) : Fv :=
  if x = 0 then .fin z 0 0 else .fin (x < 0) x.natAbs e

/-- The signed magnitude of ±m × 2^e as a multiple of 2^e0, for e0 ≤ e. -/
def scaleTo (n : Bool) (m : Nat) (e e0 : Int) : Int :=
  let k : Nat := m * 2 ^ (e - e0).toNat
  if n then -(k : Int) else k

/-- The exact sum (R35): an exact zero sum of operands of opposite sign is +0, or −0 under .rdn. -/
def Fv.add (mode : RMode) : Fv → Fv → Fv
  | .nan, _ => .nan
  | _, .nan => .nan
  | .inf a, .inf b => if a = b then .inf a else .nan
  | .inf a, .fin _ _ _ => .inf a
  | .fin _ _ _, .inf b => .inf b
  | .fin na ma ea, .fin nb mb eb =>
    let e := min ea eb
    .ofInt (scaleTo na ma ea e + scaleTo nb mb eb e) e (if na = nb then na else mode = .rdn)

/-- The exact product (R35). -/
def Fv.mul : Fv → Fv → Fv
  | .nan, _ => .nan
  | _, .nan => .nan
  | .inf a, .inf b => .inf (a != b)
  | .inf a, .fin b m _ => if m = 0 then .nan else .inf (a != b)
  | .fin a m _, .inf b => if m = 0 then .nan else .inf (a != b)
  | .fin a m e, .fin b n f => .fin (a != b) (m * n) (e + f)

/-- Whether a quotient of `m` by 2^d rounds up in magnitude: `odd` is the parity of the floor. -/
def roundUp (mode : RMode) (neg : Bool) (odd : Bool) (rem half2 : Nat) : Bool :=
  match mode with
  | .rne => 2 * rem > half2 || (2 * rem = half2 && odd)
  | .rz => false
  | .rdn => neg && rem != 0
  | .rup => !neg && rem != 0

/-- ±m × 2^e rounded to a multiple of 2^q: the multiple's magnitude, and whether it is inexact. -/
def roundTo (mode : RMode) (neg : Bool) (m : Nat) (e q : Int) : Nat × Bool :=
  if q ≤ e then (m * 2 ^ (e - q).toNat, false)
  else
    let d := (q - e).toNat
    let k := m / 2 ^ d
    let rem := m % 2 ^ d
    (if roundUp mode neg (k % 2 = 1) rem (2 ^ d) then k + 1 else k, rem != 0)

/-- The overflow result of a mode (R36). -/
def overflowBits (F : Fmt) (mode : RMode) (neg : Bool) : Nat × Bool :=
  let toInf := match mode with
    | .rne => true
    | .rz => false
    | .rdn => neg
    | .rup => !neg
  (F.sign neg + (if toInf then F.inf else F.inf - 1), toInf)

/-- Round (R37): the result's bits and the flags raised by rounding alone. -/
def Fmt.round (F : Fmt) (mode : RMode) : Fv → Nat × Flg
  | .nan => (F.qnan, {})
  | .inf n => (F.sign n + F.inf, {})
  | .fin n m e =>
    if m = 0 then (F.sign n, {})
    else
      let top := e + m.log2
      let q := max (top - F.fb) (F.emin - F.fb)
      let r := roundTo mode n m e q
      let k := if r.1 = 2 ^ (F.fb + 1) then 2 ^ F.fb else r.1
      let q' := if r.1 = 2 ^ (F.fb + 1) then q + 1 else q
      let tiny : Flg := { ufl := top < F.emin && r.2 }
      if k < 2 ^ F.fb then (F.sign n + k, tiny)
      else
        let be := (q' + F.fb + F.bias).toNat
        if be ≥ 2 ^ F.eb - 1 then
          let o := overflowBits F mode n
          (o.1, { ovf := true, inf := o.2 })
        else (F.sign n + be * 2 ^ F.fb + (k - 2 ^ F.fb), tiny)

/-- A result with every flag of R53: `ops` are its operands, `x` its exact value. -/
def Fmt.result (F : Fmt) (mode : RMode) (ops : List Fv) (x : Fv) : Nat × Flg :=
  let r := F.round mode x
  let y := F.val r.1
  let met := ops.any Fv.isNan
  (r.1, { r.2 with
    inf := y.isInf && !ops.any Fv.isInf
    nan := met || y.isNan
    gen := y.isNan && !met })

/-- A value rounded to an integer in a mode; NaN and infinities have none (R38). -/
def Fv.toInt (mode : RMode) : Fv → Option Int
  | .fin n m e => some (let k := (roundTo mode n m e 0).1; if n then -(k : Int) else k)
  | _ => none

/-- Conversion to an integer of `w` bits (R38): NaN gives 0 with SAT, ±∞ saturate. -/
def Fv.toSat (mode : RMode) (signed : Bool) (w : Nat) (x : Fv) : Nat × Flg :=
  match x with
  | .nan => (0, { sat := true, nan := true })
  | .inf n => (wrap w (satT signed w (if n then -(2 ^ w) else 2 ^ w)).1, { sat := true })
  | .fin _ _ _ =>
    let r := satT signed w ((x.toInt mode).getD 0)
    (wrap w r.1, { sat := r.2 })

/-- An integer as an exact value. -/
def Fv.int (x : Int) : Fv := .ofInt x 0 false

/-- Whether one number is less than another, −0 = +0; false with a NaN (R116). -/
def Fv.lt : Fv → Fv → Bool
  | .nan, _ => false
  | _, .nan => false
  | .inf a, .inf b => a && !b
  | .inf a, .fin _ _ _ => a
  | .fin _ _ _, .inf b => !b
  | .fin na ma ea, .fin nb mb eb =>
    let e := min ea eb
    scaleTo na ma ea e < scaleTo nb mb eb e

/-- Whether two numbers are equal, −0 = +0; false with a NaN (R116). -/
def Fv.eq (a b : Fv) : Bool := !a.isNan && !b.isNan && !a.lt b && !b.lt a

/-- The sign of a value, zeros included. -/
def Fv.isNeg : Fv → Bool
  | .nan => false
  | .inf n => n
  | .fin n _ _ => n

/-- Less, with −0 less than +0 (R114). -/
def Fv.ltz (a b : Fv) : Bool := a.lt b || (a.eq b && a.isNeg && !b.isNeg)

/-- The lesser and the greater of R114, of elements given by their bits. -/
def Fmt.minMax (F : Fmt) (isMax : Bool) (x y : Nat) : Nat × Flg :=
  let a := F.val x
  let b := F.val y
  if a.isNan || b.isNan then (F.qnan, { nan := true })
  else (if (if isMax then b.ltz a else a.ltz b) then x else y, {})

end Sys2Proof.Machine
end

