-- ==== Sys2Proof/Machine/Mem.lean ====
section
/-! DEFINITION. Memory as a list of address and byte pairs in one canonical form, sorted tables, and vectors read and
written at a Nat index. -/

namespace Sys2Proof.Machine

/-- What a byte that no entry lists reads as: 0 in the local store and in HBM, as bring-up leaves them (R20, R386); in
host memory a choice of the model (log entry 4). -/
def Memory.default : Byte := 0

/-- The canonical form: addresses strictly rising, no entry equal to the default. -/
def Memory.wf : List Host.Cell → Bool
  | [] => true
  | [c] => c.2 != Memory.default
  | c :: d :: m => c.2 != Memory.default && c.1 < d.1 && Memory.wf (d :: m)

/-- The byte at an address. -/
def Memory.get : List Host.Cell → Nat → Byte
  | [], _ => Memory.default
  | c :: m, a => if c.1 = a then c.2 else if a < c.1 then Memory.default else Memory.get m a

/-- Writes one byte, keeping the canonical form. -/
def Memory.put : List Host.Cell → Nat → Byte → List Host.Cell
  | [], a, b => if b = Memory.default then [] else [(a, b)]
  | c :: m, a, b =>
    if c.1 = a then (if b = Memory.default then m else (a, b) :: m)
    else if a < c.1 then (if b = Memory.default then c :: m else (a, b) :: c :: m)
    else c :: Memory.put m a b

/-- The `n` bytes from `a` upwards, little-endian (R19). -/
def Memory.read (m : List Host.Cell) (a : Nat) : Nat → Nat
  | 0 => 0
  | n + 1 => (Memory.get m a).toNat + 256 * Memory.read m (a + 1) n

/-- Stores the low `n` bytes of `x` at `a`, little-endian (R19). -/
def Memory.write (m : List Host.Cell) (a : Nat) : Nat → Nat → List Host.Cell
  | 0, _ => m
  | n + 1, x => Memory.write (Memory.put m a (BitVec.ofNat 8 x)) (a + 1) n (x / 256)

/-- Adds a number to a rising list. -/
def insertNat (k : Nat) : List Nat → List Nat
  | [] => [k]
  | a :: l => if k < a then k :: a :: l else if k = a then a :: l else a :: insertNat k l

/-- The entry of a key, or a default. -/
def tget {α : Type} (d : α) (k : Nat) : List (Nat × α) → α
  | [] => d
  | e :: l => if e.1 = k then e.2 else tget d k l

/-- Sets the entry of a key, keeping the keys in rising order. -/
def tput {α : Type} (k : Nat) (x : α) : List (Nat × α) → List (Nat × α)
  | [] => [(k, x)]
  | e :: l => if e.1 = k then (k, x) :: l else if k < e.1 then (k, x) :: e :: l else e :: tput k x l

/-- Whether a table has an entry of a key. -/
def thas {α : Type} (k : Nat) (l : List (Nat × α)) : Bool := l.any fun e => e.1 = k

/-- Drops the entry of a key. -/
def tdel {α : Type} (k : Nat) (l : List (Nat × α)) : List (Nat × α) := l.filter fun e => e.1 != k

/-- Element `i` of a vector, or a default. -/
def vget {α : Type} {n : Nat} (v : Vector α n) (i : Nat) (d : α) : α := v.toList.getD i d

/-- A vector with element `i` set, unchanged past its end. -/
def vset {α : Type} {n : Nat} (v : Vector α n) (i : Nat) (x : α) : Vector α n := v.setIfInBounds i x

end Sys2Proof.Machine
end

