-- ==== Sys2Proof/Config.lean ====
section
/-! DEFINITION. What the spec leaves open: free values with no body, applied to operands or to the
counter that State holds. No proof can see a value of any of them. -/

namespace Sys2Proof.Config

/-- A free number for each value of State's counter: latencies within their bounds, choices the spec
leaves to the device (R232, R265, R285, R316). Log entry 3. -/
opaque free : Nat → Nat

/-- The .f32 result the device gives a special function within its error bound (R118): function
number and operand. Log entry 5. -/
opaque special : Nat → BitVec 32 → BitVec 32

/-- The entry of slot 15's firmware, whose image the spec does not give (R327, R328, R386). Log entry 8. -/
opaque firmwareEntry : BitVec 64

/-- The code segment of slot 15's firmware. Log entry 8. -/
opaque firmwareSeg : BitVec 128

/-- The positions the placer chooses (R355): launch number and rank give a free core index. Log entry 6. -/
opaque place : Nat → Nat → Nat

/-- The base of a context save area, in units of 64 KiB (R335). Log entry 7. -/
opaque saveBase : Nat → Nat

/-- Bytes whose content the spec leaves open: HID's revision (R372), what another
package supplies (R380, R383), the lanes of some links (R361). Log entries 9, 14 and 88. -/
opaque freeByte : Nat → BitVec 8

/-- The 64-byte SHAKE256 digest of a content that the spec does not give, named by numbers (R389, R390). Log entry 131. -/
opaque digest : List Nat → BitVec 512

/-- The fused key digest, and the debug-lock bit (R388, R389). Log entry 131. -/
opaque keyDigest : BitVec 512
opaque debugLock : Bool

/-- The device key that the fused secret and measurement 1 give, and the signatures that a key makes (R390). Log entry 131. -/
opaque deviceKey : BitVec 512 → BitVec 512
opaque signature : BitVec 512 → Nat → BitVec 238336

/-- Preotte's PCI-SIG vendor ID, and the bits of the capability's header that the spec does not give (R390, R396). Log entry 131. -/
opaque vendorId : BitVec 16
opaque capHeader : Nat → BitVec 16

/-- The cores, by position, that the tests of a bring-up find to fail (R353, R386). Log entry 94. -/
opaque failing : Nat → List Nat

/-- What the controller's sensors report in a cycle: milliwatts, amperes, °C of the hottest die (R391). Log entry 132. -/
opaque sensors : Nat → Nat × Nat × Nat

/-- The frames of HBM that the hub's pool holds after bring-up (R368). Log entry 52. -/
opaque pool : List Nat

/-- The memory die, of four, that holds a 64 KiB frame of HBM (R363). Log entry 52. -/
opaque memDie : Nat → Nat

end Sys2Proof.Config
end

