-- ==== Sys2Proof/Machine/SlotState.lean ====
section
/-! DEFINITION. One thread slot: its registers (R11, R15, R26 to R28, R42 to R44, R142), its state (R189), what it
awaits (R192), its mailbox (R301), its membership (R203) and its outstanding accesses (R270). -/

namespace Sys2Proof.Machine

/-- The state of a slot (R189). -/
inductive SlotSt where
  | idle
  | ready
  | parked
  | waiting
  | stopped
  deriving DecidableEq, Repr

/-- The state of a channel membership (R203). -/
inductive Mst where
  | none
  | pending
  | joined
  | away
  deriving DecidableEq, Repr

/-- A trap, pre-emption, cancellation or stop that a slot is to take at the point of R192: TCAUSE's cause and
detail, SYL and FETCH; `quiet`: TCAUSE is left and no record is posted (SLOTSTOP.stop, R342). -/
structure StopReq where
  cause : Nat
  detail : W32
  vhalf : Bool
  fetch : Bool
  quiet : Bool
  deriving DecidableEq, Repr

/-- The search of a waiting DQPOP (R227): its operands, the cycle of its issue (R224), and the step of the pass it has
reached. `level` 0: no pass is under way and the next one starts in cycle `again`; `asked`: a request is in flight;
`round`: the cycle in which the Draught round began (R232). -/
structure Search where
  n : Nat
  k : Nat
  scope : Nat
  nowait : Bool
  jump : Bool
  level : Nat
  visit : List Nat
  asked : Bool
  again : Nat
  issued : Nat
  round : Nat
  deriving DecidableEq, Repr

/-- What a PARKED or WAITING slot awaits (R192). `unit` and `ring` hold the instruction that acts when its condition
holds, with the operands it read at issue; `strip`, `copyPlace`, `relaxFull`, `caddyFull` and `seqEnd` name at most what
is waited for, because the bundle issues afresh: `strip` the registers that had no strip, and those that had no place. -/
inductive Held where
  | none
  | divide
  | mma
  | matrix
  | fe (addr : Nat)
  | remote (home : Nat) (sync : Bool)
  | ring (i : Instr)
  | unit (i : Instr) (data : BitVec 256)
  | strip (srcs dsts : List Nat)
  | copyPlace (queue : Nat)
  | relaxFull
  | caddyFull
  | seqEnd
  | cpyw (id : Nat)
  | fence (scope : Nat) (engines : Bool)
  | release (i : Instr) (scope : Nat)
  | acquire (id : Nat)
  | push (split : Option Nat)
  | incr (quad : Nat) (pred : Nat) (task : TaskRec)
  | send
  | haltDrain
  | waitmsg (credit : Bool)
  | sleep (d : Nat) (till : Option Nat)
  | join (addr : Nat)
  | dqpop (q : Search)
  | steal (n : Nat) (k : Nat) (id : Nat)
  | rdv (d : Nat) (id : Nat)
  | resub (d : Nat) (id : Nat)
  | subscr (d : Nat)
  | taskend (sent : Bool)
  | cancell (d : Nat) (tag : Nat)
  | scnfix
  | flue
  | hubcmd (d addr : Nat)
  | stopping
  deriving DecidableEq, Repr

/-- An outstanding relaxed access (R270): its home core, what it does, and where its value goes. -/
structure Rlx where
  id : Nat
  home : Nat
  op : Option ReqOp
  d : Nat
  off : W32
  deriving DecidableEq, Repr

/-- A due published bundle and the cycle from which it is due (R209). -/
structure Due where
  cycle : Nat
  bun : PubBundle
  deriving DecidableEq, Repr

/-- A membership in a publisher's table (R203). -/
structure Member where
  tid : Nat
  skew : Nat
  mst : Mst
  deriving DecidableEq, Repr

/-- A rendezvous in progress at its publisher (R215): the members not yet heard from, and those heard. -/
structure Rdv where
  id : Nat
  waits : List Nat
  heard : List Nat
  deriving DecidableEq, Repr

/-- A thread slot. `ending`: its channel has ended and it still holds due bundles (R205); `asked`: the RDVs that
wait for its RESUB, and `late`: the members whose reports on an RDV that was withdrawn are still to come (R215);
`stopped`: the cycle of its last stop, if a cause stopped it (R324); `doomed`: a cancellation awaits its stop (R237). -/
structure Slot where
  pc : W64
  s : Vector W64 64
  sh : Vector W64 8
  p : BitVec 8
  v : Vector VReg 32
  m : Vector W32 8
  sg : Vector W128 8
  fxa : W32
  fxb : W32
  fxc : W32
  spa : W64
  spb : W64
  geom : W64
  tcause : W64
  ulivec : W64
  sticky : W64
  timer : W64
  lin : W64
  curj : W64
  st : SlotSt
  level : Bool
  ue : Bool
  ua : Bool
  tul : Bool
  tpend : Bool
  timerInt : Bool
  imv : Bool
  mark : BitVec 20
  mst : Mst
  chan : BitVec 15
  trapov : Bool
  pub : Bool
  skew : Nat
  ending : Bool
  asked : Nat
  due : List Due
  members : List Member
  rdv : Option Rdv
  late : List Nat
  held : Held
  npc : W64
  stop : Option StopReq
  stopped : Option Nat
  doomed : Bool
  last : Option Nat
  gap : Nat
  bar : Option Nat
  relaxed : List Rlx
  caddy : Nat
  mail : List Msg
  mailHeld : List Msg
  credits : BitVec 16
  deriving DecidableEq, Repr

/-- The values of a slot start (R11, R12) before the start word and the entry are written; an IDLE slot. -/
def Slot.reset : Slot where
  pc := 0
  s := Vector.replicate 64 0
  sh := Vector.replicate 8 0
  p := 1
  v := Vector.replicate 32 0
  m := Vector.replicate 8 0xFFFFFFFF#32
  sg := Vector.replicate 8 0
  fxa := 0
  fxb := 0
  fxc := 0
  spa := 0
  spb := 0
  geom := 0
  tcause := 0
  ulivec := 0
  sticky := 0
  timer := 0
  lin := 0
  curj := 0
  st := .idle
  level := false
  ue := false
  ua := false
  tul := false
  tpend := false
  timerInt := false
  imv := false
  mark := 0
  mst := .none
  chan := 0
  trapov := false
  pub := false
  skew := 0
  ending := false
  asked := 0
  due := []
  members := []
  rdv := none
  late := []
  held := .none
  npc := 0
  stop := none
  stopped := none
  doomed := false
  last := none
  gap := 8
  bar := none
  relaxed := []
  caddy := 0
  mail := []
  mailHeld := []
  credits := 0

end Sys2Proof.Machine
end

