-- ==== Sys2Proof/Machine/CoreState.lean ====
section
/-! DEFINITION. One core: its local store (R18 to R20), shared registers, sixteen slots, matrix unit and sequencer
(R134 to R165), Strainer cursors (R168), scan engine (R240), copy engine, streams, ports and pipes (R285, R306 to
R309, R222), deque (R223), network interface (R264, R269), issue-slot table (R193) and trap queue (R326). -/

namespace Sys2Proof.Machine

/-- An accumulator: 32 rows of 32 elements, its TYPE and its owner (R134). -/
structure Acc where
  rows : Vector VReg 32
  int32 : Bool
  owner : Option Nat
  deriving DecidableEq, Repr

/-- An operand ring (R136, R137): `lbase` is the local address fixed by RINGCFG. -/
structure Ring where
  owner : Option Nat
  lbase : Nat
  base : Nat
  stride : Nat
  nsm1 : Nat
  kb : Nat
  row0 : Nat
  head : Nat
  tail : Nat
  count : Nat
  deriving DecidableEq, Repr

/-- One side of a cursor (R167, R168): its descriptor, the local addresses fixed at the opening, and its place. -/
structure Side where
  valid : Bool
  enc : Nat
  len : Nat
  idx : Nat
  org : Nat
  vfmt : Nat
  val : Nat
  lidx : Nat
  lval : Nat
  pos : Nat
  ord : Nat
  prev : Nat
  started : Bool
  deriving DecidableEq, Repr

/-- The state of a cursor (R169). -/
inductive CxSt where
  | closed
  | opened
  | run
  | ended
  deriving DecidableEq, Repr

/-- A cursor (R168): `op` is 0 none, 1 AND, 2 OR, 3 DIFF (R180). -/
structure Cursor where
  a : Side
  b : Side
  op : Nat
  lo : Nat
  hi : Nat
  st : CxSt
  owner : Option Nat
  deriving DecidableEq, Repr

/-- A tile step (R145, R148): who handed it, its operands, and the formats, placements and geometry captured when it
was handed; taken at its start are the head slots' local addresses, their words and the scale words. `tries`: reruns. -/
structure MStep where
  seqr : Bool
  slot : Nat
  acc : Nat
  qa : Nat
  qb : Nat
  clr : Bool
  sat : Bool
  ha : Bool
  hb : Bool
  fxa : W32
  fxb : W32
  fxc : W32
  spa : W64
  spb : W64
  geom : W64
  t : Nat
  k : Nat
  tileA : Nat
  tileB : Nat
  lineA : List W32
  lineB : List W32
  scA : List Nat
  scB : List Nat
  tries : Nat
  no : Nat
  deriving DecidableEq, Repr

/-- An MLOAD or MDRAIN (R154, R155): the local address of each row and the sg0 offset that names it. -/
structure MMove where
  load : Bool
  slot : Nat
  acc : Nat
  code : Nat
  rows : List Nat
  off : Int
  stride : Nat
  cv : Nat
  deriving DecidableEq, Repr

/-- An operation handed to the matrix unit (R156). -/
inductive MxOp where
  | step (s : MStep)
  | clear (acc : Nat)
  | move (m : MMove)
  deriving DecidableEq, Repr

/-- The matrix unit (R149, R156): the operation it executes with the cycle at whose end it finishes, and those
handed and not started, in handed order; `free` is the first cycle in which it is free. `upsets` counts coming executions whose
residue will not match (R150). -/
structure MxUnit where
  run : Option (MxOp × Nat)
  queue : List MxOp
  free : Nat
  upsets : Nat
  handed : Nat
  deriving DecidableEq, Repr

/-- A fault of a sequencer syllable, not yet delivered (R164). -/
structure SeqFault where
  cause : Nat
  detail : W32
  t : Nat
  k : Nat
  deriving DecidableEq, Repr

/-- The repetition buffer and sequencer (R157 to R164). `want` captured bundles are still to come while capture is
open; `next` is the cycle before which the next syllable does not issue; `lost`: the next contest of R161
is the sequencer's, as the first is and each that follows one it lost. -/
structure Seqr where
  owner : Option Nat
  syl : List W32
  want : Nat
  stride : W64
  count : Nat
  t : Nat
  k : Nat
  run : Bool
  geom : W64
  next : Nat
  done : Nat
  fault : Option SeqFault
  lost : Bool
  deriving DecidableEq, Repr

/-- A divide waiting for the unit or in it (R88). -/
structure DivOp where
  slot : Nat
  d : Nat
  result : W64
  deriving DecidableEq, Repr

/-- A tile of the scan engine with its local addresses (R245, R246), the next row, the cycle of its next step, whether
it was queued since its owner's open MARK (R334), and of a row of two cycles what its first cycle read: its words and
the lanes that met a double-bit error (R247). -/
structure Tile where
  x : Nat
  y : Nat
  a : Nat
  p : Nat
  rows : Nat
  row : Nat
  ready : Nat
  region : Bool
  got : Option (VReg × VReg × W32)
  deriving DecidableEq, Repr

/-- A Flue operation of this engine (R250 to R257): its kind, its owner's slot and destination, the cycle of its
participation and its value, whether its message has left, and, at the group's last rank, whether the totals have.
`addr` is FCOMB's record. -/
structure FlueOp where
  kind : FlueKind
  slot : Nat
  d : Nat
  part : Option Nat
  val : LaneVal
  addr : Nat
  sent : Bool
  told : Bool
  deriving DecidableEq, Repr

/-- A Flue message held at its sender for a place at its receiver (R255). -/
structure FlueSend where
  dest : Nat
  msg : FlueMsg
  deriving DecidableEq, Repr

/-- The scan engine (R239, R240). `tiles` are the queued tiles, the running one first; `fix` is an SCNFIX in progress,
`image` an SCNFIX.st (address, next strip, cycle). -/
structure Scan where
  owner : Option Nat
  op : Nat
  opv : Bool
  first : Nat
  count : Nat
  gv : Bool
  chain : Bool
  round : Nat
  run : LaneVal
  cin : LaneVal
  tot : LaneVal
  tiles : List Tile
  fix : Option Tile
  image : Option (Nat × Nat × Nat)
  flue : Option FlueOp
  held : List FlueMsg
  sends : List FlueSend
  deriving DecidableEq, Repr

/-- The copy instructions (R291). -/
inductive CopyKind where
  | cpy
  | cpyw
  | cpyg
  | cpys
  | cpyt
  | mcast
  deriving DecidableEq, Repr

/-- A write of an engine that is still to be performed (R277, R292): `space` 0 a core's local store, 1 HBM, 2 host
memory; `op` 0 a word, 1 an integer add, 2 an f32 add, 3 an FE bit; `va`: the address that a fault record names. -/
structure WrOp where
  space : Nat
  who : Nat
  addr : Nat
  op : Nat
  val : Nat
  va : Nat
  deriving DecidableEq, Repr

/-- Where a word lies: its space, its core, its address there, and the address that a record names (R332). -/
structure Place where
  space : Nat
  who : Nat
  addr : Nat
  va : Nat
  deriving DecidableEq, Repr

/-- A copy command (R286): the fields of its word, the segments read at issue, its pattern block, and the local address
of its index or rank list. `dest`: the TID its message goes to; `region`: issued since its slot's open MARK (R334);
`due`: the cycle of the engine's next work on it; `got`, `unread`: what it has read, and the words it has still to read, with
their places and a multicast's target (R278); `todo`: the writes it has still to perform, once it has read all;
`ranks`, `left`: a multicast's targets, and those not yet written; `pushes`: whether its ring push waits (R297);
`complete`: written, and its push done; `posted`: its message is on its way; `detached`: R296. -/
structure Cmd where
  id : Nat
  kind : CopyKind
  queue : Nat
  slot : Nat
  tag : Nat
  dest : Nat
  rv : Bool
  ring : Nat
  uli : Bool
  padskip : Bool
  nomsg : Bool
  bf : Bool
  fem : Bool
  esz : Nat
  opc : Nat
  src : W128
  dst : W128
  soff : Nat
  doff : Nat
  len : Nat
  pat : Option (BitVec 512)
  cnt : Nat
  idx : Nat
  ranks : List Nat
  left : List Nat
  region : Bool
  started : Bool
  due : Nat
  got : List WrOp
  unread : Option (Nat × List (Place × Option Place))
  todo : Option (List WrOp)
  fid : Option Nat
  detached : Bool
  pushes : Bool
  written : Bool
  complete : Bool
  posted : Bool
  status : Nat
  badpos : Option Nat
  words : Nat
  deriving DecidableEq, Repr

/-- A staged or queued strip: its words, whether a word met a double-bit error (R308), whether it is an end strip
(R310). -/
structure Strip where
  v : VReg
  bad : Bool
  last : Bool
  deriving DecidableEq, Repr

/-- What a stream unit is bound to (R314). -/
inductive SuKind where
  | none
  | pattern
  | global
  | port
  | pipe
  deriving DecidableEq, Repr

/-- A stream unit (R306 to R314): `count` strips popped or pushed; `staged` strips fetched ahead or not yet drained;
`moved` strips fetched or drained so far; `stg` the sg0 offset of the staging area and `stgAt` its local address; `flight`: a
fetch or drain under way, until cycle `due`; `ticket`: the place, among the ids of commands, that its next refill has taken in
queue `queue`; `fid` holds a page fault; `failed`: the fault that was cancelled (R331). -/
structure Stream where
  owner : Option Nat
  kind : SuKind
  write : Bool
  pred : Nat
  num : Nat
  queue : Nat
  blk : BitVec 512
  seg : W128
  base : Nat
  stg : Nat
  stgAt : Nat
  count : Nat
  ended : Bool
  failed : Option Nat
  staged : List (Strip × W32)
  moved : Nat
  flight : Bool
  ticket : Option Nat
  due : Nat
  fid : Option Nat
  deriving DecidableEq, Repr

/-- The local address of a strip's place in the staging area of 32 strips (R307, R308). -/
def Stream.stgOf (y : Stream) (k : Nat) : Nat := y.stgAt + 128 * (k % 32)

/-- A strip waiting at its sender for a full port (R310). -/
structure PortWait where
  strip : Strip
  src : Nat
  slot : Nat
  id : Nat
  deriving DecidableEq, Repr

/-- An inbound port (R309). -/
structure Port where
  owner : Option Nat
  fifo : List Strip
  waits : List PortWait
  deriving DecidableEq, Repr

/-- A pipe (R222); `ends` are the places of its FIFO that hold end strips (R313). -/
structure Pipe where
  conf : Bool
  base : Nat
  depth : Nat
  head : Nat
  tail : Nat
  count : Nat
  prod : Option Nat
  cons : Option Nat
  ends : List Nat
  deriving DecidableEq, Repr

/-- A waiter of a word's FE bit, in joining order (R98, R276): a slot of the core, or a remote request. -/
structure FeWaiter where
  addr : Nat
  take : Bool
  slot : Nat
  d : Nat
  off : W32
  remote : Option Req
  deriving DecidableEq, Repr

/-- The answer to a steal that divided a range, owed until the increment of its join counter is acknowledged (R228). -/
structure Owed where
  id : Nat
  req : StealReq
  task : TaskRec
  deriving DecidableEq, Repr

/-- A record of the trap queue (R326), and the cycle in which it was posted. -/
structure TrapRec where
  slot : Nat
  tcause : W64
  pc : W64
  cycle : Nat
  deriving DecidableEq, Repr

/-- What an IDEM keeps for a pre-emption (R334): the cursors and the stream units that the slot owned, and the scan
engine, which the slot may come to own. -/
structure Snap where
  slot : Nat
  cursors : List (Nat × Cursor)
  scan : Scan
  streams : List (Nat × Stream)
  deriving DecidableEq, Repr

/-- A core. `woken`, `flags`: the increments of counter 15, and the flags of slots, that a cycle's first steps give and
that join the counter and the STICKY registers at its end (R55); `zeroed`: the join counters that a decrement of the cycle has
left at 0 (R235); `pushWait`: the rings that a multicast's copy is to push when they are full no more (R298); `taken`: the cycles
and banks of slot accesses of this cycle and the coming ones (R25); `engaged`: an engine has accessed the local store in this
cycle; `scrub`, `scrubAt`: the word that the core scrubs next, and when (R395). -/
structure Core where
  mem : List Host.Cell
  fe : List Nat
  err1 : List Nat
  err2 : List Nat
  k : Vector W64 192
  ev : Vector W32 16
  slots : Vector Slot 16
  acc : Vector Acc 8
  ring : Vector Ring 8
  cx : Vector Cursor 4
  mx : MxUnit
  seqr : Seqr
  div : List DivOp
  divEnd : Option Nat
  scan : Scan
  cq : Vector (List Cmd) 4
  su : Vector Stream 8
  port : Vector Port 4
  pipe : Vector Pipe 8
  dq : Vector (List TaskRec) 4
  owed : List Owed
  feWait : List FeWaiter
  snaps : List Snap
  ist : Vector Byte 32
  istNext : Option (Vector Byte 32)
  istBar : Bool
  banked : Bool
  restart : Option Nat
  busy : Bool
  netq : List Req
  amq : List ActMsg
  trapq : List TrapRec
  gang : Option Nat
  rank : Nat
  gsize : Nat
  psize : Nat
  stage : Vector W64 8
  pin : Vector Byte 14
  hand : Vector W32 16
  preempt : Bool
  woken : Nat
  flags : List (Nat × W64)
  zeroed : List Nat
  pushWait : List Nat
  taken : List (Nat × Nat)
  engaged : Bool
  scrub : Nat
  scrubAt : Nat
  deriving DecidableEq, Repr

/-- The identity of a lane register (R240). -/
def LaneVal.identity : LaneVal := ⟨true, 0, 0⟩

/-- A side that is not open (R168). -/
def Side.reset : Side := ⟨false, 0, 0, 0, 0, 0, 0, 0, 0, 0, 0, 0, false⟩

/-- A cursor as bring-up leaves it (R168). -/
def Cursor.reset : Cursor := ⟨Side.reset, Side.reset, 0, 0, 0, .closed, none⟩

/-- The scan engine as bring-up leaves it (R240). -/
def Scan.reset : Scan where
  owner := none
  op := 0
  opv := false
  first := 0
  count := 0
  gv := false
  chain := false
  round := 0
  run := LaneVal.identity
  cin := LaneVal.identity
  tot := LaneVal.identity
  tiles := []
  fix := none
  image := none
  flue := none
  held := []
  sends := []

/-- A stream unit that is not bound (R306). -/
def Stream.reset : Stream where
  owner := none
  kind := .none
  write := false
  pred := 0
  num := 0
  queue := 0
  blk := 0
  seg := 0
  base := 0
  stg := 0
  stgAt := 0
  count := 0
  ended := false
  failed := none
  staged := []
  moved := 0
  flight := false
  ticket := none
  due := 0
  fid := none

/-- The default issue-slot table: entry e names slot e mod 16 (R193). -/
def istDefault : Vector Byte 32 := 
  #v[0x80, 0x81, 0x82, 0x83, 0x84, 0x85, 0x86, 0x87, 0x88, 0x89, 0x8A, 0x8B, 0x8C, 0x8D, 0x8E, 0x8F,
    0x80, 0x81, 0x82, 0x83, 0x84, 0x85, 0x86, 0x87, 0x88, 0x89, 0x8A, 0x8B, 0x8C, 0x8D, 0x8E, 0x8F]

/-- A code offset as PC holds it: bits [2:0] are zero (R11). -/
def codePc (w : W64) : W64 := w &&& 0xFFFFFFFFFFFFFFF8#64

/-- The bits of a segment register that are not reserved (R15). -/
def sgMask : W128 := ~~~(0xE3E0#128)

/-- Slot 15 while nothing is queued for it: at supervisor level, waiting in WAITMSG in its firmware (R322, R328); its
entry and its code segment are the image's (log entry 8). -/
def Slot.firmware : Slot :=
  { Slot.reset with
    sg := Slot.reset.sg.set 7 (Config.firmwareSeg &&& sgMask), pc := codePc Config.firmwareEntry, st := .waiting
    level := true, held := .waitmsg false, npc := codePc Config.firmwareEntry + 8 }

/-- A core as bring-up leaves it (R20, R54, R134, R168, R193, R240, R386). -/
def Core.reset : Core where
  mem := []
  fe := []
  err1 := []
  err2 := []
  k := Vector.replicate 192 0
  ev := Vector.replicate 16 0
  slots := (Vector.replicate 16 Slot.reset).set 15 Slot.firmware
  acc := Vector.replicate 8 ⟨Vector.replicate 32 0, false, none⟩
  ring := Vector.replicate 8 ⟨none, 0, 0, 0, 0, 0, 0, 0, 0, 0⟩
  cx := Vector.replicate 4 Cursor.reset
  mx := ⟨none, [], 0, 0, 0⟩
  seqr := ⟨none, [], 0, 0, 0, 0, 0, false, 0, 0, 0, none, true⟩
  div := []
  divEnd := none
  scan := Scan.reset
  cq := Vector.replicate 4 []
  su := Vector.replicate 8 Stream.reset
  port := Vector.replicate 4 ⟨none, [], []⟩
  pipe := Vector.replicate 8 ⟨false, 0, 0, 0, 0, 0, none, none, []⟩
  dq := Vector.replicate 4 []
  owed := []
  feWait := []
  snaps := []
  ist := istDefault
  istNext := none
  istBar := false
  banked := true
  restart := none
  busy := false
  netq := []
  amq := []
  trapq := []
  gang := none
  rank := 0
  gsize := 0
  psize := 0
  stage := Vector.replicate 8 0
  pin := Vector.replicate 14 0
  hand := Vector.replicate 16 0
  preempt := false
  woken := 0
  flags := []
  zeroed := []
  pushWait := []
  taken := []
  engaged := false
  scrub := 0
  scrubAt := 304

end Sys2Proof.Machine
end

