-- ==== Sys2Proof/Machine/HubState.lean ====
section
/-! DEFINITION. The hub, its links and the Beneth controller: gangs and rank tables (R352 to R356, R378, R379), the
fault queue (R329), pages (R364 to R369), submission queues and the journal (R372 to R381), links (R358 to R363),
Cord (R383 to R385), management and SPDM (R386 to R396). -/

namespace Sys2Proof.Machine

/-- Where a gang stands (R334, R355, R356, R379): `waiting`: a saved gang that a RESUME places again; `ended`: a failed
gang whose cores still drain. -/
inductive GangSt where
  | accepted
  | running
  | saving
  | saved
  | waiting
  | restoring
  | ended
  deriving DecidableEq, Repr

/-- An entry of the rank table (R352): the physical core, the id of its position (R353), and TR. -/
structure RankEnt where
  core : Nat
  pos : Nat
  transit : Bool
  deriving DecidableEq, Repr

/-- A Caddy counter (R315). -/
structure CaddyCtr where
  total : Nat
  tcols : Nat
  next : Nat
  deriving DecidableEq, Repr

/-- A gang: its launch (R378), the cores of its ranks, its pool, counters and save area. `since` is the cycle of its
acceptance (R356); `done` the ranks already saved or restored, and `askers` the cores and slots whose RESTORED awaits the others
(R344); `kept` what the gang header keeps of the die queues
(R335); `reserved` the positions kept for it (R356). -/
structure Gang where
  ctx : Nat
  queue : Nat
  seq : Nat
  cls : Nat
  st : GangSt
  desc : BitVec 4736
  size : Nat
  ranks : List RankEnt
  psize : Nat
  caddy : Vector CaddyCtr 8
  since : Nat
  waiter : Bool
  base : Nat
  done : List Nat
  askers : List (Nat × Nat)
  kept : List (Nat × TaskRec)
  reserved : List Nat
  deriving DecidableEq, Repr

/-- An accepted and unfinished command (R374, R376): its entry, context, the cycle of its acceptance (R356), whether it
has started, its latest journal state and detail, and the pages that a PGFORK has forked (R367). -/
structure Work where
  e : SqEntry
  ctx : Nat
  since : Nat
  begun : Bool
  state : Nat
  detail : Nat
  page : Nat
  deriving DecidableEq, Repr

/-- The registers of a submission queue (R372, R374). -/
structure Sq where
  base : W64
  cq : W64
  en : Bool
  stop : Bool
  cls : Nat
  lsz : Nat
  ctx : Nat
  tail : Nat
  rd : Nat
  seqbase : Nat
  deriving DecidableEq, Repr

/-- A pending fault (R329): its record and the GLOBAL or HOST side of the request it holds. -/
structure Pending where
  info : FaultRec
  host : Bool
  deriving DecidableEq, Repr

/-- A leaf entry as the translation caches hold it (R365): its context, whether of the HOST space, the 64 KiB page of the
address, where the entry lies, its value, whether it maps a 2 MiB page, and the wrong bits, 1 or 2, of its SRAM word (R394). -/
structure Tlb where
  ctx : Nat
  host : Bool
  page : Nat
  entry : Nat
  e : Nat
  big : Bool
  err : Nat
  deriving DecidableEq, Repr

/-- A copy on write in progress (R368). -/
structure Cow where
  ctx : Nat
  va : Nat
  frame : Nat
  deriving DecidableEq, Repr

/-- A lineage cancellation in progress (R237): the slots still to stop, those asked to, and the cycle from which it may
complete. -/
structure CancelRun where
  gang : Nat
  tag : Nat
  core : Nat
  slot : Nat
  queue : Option (Nat × Nat)
  purged : Nat
  marks : List (Nat × Nat)
  asked : List (Nat × Nat)
  since : Nat
  deriving DecidableEq, Repr

/-- A registered multicast and the ranks that have not yet sent BUFFREE (R299); `last`: the core whose BUFFREE was the latest. -/
structure BufReg where
  core : Nat
  slot : Nat
  tag : Nat
  left : List Nat
  last : Nat
  deriving DecidableEq, Repr

/-- The rounds of a group of the Flue (R239): those before `upto`. -/
structure FlueRounds where
  gang : Nat
  first : Nat
  count : Nat
  upto : Nat
  deriving DecidableEq, Repr

/-- A die-hub link (R358, R359): lanes lost, the die its traffic goes through once rerouted, whether it retrains or
changes over, and whether its die is isolated; and, of its last heal, the messages then on their way, which later ones may
overtake, and the Flue's rounds in which a member had then taken part (R362). -/
structure Link where
  lost : Nat
  via : Option Nat
  retrain : Bool
  change : Bool
  isolated : Bool
  early : List NetMsg
  slow : List FlueRounds
  deriving DecidableEq, Repr

/-- A link that nothing has happened to. -/
def Link.healthy : Link := ⟨0, none, false, false, false, [], []⟩

/-- A reply-cache entry (R384). -/
structure ReplyEnt where
  link : Nat
  pkg : Nat
  seq : Nat
  result : W64
  since : Nat
  deriving DecidableEq, Repr

/-- An atomic sent to another package and not yet answered (R380, R384). -/
structure CatomRun where
  core : Nat
  slot : Nat
  seq : Nat
  block : Nat
  deriving DecidableEq, Repr

/-- A package-level barrier (R385): its generation, the packages that have arrived, and the slots of this package to
be told. -/
structure Bar where
  id : Nat
  gen : Nat
  came : List Nat
  tell : List (Nat × Nat × Nat)
  deriving DecidableEq, Repr

/-- The hub. `held`: messages that their senders hold for a rank in transit (R354); `wires`: messages that a retraining
or changing link holds (R358, R359), by its die; `spares`: the spare core that stands in each position (R353);
`jbad`, `jweak`: a word of the journal has an uncorrectable or a correctable error; `badLines`, `weakLines`: the lines of
HBM that have one (R394); `returned`: the results of their atomics that have gone back to other packages, oldest first
(R384). -/
structure Hub where
  gangs : List (Nat × Gang)
  gangNext : Nat
  work : List Work
  agemax : W64
  jmirror : W64
  jhead : Nat
  fqbase : W64
  fqprod : Nat
  fqcons : Nat
  pkgid : W64
  sq : List (Nat × Sq)
  served : Vector Nat 4
  ctxroot : List (Nat × W64)
  hostroot : List (Nat × W64)
  croute : List (Nat × W64)
  journal : List (W64 × W64)
  jbad : Bool
  jweak : Bool
  irqs : List Nat
  faults : List Pending
  fidNext : Nat
  fqwait : List (BitVec 256)
  shares : List (Nat × Nat)
  tags : List (Nat × Nat × Nat)
  pool : List Nat
  dying : List Nat
  cows : List Cow
  kills : List Nat
  cancels : List CancelRun
  bufs : List BufReg
  held : List (Nat × Nat × Event)
  wires : List (Nat × Event)
  spares : List (Nat × Nat)
  tlb : List Tlb
  junction : List FlueMsg
  links : Vector Link 8
  side : Vector Bool 8
  memlink : Vector Bool 4
  badLines : List Nat
  weakLines : List Nat
  cord : Vector Bool 16
  replies : List ReplyEnt
  returned : List ReplyEnt
  atomics : List CordAtomic
  catoms : List CatomRun
  xfers : List CordXfer
  bars : List Bar
  deriving DecidableEq, Repr

/-- An extended algorithm entry (R390): registry, vendor and algorithm. -/
structure ExtAlg where
  registry : Nat
  vendor : BitVec 16
  id : Nat
  deriving DecidableEq, Repr

/-- What the DOE mailbox last answered (R390): of ALGORITHMS its two base selections and its two extended ones; of a signed
response the signature. -/
inductive SpdmResp where
  | version
  | capabilities
  | algorithms (baseAsym baseHash : Nat) (extAsym extHash : Option ExtAlg)
  | digests (d : BitVec 512)
  | certificate (off len : Nat)
  | challengeAuth (sig : BitVec 238336)
  | measurements (idx : Nat) (value : BitVec 512) (sig : Option (BitVec 238336))
  | errorBusy
  | errorUnsupported
  deriving DecidableEq, Repr

/-- What the responder signs (R390): a challenge's answer, or that of a measurement. -/
inductive Signing where
  | challenge
  | measurement (idx : Nat)
  deriving DecidableEq, Repr

/-- The SPDM responder (R390): the algorithms selected, the response being signed, and the last response. -/
structure Spdm where
  asym : Bool
  hash : Bool
  signing : Option Signing
  resp : Option SpdmResp
  deriving DecidableEq, Repr

/-- A firmware image (R388): its SVN, whether its key digest and its signature are right, and a number that names its content. -/
structure Image where
  svn : BitVec 16
  keyok : Bool
  sigok : Bool
  content : Nat
  deriving DecidableEq, Repr

/-- How a CXL.mem access ended (R371, R387, R394): a line with its poison, a line written, or an error. -/
inductive MemAns where
  | line (addr : Nat) (data : BitVec 512) (poison : Bool)
  | written (addr : Nat)
  | error (addr : Nat)
  deriving DecidableEq, Repr

/-- The Beneth controller (R386 to R396). `images`: the running images, by their measurement's index from 1 on; `pending`: those
that the next reset takes; `measured`: the measurements; `power`: power samples of the last ms, newest first; `fresh`: samples since
the last reset; `cool`, `amps`, `held3`, `since`: samples of 10 µs in the conditions of R391 and R393; `sampleAt`: the cycle of
the next one; `lanes`: the masks of the enabled lanes of every link, as bring-up trained them: die-hub links (0 to 7), side links
(8 to 15), memory-die links (16 to 19), Cord links (20 to 35) and the CXL link (36) (R386, R389); `epoch`: the cycles of the runs
before the last reset. -/
structure Mgmt where
  stage : Nat
  err : Bool
  ecode : Nat
  memActive : Bool
  fuse : BitVec 16
  keyDigest : BitVec 512
  debugLock : Bool
  images : Vector Image 3
  pending : List (Nat × Image)
  measured : Vector (BitVec 512) 5
  lanes : Vector Nat 37
  devKey : BitVec 512
  step : Nat
  stepNext : Option Nat
  pwrlim : Nat
  pwrnow : Nat
  cecnt : Nat
  power : List Nat
  fresh : Nat
  cool : Nat
  amps : Nat
  since : Nat
  held3 : Nat
  sampleAt : Nat
  epoch : Nat
  tripped : Bool
  faulty : Option Nat
  spdm : Spdm
  hostRead : Option MemAns
  deriving DecidableEq, Repr

/-- The hub after reset (R372); its queues, tables and records are empty, its links healthy. -/
def Hub.reset : Hub where
  gangs := []
  gangNext := 0
  work := []
  agemax := 2000
  jmirror := 0
  jhead := 0
  fqbase := 0
  fqprod := 0
  fqcons := 0
  pkgid := 0
  sq := []
  served := Vector.replicate 4 255
  ctxroot := []
  hostroot := []
  croute := []
  journal := []
  jbad := false
  jweak := false
  irqs := []
  faults := []
  fidNext := 1
  fqwait := []
  shares := []
  tags := []
  pool := Config.pool
  dying := []
  cows := []
  kills := []
  cancels := []
  bufs := []
  held := []
  wires := []
  spares := []
  tlb := []
  junction := []
  links := Vector.replicate 8 Link.healthy
  side := Vector.replicate 8 true
  memlink := Vector.replicate 4 true
  badLines := []
  weakLines := []
  cord := Vector.replicate 16 true
  replies := []
  returned := []
  atomics := []
  catoms := []
  xfers := []
  bars := []

/-- The controller after reset (R391, R396). -/
def Mgmt.reset : Mgmt where
  stage := 0
  err := false
  ecode := 0
  memActive := false
  fuse := 0
  keyDigest := Config.keyDigest
  debugLock := Config.debugLock
  images := Vector.replicate 3 ⟨0, true, true, 0⟩
  pending := []
  measured := Vector.replicate 5 0
  lanes := Vector.replicate 37 0
  devKey := 0
  step := 0
  stepNext := none
  pwrlim := 2000
  pwrnow := 0
  cecnt := 0
  power := []
  fresh := 0
  cool := 0
  amps := 0
  since := 100
  held3 := 0
  sampleAt := 14000
  epoch := 0
  tripped := false
  faulty := none
  spdm := ⟨false, false, none, none⟩
  hostRead := none

end Sys2Proof.Machine
end

