-- ==== Sys2Proof/Machine/State.lean ====
section
/-! DEFINITION. The whole machine: its cores, die queues, hub, memories and controller, and the model's own place in
the cycle. Plain data. -/

namespace Sys2Proof.Machine

/-- The reasons a step stops with a fault. -/
inductive Fault where
  /-- Raised by step when a queued event names a core, slot, unit or queue that the package does not have: no such
  event is an input of this machine. Safe: the hardware has no such agent to take the step. -/
  | noSuchUnit
  deriving DecidableEq, Repr

/-- The reasons a step is refused. -/
inductive Refusal where
  /-- Raised by exec for an instruction that has no meaning here yet, by its mnemonic. Safe. -/
  | notModelled (mnemonic : String)
  deriving DecidableEq, Repr

/-- The state of the package. `now` is the core cycle count (R103). The model's own fields: `turn`, the cores that may
still issue in the cycle; `early`, steps of units that come before the cycle's issues; `agenda`, events by the cycle in
which they come about; `cur`, the core and slot whose bundle executes; `nonce`, the counter that free values are
taken from (log entries 2 and 3). `cores` lists, by rising id, the cores touched so far;
any other is as Core.reset. -/
structure State where
  now : Nat
  turn : List Nat
  early : List Event
  agenda : List (Nat × Event)
  cur : Nat × Nat
  nonce : Nat
  cores : List (Nat × Core)
  dieq : Vector (Vector (List TaskRec) 4) 8
  hub : Hub
  hbm : List Host.Cell
  host : List Host.Cell
  mg : Mgmt
  deriving DecidableEq, Repr

/-- The machine right after reset (R386): stage 0 of bring-up, cores as bring-up leaves them, nothing queued but the
next stage; what a byte of HBM or host memory that nothing has written reads as is Memory.default. -/
def State.reset : State where
  now := 0
  turn := []
  early := []
  agenda := [(0, .bringUpStage)]
  cur := (0, 0)
  nonce := 0
  cores := []
  dieq := Vector.replicate 8 (Vector.replicate 4 [])
  hub := Hub.reset
  hbm := []
  host := []
  mg := Mgmt.reset

end Sys2Proof.Machine
end

