-- ==== Sys2Proof/Machine/Ops.lean ====
section
/-! DEFINITION. The named operations that meanings are written over: cores and slots, registers (R11, R30), events
and latencies, the local store (R19, R20), Seg (R17, R263), sticky flags and counters (R53, R54), and stopping a slot
(R26, R192, R326). -/

namespace Sys2Proof.Machine

/-- What a syllable comes to. `hold`: the operation has issued and the slot awaits it, its PC still at the bundle, to go
on at the address given or behind the bundle; `again`: the bundle has had no effect and issues afresh when the wait ends; `halt`:
the bundle takes effect and the slot then stops (R324, BREAK). `stop`: the slot stops at the bundle, which has no effect of its
own (R164). -/
inductive Res where
  | ok (s : State)
  | jump (pc : W64) (s : State)
  | hold (next : Option W64) (s : State)
  | again (h : Held)
  | trap (cause : Nat) (detail : W32)
  | halt (cause : Nat) (detail : W32) (s : State)
  | stop (q : StopReq) (s : State)

/-- The trap causes (R324). -/
def cHANDLE : Nat := 1
def cILLEGAL : Nat := 2
def cILLCOMBO : Nat := 3
def cPRIV : Nat := 4
def cALIGN : Nat := 5
def cSPACE : Nat := 6
def cSEGLIMIT : Nat := 7
def cRIGHTS : Nat := 8
def cUNSORTED : Nat := 9
def cOVERLAP : Nat := 10
def cIDEMADD : Nat := 11
def cOVERRUN : Nat := 12
def cPAGEFATAL : Nat := 13
def cECCFATAL : Nat := 14
def cCANCELLED : Nat := 15
def cPREEMPT : Nat := 16
def cTIMER : Nat := 17
def cBREAK : Nat := 18

/-- A HANDLE trap's DETAIL: reason in [15:8], unit in [7:0]. -/
def hDetail (reason unit : Nat) : W32 := BitVec.ofNat 32 (reason * 256 + unit % 256)

/-! ### Cores and slots -/

/-- A core by its physical id (R103, R353). -/
def State.core (s : State) (c : Nat) : Core := tget Core.reset c s.cores

/-- Sets a core. -/
def State.setCore (s : State) (c : Nat) (x : Core) : State := { s with cores := tput c x s.cores }

/-- Changes a core. -/
def State.modCore (s : State) (c : Nat) (f : Core → Core) : State := s.setCore c (f (s.core c))

/-- A slot of a core. -/
def Core.slot (x : Core) (i : Nat) : Slot := vget x.slots i Slot.reset

/-- Sets a slot of a core. -/
def Core.setSlot (x : Core) (i : Nat) (t : Slot) : Core := { x with slots := vset x.slots i t }

/-- A slot of the package. -/
def State.slot (s : State) (c i : Nat) : Slot := (s.core c).slot i

/-- Sets a slot of the package. -/
def State.setSlot (s : State) (c i : Nat) (t : Slot) : State := s.setCore c ((s.core c).setSlot i t)

/-- Changes a slot of the package. -/
def State.modSlot (s : State) (c i : Nat) (f : Slot → Slot) : State := s.setSlot c i (f (s.slot c i))

/-- The slot whose bundle executes. -/
def State.me (s : State) : Slot := s.slot s.cur.1 s.cur.2

/-- Changes the slot whose bundle executes. -/
def State.modMe (s : State) (f : Slot → Slot) : State := s.modSlot s.cur.1 s.cur.2 f

/-- The core whose bundle executes. -/
def State.my (s : State) : Core := s.core s.cur.1

/-- Changes the core whose bundle executes. -/
def State.modMy (s : State) (f : Core → Core) : State := s.modCore s.cur.1 f

/-- The slots of a core by number. -/
def slotNums : List Nat := [0, 1, 2, 3, 4, 5, 6, 7, 8, 9, 10, 11, 12, 13, 14, 15]

/-! ### Registers -/

/-- A scalar register: s0 reads 0, and s56 to s63 name the shadow bank while an interrupt runs (R11, R305). -/
def Slot.rs (t : Slot) (a : Nat) : W64 :=
  if a = 0 then 0 else if t.ua && 56 ≤ a then vget t.sh (a - 56) 0 else vget t.s a 0

/-- Writes a scalar register; a write to s0 is discarded (R11). -/
def Slot.ws (t : Slot) (a : Nat) (x : W64) : Slot :=
  if a = 0 then t else if t.ua && 56 ≤ a then { t with sh := vset t.sh (a - 56) x } else { t with s := vset t.s a x }

/-- A predicate: p0 reads true (R11). -/
def Slot.rp (t : Slot) (k : Nat) : Bool := k = 0 || t.p.getLsbD k

/-- Writes a predicate; a write to p0 is discarded (R11). -/
def Slot.wp (t : Slot) (k : Nat) (b : Bool) : Slot :=
  if k = 0 then t
  else { t with p := if b then t.p ||| (1#8 <<< k) else t.p &&& ~~~(1#8 <<< k) }

/-- A mask: m0 reads all ones (R11). -/
def Slot.rm (t : Slot) (k : Nat) : W32 := if k = 0 then 0xFFFFFFFF#32 else vget t.m k 0

/-- Writes a mask; a write to m0 is discarded (R11). -/
def Slot.wm (t : Slot) (k : Nat) (x : W32) : Slot := if k = 0 then t else { t with m := vset t.m k x }

/-- A vector register, not as a stream (R11). -/
def Slot.rv (t : Slot) (k : Nat) : VReg := vget t.v k 0

/-- Writes a vector register. -/
def Slot.wv (t : Slot) (k : Nat) (x : VReg) : Slot := { t with v := vset t.v k x }

/-- A segment register (R15). -/
def Slot.rsg (t : Slot) (k : Nat) : W128 := vget t.sg k 0

/-- The executing slot's scalar register. -/
def State.rs (s : State) (a : Nat) : W64 := s.me.rs a

/-- Writes the executing slot's scalar register. -/
def State.ws (s : State) (a : Nat) (x : W64) : State := s.modMe fun t => t.ws a x

/-- Writes the executing slot's predicate. -/
def State.wp (s : State) (k : Nat) (b : Bool) : State := s.modMe fun t => t.wp k b

/-- Writes the executing slot's mask. -/
def State.wm (s : State) (k : Nat) (x : W32) : State := s.modMe fun t => t.wm k x

/-- Writes the executing slot's vector register. -/
def State.wv (s : State) (k : Nat) (x : VReg) : State := s.modMe fun t => t.wv k x

/-! ### Events and latencies -/

/-- Queues an event, after those due in the same cycle. -/
def agendaPut (due : Nat) (e : Event) : List (Nat × Event) → List (Nat × Event)
  | [] => [(due, e)]
  | x :: l => if due < x.1 then (due, e) :: x :: l else x :: agendaPut due e l

/-- Queues an event that waited on a link before the others due in cycle `now`, but for those that `behind` puts before it. -/
def agendaFront (behind : Event → Bool) (now : Nat) (e : Event) : List (Nat × Event) → List (Nat × Event)
  | [] => [(now, e)]
  | x :: l =>
    if (x :: l).any fun y => y.1 ≤ now && behind y.2 then x :: agendaFront behind now e l else (now, e) :: x :: l

/-- Queues an event for `d` cycles from now. -/
def State.after (s : State) (d : Nat) (e : Event) : State := { s with agenda := agendaPut (s.now + d) e s.agenda }

/-- A HANDLE trap's DETAIL where the entry states no unit: [7:0] is free (log entry 16). -/
def State.hFree (s : State) (reason : Nat) : W32 := hDetail reason (Config.free s.nonce)

/-- A free number from `lo` to `hi`, and the counter's advance (log entry 3). -/
def State.draw (s : State) (lo hi : Nat) : Nat × State :=
  (lo + Config.free s.nonce % (hi - lo + 1), { s with nonce := s.nonce + 1 })

/-- Queues an event within `lo` to `hi` cycles, and not before any queued event that `same` names: messages of one
sender to one home keep their order (R264, R271). -/
def State.afterIn (s : State) (lo hi : Nat) (same : Event → Bool) (e : Event) : State :=
  let d := s.draw lo hi
  let floor := (d.2.agenda.filter fun x => same x.2).foldl (fun m x => max m x.1) 0
  { d.2 with agenda := agendaPut (max (d.2.now + d.1) floor) e d.2.agenda }

/-! ### The gang's tables -/

/-- The gang a core serves. -/
def State.gangOf (s : State) (c : Nat) : Option Gang :=
  match (s.core c).gang with
  | none => none
  | some g => (s.hub.gangs.find? fun e => e.1 = g).map (·.2)

/-- The rank-table entry of a rank of a core's gang (R352). -/
def State.rankEnt (s : State) (c rank : Nat) : Option RankEnt :=
  (s.gangOf c).bind fun g => g.ranks[rank]?

/-- The core that holds a rank of a core's gang. -/
def State.rankCore (s : State) (c rank : Nat) : Nat := ((s.rankEnt c rank).map (·.core)).getD c

/-- The position a core stands in, as an id die × 256 + y × 16 + x (R351, R353). -/
def State.pos (s : State) (c : Nat) : Nat :=
  if c < 2048 then c else ((s.rankEnt c (s.core c).rank).map (·.pos)).getD ((c - 2048) / 16 * 256)

/-- The die of a core. -/
def State.die (s : State) (c : Nat) : Nat := s.pos c / 256

/-- The cluster of a core, within its die (R351). -/
def State.cluster (s : State) (c : Nat) : Nat := s.pos c / 64 % 4 * 4 + s.pos c / 4 % 4

/-- The hub link of a die. -/
def State.link (s : State) (d : Nat) : Link := vget s.hub.links d Link.healthy

/-- Whether a die's hub link carries rerouted traffic (R359). -/
def State.rerouted (s : State) (d : Nat) : Bool := (s.link d).via.isSome

/-- Whether a die's traffic is held: its path changes over, or the link it goes through retrains (R358, R359). -/
def State.pathHeld (s : State) (d : Nat) : Bool := (s.link d).change || (s.link ((s.link d).via.getD d)).retrain

/-- Whether a message was on its way across a die's link when it healed (R362). -/
def State.overtaken (s : State) (a b : Nat) (m : NetMsg) : Bool :=
  s.die a != s.die b && ((s.link (s.die a)).early.contains m || (s.link (s.die b)).early.contains m)

/-- Whether the path of two cores is rerouted (R360). -/
def State.reroutedPath (s : State) (a b : Nat) : Bool :=
  s.die a != s.die b && (s.rerouted (s.die a) || s.rerouted (s.die b))

/-- The latency class of two cores (R351). -/
def State.latClass (s : State) (a b : Nat) : Nat :=
  if s.die a != s.die b then 2 else if s.cluster a != s.cluster b then 1 else 0

/-- The bound of a remote access, push or steal (R232, R265). -/
def State.latBound (s : State) (a b : Nat) : Nat :=
  match s.latClass a b with
  | 0 => 96
  | 1 => 160
  | _ => if s.reroutedPath a b then 640 else 480

/-- The thread id of a slot (R103). -/
def State.tid (s : State) (c i : Nat) : Nat := (s.core c).rank * 16 + i

/-- The core and slot of a thread id of a core's gang. -/
def State.ofTid (s : State) (c tid : Nat) : Nat × Nat := (s.rankCore c (tid / 16), tid % 16)

/-! ### The local store -/

/-- The bytes of a core's local store (R19). -/
def Core.rd (x : Core) (a n : Nat) : Nat := Memory.read x.mem a n

/-- The words that an access touches. -/
def wordsOf (a n : Nat) : List Nat := if n = 0 then [] else steps (a / 4) 1 ((a + n - 1) / 4 - a / 4 + 1)

/-- Whether an access meets a double-bit error (R20). -/
def Core.bad (x : Core) (a n : Nat) : Bool :=
  match x.err2 with
  | [] => false
  | l => (wordsOf a n).any fun w => l.contains w

/-- Stores bytes and recomputes the check bits of the words touched (R19). -/
def Core.wr (x : Core) (a n v : Nat) : Core :=
  { x with
    mem := Memory.write x.mem a n v
    err1 := match x.err1 with
      | [] => []
      | l => l.filter fun w => !(wordsOf a n).contains w
    err2 := match x.err2 with
      | [] => []
      | l => l.filter fun w => !(wordsOf a n).contains w }

/-- FE of the word that contains an address (R19). -/
def Core.isFull (x : Core) (a : Nat) : Bool := x.fe.contains (a / 4)

/-- Sets FE of the word that contains an address (R19). -/
def Core.setFe (x : Core) (a : Nat) (b : Bool) : Core :=
  { x with fe := if b then insertNat (a / 4) x.fe else x.fe.filter fun w => w != a / 4 }

/-- Engine writes of whole words: data, and FE full (R277). -/
def Core.engWr (x : Core) (a n v : Nat) : Core :=
  let y := x.wr a n v
  { y with fe := (wordsOf a n).foldl (fun l w => insertNat w l) y.fe }

/-- Adds to CECNT (R394, R396). -/
def State.corrected (s : State) (n : Nat) : State :=
  if n = 0 then s else { s with mg := { s.mg with cecnt := min (s.mg.cecnt + n) 0xFFFFFFFF } }

/-- A read of a core's local store: single-bit errors are corrected and written back (R20, R394). -/
def State.touch (s : State) (c a n : Nat) : State :=
  match (s.core c).err1 with
  | [] => s
  | l =>
    let hit := l.filter fun w => (wordsOf a n).contains w
    (s.modCore c fun x => { x with err1 := l.filter fun w => !(wordsOf a n).contains w }).corrected hit.length

/-- A core's account of the banks that slot accesses take from cycle `now` on: of each access its cycle behind `now`, and its
word (R25). -/
def Core.claim (x : Core) (now : Nat) (l : List (Nat × Nat)) : Core :=
  { x with taken := x.taken ++ l.map fun e => (now + e.1, e.2 % 64) }

/-- A slot access of this cycle takes its words' banks. -/
def State.takeBanks (s : State) (c : Nat) (ws : List Nat) : State :=
  s.modCore c fun x => x.claim s.now (ws.map fun w => (0, w))

/-! ### Segments -/

/-- A segment descriptor's fields (R15). -/
def sgLimit (d : W128) : Nat := fld d.toNat 80 48
def sgBase (d : W128) : Nat := fld d.toNat 32 48
def sgRank (d : W128) : Nat := fld d.toNat 16 16
def sgSpace (d : W128) : Nat := fld d.toNat 10 3
def sgE (d : W128) : Bool := d.getLsbD 4
def sgA (d : W128) : Bool := d.getLsbD 3
def sgX (d : W128) : Bool := d.getLsbD 2
def sgW (d : W128) : Bool := d.getLsbD 1
def sgR (d : W128) : Bool := d.getLsbD 0

/-- The bits of GEOM that are not reserved (R142). -/
def geomMask : W64 := 0x03FFFFFFFFFFFFFF#64

/-- What Seg is asked for (R17). -/
inductive AccKind where
  | load
  | store
  | fetch
  deriving DecidableEq, Repr

/-- What Seg answers: a local address, a home core and local address, or a cause (R17, R263). -/
inductive SegR where
  | at (a : Nat)
  | remote (home a : Nat)
  | bad (cause : Nat)
  deriving DecidableEq, Repr

/-- The rights check of Seg (R17, R263). -/
def sgRights (d : W128) (kind : AccKind) : Bool :=
  !sgE d && (match kind with
    | .load => sgR d
    | .store => sgW d
    | .fetch => sgX d)

/-- The LOCAL part of Seg (R17), after the space is known. -/
def segIn (d : W128) (off : Int) (size : Nat) (kind : AccKind) : SegR :=
  if off < 0 || off + size - 1 > sgLimit d then .bad cSEGLIMIT
  else if sgBase d + off + size - 1 > 0xFFFFF then .bad cSEGLIMIT
  else if !sgRights d kind then .bad cRIGHTS
  else .at (sgBase d + off).toNat

/-- Seg for a check that is LOCAL-only (R17, R397). -/
def segLocal (d : W128) (off : Int) (size align : Nat) (kind : AccKind) : SegR :=
  if off % align != 0 then .bad cALIGN
  else if sgSpace d != 1 then .bad cSPACE
  else segIn d off size kind

/-- The home of a pool byte: rank and local address (R262). -/
def poolHome (gsize psize p : Nat) : Nat × Nat :=
  let w := p / 4
  let q := w / gsize
  let r := w % gsize
  ((r + q * 40503 % 2 ^ 16) % gsize, 0x100000 - psize + 4 * q + p % 4)

/-- REMOTE (R263); `wide`: the instruction is VLD, VST or VLDB; `indexed`: it is VLDX or VSTX. -/
def segRemote (s : State) (c : Nat) (d : W128) (off : Int) (size : Nat) (kind : AccKind) (wide indexed : Bool) : SegR :=
  let x := s.core c
  let pool := sgSpace d = 3
  if indexed then .bad cSPACE
  else if pool && (size > 4 || wide) then .bad cSPACE
  else if off < 0 || off + size - 1 > sgLimit d then .bad cSEGLIMIT
  else if !pool && (sgRank d ≥ x.gsize || sgBase d + off + size - 1 > 0xFFFFF) then .bad cSEGLIMIT
  else if pool && sgBase d + off + size - 1 ≥ x.gsize * x.psize then .bad cSEGLIMIT
  else if !sgRights d kind then .bad cRIGHTS
  else
    let p := (sgBase d + off).toNat
    if pool then
      let h := poolHome x.gsize x.psize p
      .remote (s.rankCore c h.1) h.2
    else .remote (s.rankCore c (sgRank d)) p

/-- Seg for a memory instruction of the executing slot (R17, R261, R263). -/
def State.seg (s : State) (n : Nat) (off : Int) (size align : Nat) (kind : AccKind) (wide indexed : Bool) : SegR :=
  let d := s.me.rsg n
  if off % align != 0 then .bad cALIGN
  else if sgSpace d = 2 || sgSpace d = 3 then
    (if kind = .fetch then .bad cSPACE else segRemote s s.cur.1 d off size kind wide indexed)
  else if sgSpace d != 1 then .bad cSPACE
  else segIn d off size kind

/-- Seg(0, …) of the executing slot, LOCAL-only (R397). -/
def State.seg0 (s : State) (off : Int) (size align : Nat) (kind : AccKind) : SegR :=
  segLocal (s.me.rsg 0) off size align kind

/-- The detail of an address fault: offset[31:0] (R92, R397). -/
def offDetail (off : Int) : W32 := BitVec.ofNat 32 (wrap 32 off)

/-- Whether an engine's traffic to a segment is held with a link that it crosses (R358, R359): GLOBAL and HOST through the die's
hub link, CORE between dies. -/
def State.wayHeld (s : State) (c : Nat) (d : W128) : Bool :=
  if sgSpace d = 4 || sgSpace d = 5 then s.pathHeld (s.die c)
  else
    let e := s.rankCore c (sgRank d)
    sgSpace d = 2 && s.die e != s.die c && (s.pathHeld (s.die e) || s.pathHeld (s.die c))

/-- The local address that Seg gave, or 0. -/
def SegR.addr : SegR → Nat
  | .at a => a
  | _ => 0

/-- The trap of a LOCAL-only check, with the offset as its detail, if it has one (R397). -/
def SegR.offTrap (r : SegR) (off : Int) : Option (Nat × W32) :=
  match r with
  | .at _ => none
  | .remote _ _ => some (cSPACE, offDetail off)
  | .bad c => some (c, offDetail off)

/-- Continues with the local address of a LOCAL-only check, or traps with the offset. -/
def SegR.get (r : SegR) (off : Int) (k : Nat → Res) : Res :=
  match r with
  | .at a => k a
  | .remote _ _ => .trap cSPACE (offDetail off)
  | .bad c => .trap c (offDetail off)

/-- The region's MARK, which IDEMADD carries as its detail (R324, R333). -/
def Slot.markDetail (t : Slot) : W32 := t.mark.zeroExtend 32

/-! ### Sticky flags and event counters -/

/-- Adds to an event counter, saturating (R54). -/
def Core.count (x : Core) (i n : Nat) : Core :=
  if n = 0 then x
  else { x with ev := vset x.ev i (BitVec.ofNat 32 (min ((vget x.ev i 0).toNat + n) 0xFFFFFFFF)) }

/-- Sets sticky flags of a slot (R27). -/
def State.stick (s : State) (c i : Nat) (b : W64) : State :=
  if b = 0 then s else s.modSlot c i fun t => { t with sticky := t.sticky ||| b }

/-- The flags of result elements reach STICKY and counters 0 to 5 of a slot (R53, R54). -/
def State.raise (s : State) (c i : Nat) (fs : List Flg) : State :=
  let n := fun (f : Flg → Bool) => (fs.filter f).length
  let s := s.stick c i (fs.foldl (fun b f => b ||| f.bits) 0)
  if fs.any (fun f => f.gen || f.inf || f.ovf || f.ufl || f.sat || f.bx) then
    s.modCore c fun x => (((((x.count 0 (n (·.gen))).count 1 (n (·.inf))).count 2 (n (·.ovf))).count 3
      (n (·.ufl))).count 4 (n (·.sat))).count 5 (n (·.bx))
  else s

/-! ### Ending a wait -/

/-- The PC of a slot between bundles: of a JOINED member the PC of its oldest due bundle (R207, R217). -/
def Slot.nextPc (t : Slot) (pc : W64) : W64 :=
  match t.mst, t.due with
  | .joined, d :: _ => d.bun.pc
  | _, _ => pc

/-- A READY member that has no due bundle counts as WAITING (R212). -/
def Slot.lull (t : Slot) : Bool := t.st = .ready && t.mst = .joined && t.due.isEmpty

/-- A PARKED or WAITING slot becomes READY with its PC where the operation left it (R190, R191, R201). -/
def Slot.wake (t : Slot) : Slot := { t with st := .ready, held := .none, pc := t.nextPc t.npc }

/-- Whether a directly issued MMA of a slot is in the matrix unit, handed or started (R149). -/
def Core.directMma (x : Core) (i : Nat) : Bool :=
  let mine := fun (o : MxOp) => match o with
    | .step t => !t.seqr && t.slot = i
    | _ => false
  (x.mx.run.any fun e => mine e.1) || x.mx.queue.any mine

/-- Ends a slot's wait; its bundle is complete (R190, R191), unless an MMA beside it has still to retire (R149). -/
def State.wake (s : State) (c i : Nat) : State :=
  if (s.core c).directMma i then s.modSlot c i fun t => { t with st := .parked, held := .mma }
  else (s.modSlot c i Slot.wake).modCore c fun x => x.count 15 1

/-- Ends a slot's wait; its bundle issues afresh (R192, R312). -/
def State.rearm (s : State) (c i : Nat) : State :=
  (s.modSlot c i fun t => { t with st := .ready, held := .none }).modCore c fun x => x.count 15 1

/-! ### Messages between cores -/

/-- The longest way of a message between two cores: half of what R265 and R232 leave beside the home's own cycles. -/
def State.oneWay (s : State) (a b : Nat) : Nat := (s.latBound a b - 32) / 2

/-- The bytes that a built-in request touches (R264). -/
def reqSize : ReqOp → Nat
  | .load n _ | .store n => n
  | .vload | .vstore => 128
  | .amo _ wide => if wide then 8 else 4
  | _ => 4

/-- Whether two requests touch a common word (R271). -/
def reqMeets (a b : Req) : Bool :=
  a.addr / 4 ≤ (b.addr + reqSize b.op - 1) / 4 && b.addr / 4 ≤ (a.addr + reqSize a.op - 1) / 4

/-- Whether a message to a home comes in its sender's order: the path is healthy, and was when the message left (R264, R362). -/
def State.inOrder (s : State) (src home : Nat) (m : NetMsg) : Bool := !s.reroutedPath src home && !s.overtaken src home m

/-- Whether a queued arrival must come before a new request: any message of the same sender and home while the path
is healthy, and otherwise one of the same slot for the same word (R264, R271, R360, R362). -/
def State.sameOrder (s : State) (home : Nat) (r : Req) (e : Event) : Bool :=
  match e with
  | .remoteRequestArrive c (.builtin q) =>
    c = home && q.src = r.src && (s.inOrder r.src home (.builtin q) || (q.slot = r.slot && reqMeets q r))
  | .remoteRequestArrive c (.active m) => c = home && m.src = r.src && s.inOrder r.src home (.active m)
  | _ => false

/-- Whether the rank-table entry of a core is in transit (R352). -/
def State.inTransit (s : State) (src home : Nat) : Bool :=
  match s.gangOf src with
  | none => false
  | some g => g.ranks.any fun e => e.core = home && e.transit

/-- Sends an event to a core, or holds it at the sender while the rank moves (R265, R354). -/
def State.sendTo (s : State) (src home : Nat) (same : Event → Bool) (e : Event) : State :=
  if s.inTransit src home then { s with hub := { s.hub with held := s.hub.held ++ [(src, home, e)] } }
  else s.afterIn 1 (s.oneWay src home) same e

/-- Sends a message of a fixed latency, or holds it at the sender while the rank moves (R354). -/
def State.post (s : State) (src dest d : Nat) (e : Event) : State :=
  if s.inTransit src dest then { s with hub := { s.hub with held := s.hub.held ++ [(src, dest, e)] } } else s.after d e

/-- Sends a built-in request to its home (R264). -/
def State.sendReq (s : State) (home : Nat) (r : Req) : State :=
  s.sendTo r.src home (s.sameOrder home r) (.remoteRequestArrive home (.builtin r))

/-- Sends a join-counter update to its home: at once to the own core, as a built-in request to another (R234). -/
def State.sendJoin (s : State) (c i rank off : Nat) (up : Bool) : State :=
  let home := s.rankCore c rank
  if home = c then s.after 0 (.joinCounterUpdate c off up)
  else s.sendReq home ⟨c, i, false, 0, if up then .joinAdd else .joinSub, off, BitVec.ofNat 32 off, 0, 0, 0⟩

/-- The fields of a join reference in the layout of s[n+3] (R219). -/
def jrJV (x : W64) : Bool := x.getLsbD 63
def jrRank (x : W64) : Nat := fld x.toNat 48 11
def jrOff (x : W64) : Nat := fld x.toNat 0 20

/-- The decrement of a task or record that a cancellation or purge at a core ends, performed at its home (R234, R237); no
slot awaits it. -/
def State.joinDrop (s : State) (c : Nat) (j : W64) : State :=
  if jrJV j then s.sendJoin c 16 (jrRank j) (jrOff j) false else s

/-- An arrival at a core that takes effect though the core is banked, and that keeps it from banking in its cycle (R199,
R223, R283). -/
def State.hear (s : State) (c : Nat) : State := s.modCore c fun x => { x with busy := true }

/-- Begins the restart of a banked core (R200). -/
def State.stoke (s : State) (c : Nat) : State :=
  let x := s.core c
  if x.banked then
    (s.setCore c { x.count 14 1 with banked := false, restart := some (s.now + 40), busy := true }).after 40 (.restartEnd c)
  else s

/-- The effect of an event at a core: at once, or at the end of the restart that it begins or meets (R200). -/
def State.arrive (s : State) (c : Nat) (e : Event) (k : State → State) : State :=
  let x := s.core c
  if x.banked then (s.stoke c).after 40 e
  else
    match x.restart with
    | some t =>
      if s.now < t then { s.modCore c (fun y => { y with busy := true }) with agenda := agendaPut t e s.agenda }
      else k (s.modCore c fun y => { y with busy := true })
    | none => k (s.modCore c fun y => { y with busy := true })

/-- RESTART_END (R200): the restart is over. -/
def evRestartEnd (core : Nat) (s : State) : State :=
  match (s.core core).restart with
  | some t => if t ≤ s.now then s.modCore core fun x => { x with restart := none } else s
  | none => s

/-! ### Releasing what a slot owns -/

/-- Releases the accumulators, rings and cursors that a slot owns, the repetition buffer and the scan engine, its ports
and pipe ends, and unbinds its streams (R13, R107, R157, R222, R240, R306, R309). -/
def Core.release (x : Core) (i : Nat) : Core :=
  let mine := fun (o : Option Nat) => o = some i
  { x with
    acc := x.acc.map fun a => if mine a.owner then { a with owner := none } else a
    ring := x.ring.map fun r => if mine r.owner then { r with owner := none } else r
    cx := x.cx.map fun c =>
      if mine c.owner then
        { c with owner := none, st := .closed, a := { c.a with valid := false }, b := { c.b with valid := false } }
      else c
    su := x.su.map fun u => if mine u.owner then Stream.reset else u
    port := x.port.map fun p => if mine p.owner then { p with owner := none } else p
    pipe := x.pipe.map fun p =>
      let prod := if mine p.prod then none else p.prod
      let cons := if mine p.cons then none else p.cons
      if p.conf && prod.isNone && cons.isNone then ⟨false, 0, 0, 0, 0, 0, none, none, []⟩
      else { p with prod := prod, cons := cons }
    seqr := if mine x.seqr.owner then { x.seqr with owner := none, syl := [], want := 0, run := false, fault := none }
      else x.seqr
    scan := if mine x.scan.owner then { x.scan with owner := none, gv := false, opv := false, flue := none } else x.scan
    snaps := x.snaps.filter fun n => n.slot != i }

/-! ### Stopping a slot: the exceptions of R324 -/

/-- TCAUSE's value (R26). -/
def tcauseOf (q : StopReq) : W64 :=
  BitVec.ofNat 64 (q.detail.toNat * 2 ^ 32 + q.fetch.toNat * 64 + q.vhalf.toNat * 32 + q.cause)

/-- The skew between two cores (R209). -/
def State.skewOf (s : State) (a b : Nat) : Nat :=
  if s.die a = s.die b then 24 else if s.reroutedPath a b then 160 else 96

/-- Whether a bundle's S syllable is RDV (R204). -/
def isRdv (w : W64) : Bool := fld w.toNat 24 8 = 0x34 && fld w.toNat 0 6 = 7

/-- Tells the publisher of a slot's channel that its membership is AWAY or has ended (R213, R214), after the skew in force
(R209). -/
def State.notice (s : State) (c i : Nat) (n : Notice) : State :=
  let t := s.slot c i
  let p := s.ofTid c t.chan.toNat
  s.post c p.1 t.skew (.membershipNoticeArrive p.1 p.2 (s.tid c i) n)

/-- The messages of a membership still on their way: its join request, its refusal, and completions (R206, R215). -/
def State.ofMember (s : State) (c i : Nat) (e : Event) : Bool :=
  match e with
  | .joinRequestArrive k _ t => t = s.tid c i && (s.core k).gang = (s.core c).gang
  | .subscrRefusalArrive k j => k = c && j = i
  | .rdvCompletionArrive k j _ _ => k = c && j = i
  | _ => false

/-- The messages of a membership still on their way, or held on it, are withdrawn (R206, R215). -/
def State.unsent (s : State) (c i : Nat) : State :=
  { s with
    agenda := s.agenda.filter fun e => !s.ofMember c i e.2
    hub := { s.hub with
      wires := s.hub.wires.filter fun e => !s.ofMember c i e.2, held := s.hub.held.filter fun e => !s.ofMember c i e.2.2 } }

/-- The RDVs among bundles that are due. -/
def rdvsOf (l : List Due) : Nat := (l.filter fun d => isRdv d.bun.word).length

/-- A membership ends (R203, R214). -/
def State.endMembership (s : State) (c i : Nat) : State :=
  if (s.slot c i).mst = .none then s
  else
    ((s.unsent c i).notice c i .leave).modSlot c i fun t =>
      { t with mst := .none, chan := 0, trapov := false, due := [], ending := false, asked := 0 }

/-- A JOINED member becomes AWAY, or leaves a channel that has ended (R203, R205); an RDV among the bundles it discards
waits for its RESUB (R215). -/
def State.goAway (s : State) (c i : Nat) : State :=
  if (s.slot c i).ending then s.endMembership c i
  else
    (s.modSlot c i fun t => { t with mst := .away, due := [], asked := rdvsOf t.due }).notice c i
      .away

/-- A stop makes a JOINED membership AWAY and withdraws a PENDING one (R217, R192). -/
def State.stopMembership (s : State) (c i : Nat) : State :=
  match (s.slot c i).mst with
  | .joined => s.goAway c i
  | .pending => s.endMembership c i
  | _ => s

/-- Publishing ends without a closing bundle (R205): every member is told S cycles later. -/
def State.endPublish (s : State) (c i : Nat) : State :=
  let t := s.slot c i
  if t.pub then
    let s := s.modSlot c i fun t => { t with pub := false, members := [], rdv := none, late := [] }
    t.members.foldl (fun s m =>
      let h := s.ofTid c m.tid
      s.post c h.1 (max m.skew (s.skewOf c h.1)) (.publishEndArrive h.1 h.2 (s.tid c i))) s
  else s

/-- A 32-byte record enters the hub fault queue (R329, R372): mirrored in HBM, or waiting while 4,096 are unread. -/
def State.postRecord (s : State) (r : BitVec 256) : State :=
  if s.hub.fqprod - s.hub.fqcons ≥ 4096 then { s with hub := { s.hub with fqwait := s.hub.fqwait ++ [r] } }
  else
    { s with
      hbm := Memory.write s.hbm (s.hub.fqbase.toNat + 32 * (s.hub.fqprod % 4096)) 32 r.toNat
      hub := { s.hub with fqprod := s.hub.fqprod + 1 } }

/-- The words of a fault record (R329). -/
def faultBits (f : FaultRec) : BitVec 256 :=
  BitVec.ofNat 256 (f.fid * 2 ^ 48 + f.ctx * 2 ^ 32 + f.tid * 2 ^ 17 + f.tv.toNat * 2 ^ 16 + f.eng * 2 ^ 8 + f.unit * 2 ^ 4
    + f.wr.toNat * 8 + f.reason % 8 + f.va % 2 ^ 48 * 2 ^ 64 + (f.rank * 2 ^ 32 + f.pcore) * 2 ^ 128)

/-- The context a core serves. -/
def State.ctxOf (s : State) (c : Nat) : Nat := ((s.gangOf c).map (·.ctx)).getD 0

/-- The record of an engine's double-bit error (R332). -/
def State.eccRecord (s : State) (c eng unit tid va : Nat) : State :=
  s.postRecord (faultBits ⟨0, s.ctxOf c, tid, true, eng, unit, false, 4, va, (s.core c).rank, c⟩)

/-- The strips a write stream still holds after a return to the mark: those pushed before it (R334). -/
def Stream.rolled (cur old : Stream) : Stream :=
  if old.write then
    { old with staged := cur.staged.take (old.count - cur.moved), moved := cur.moved, flight := cur.flight, fid := cur.fid }
  else { old with staged := [], moved := old.count, flight := false, ticket := none, fid := cur.fid }

/-- The return of an open region to its mark (R334): the PC, cursors, scan engine and streams of the slot, and its copy
commands of the region. -/
def State.rollback (s : State) (c i : Nat) : State :=
  match (s.core c).snaps.find? (fun n => n.slot = i) with
  | none => s.modSlot c i fun t => { t with pc := t.mark.zeroExtend 64 }
  | some n =>
    let x := s.core c
    let gone := (x.cq.toList.flatten.filter fun q => q.slot = i && q.region).filterMap (·.fid)
    let y : Core := { x with
      cx := x.cx.mapIdx fun k u =>
        if u.owner = some i || u.owner = none then
          match n.cursors.find? (fun e => e.1 = k) with
          | some e => e.2
          | none => if u.owner = some i then Cursor.reset else u
        else u
      su := x.su.mapIdx fun k u =>
        if u.owner = some i || u.owner = none then
          match n.streams.find? (fun e => e.1 = k) with
          | some e => Stream.rolled u e.2
          | none => if u.owner = some i then Stream.reset else u
        else u
      scan := if x.scan.owner = some i then
          { x.scan with
            run := n.scan.run, cin := n.scan.cin, tot := n.scan.tot, tiles := x.scan.tiles.filter fun t => !t.region }
        else x.scan
      cq := x.cq.map fun l => l.filter fun q => !(q.slot = i && q.region) }
    let s := { s.setCore c y with
      hub := { s.hub with faults := s.hub.faults.filter fun f => !gone.contains f.info.fid } }
    s.modSlot c i fun t => { t with pc := t.mark.zeroExtend 64 }

/-- What a cancellation takes from a slot beside stopping it (R13, R203, R205, R237, R301): its units, its membership and
publishing, its messages and credits, and its task, whose join decrement is sent. -/
def State.cancelled (s : State) (c i : Nat) : State :=
  let j := (s.slot c i).curj
  let s := (s.endMembership c i).endPublish c i
  let s := s.modCore c fun x => x.release i
  (s.joinDrop c j).modSlot c i fun t =>
    { t with curj := t.curj &&& 0x7FFFFFFFFFFFFFFF#64, doomed := false, mail := [], credits := 0 }

/-- Adds a record to a trap queue: behind those of earlier cycles, and by slot among those of its own (R326). -/
def trapPut (r : TrapRec) : List TrapRec → List TrapRec
  | [] => [r]
  | q :: l => if q.cycle = r.cycle && r.slot < q.slot then r :: q :: l else q :: trapPut r l

/-- The record of a slot's stop in cycle `now` joins the core's trap queue in place of any it holds (R326). -/
def Core.postTrap (x : Core) (now i : Nat) (tc : W64) : Core :=
  { x with trapq := trapPut ⟨i, tc, (x.slot i).pc, now⟩ (x.trapq.filter fun r => r.slot != i) }

/-- The members whose reports the RDV under way still awaits (R215). -/
def Slot.awaited (t : Slot) : List Nat := (t.rdv.map (·.waits)).getD []

/-- The stop itself (R26, R192, R326, R327): the slot is STOPPED, TCAUSE is written, capture closes (R158), an open
region rolls back at a pre-emption, and the record is posted. Slot 15 posts none: the hub is told, and restarts it. -/
def State.stopNow (s : State) (c i : Nat) (q : StopReq) : State :=
  let s := s.stopMembership c i
  let s := s.modSlot c i fun t =>
    { t with st := .stopped, held := .none, stop := none, rdv := none, late := t.late ++ t.awaited
             stopped := if q.quiet then none else some s.now, tcause := if q.quiet then t.tcause else tcauseOf q }
  let s := if (s.slot c i).doomed then s.cancelled c i else s
  let s := s.modCore c fun x =>
    if x.seqr.owner = some i && x.seqr.want != 0 && !q.quiet then
      { x with seqr := { x.seqr with want := 0, syl := [] } }
    else x
  if q.quiet then s
  else if q.cause = cPREEMPT then (if (s.slot c i).imv then s.rollback c i else s)
  else if i = 15 then
    (s.postRecord (faultBits ⟨0, s.ctxOf c, s.tid c 15, true, 8, 0, false, 0, (s.slot c 15).pc.toNat,
      (s.core c).rank, c⟩)).after 1 (.slot15Restart c)
  else s.modCore c fun x => x.postTrap s.now i (tcauseOf q)

/-- The stop of lower code of two (R324). -/
def StopReq.min (q : StopReq) (o : Option StopReq) : StopReq :=
  match o with
  | some p => if q.cause < p.cause && !q.quiet then q else if p.quiet then q else p
  | none => q

/-- A stop at its point of R192: at once, or once every relaxed access of the slot has completed (R270). -/
def State.stopAt (s : State) (c i : Nat) (q : StopReq) : State :=
  if (s.slot c i).relaxed.isEmpty then s.stopNow c i q
  else s.modSlot c i fun t => { t with st := .parked, held := .stopping, stop := some (q.min t.stop) }

/-- A trap of the bundle the executing slot issues (R71): the bundle has had no effect. -/
def State.takeTrap (s : State) (cause : Nat) (detail : W32) (vhalf fetch : Bool) : State :=
  { s with nonce := s.nonce + 1 }.stopAt s.cur.1 s.cur.2 ⟨cause, detail, vhalf, fetch, false⟩

/-- The cause that a slot's TCAUSE names (R26). -/
def Slot.cause (t : Slot) : Nat := fld t.tcause.toNat 0 5

/-- Whether a cause that reaches a STOPPED slot is of the cycle in which a cause stopped it and of lower code than that one,
which it replaces (R324); a SLOTSTOP.stop names no cause (R325, R342). -/
def State.outranks (s : State) (c i : Nat) (q : StopReq) : Bool :=
  (s.slot c i).stopped = some s.now && !q.quiet && q.cause < (s.slot c i).cause

/-- TCAUSE and the trap record of a stopped slot name another cause (R324, R325); PREEMPT rolls an open region back and
leaves no record (R326, R334). -/
def State.recause (s : State) (c i : Nat) (q : StopReq) : State :=
  let s := s.modSlot c i fun t => { t with tcause := tcauseOf q }
  if q.cause = cPREEMPT then
    let s := s.modCore c fun x => { x with trapq := x.trapq.filter fun r => r.slot != i }
    if (s.slot c i).imv then s.rollback c i else s
  else if i = 15 then s
  else s.modCore c fun x => x.postTrap s.now i (tcauseOf q)

/-- A further cause at a STOPPED slot (R324, R325): CANCELLED, or one of lower code in the cycle of the stop, replaces the
cause; a TIMER that is not or no longer named is kept in TPEND. -/
def State.stopAgain (s : State) (c i : Nat) (q : StopReq) : State :=
  if q.cause = cCANCELLED && !q.quiet then (s.recause c i q).cancelled c i
  else if s.outranks c i q then
    let timer := (s.slot c i).cause = cTIMER
    let s := s.recause c i q
    if timer then s.modSlot c i fun t => { t with tpend := true } else s
  else if q.cause = cTIMER then s.modSlot c i fun t => { t with tpend := true }
  else s

/-- Whether the step of a slot's direct MMA has started (R151). -/
def Core.mmaStarted (x : Core) (i : Nat) : Bool :=
  match x.mx.run with
  | some (.step t, _) => !t.seqr && t.slot = i
  | _ => false

/-- Whether a stop takes effect at once on a slot held so (R192); the others stop after completion. -/
def Core.stopsAtOnce (x : Core) (i : Nat) (h : Held) : Bool :=
  match h with
  | .divide | .matrix | .remote _ _ | .acquire _ | .push _ | .incr _ _ _ | .send | .cancell _ _ | .scnfix
  | .hubcmd _ _ => false
  | .mma => !x.mmaStarted i
  | .taskend sent => !sent
  | _ => true

/-- The held operation of a slot that stops at once leaves no trace in its unit (R98, R151); a Flue operation that has
taken part stays in its round (R257). -/
def Core.withdraw (x : Core) (i : Nat) (h : Held) : Core :=
  match h with
  | .fe _ => { x with feWait := x.feWait.filter fun w => !(w.remote.isNone && w.slot = i) }
  | .mma => { x with mx := { x.mx with queue := x.mx.queue.filter fun o =>
      match o with
      | .step t => t.seqr || t.slot != i
      | _ => true } }
  | .flue =>
    match x.scan.flue with
    | some f => if f.part.isNone then { x with scan := { x.scan with flue := none } } else x
    | none => x
  | .cpyw id => { x with cq := x.cq.map fun l => l.map fun q => if q.id = id then { q with detached := true } else q }
  | _ => x

/-- A TIMER and a stop of lower code that await the same point: TPEND keeps the TIMER (R325). -/
def State.keepTimer (s : State) (c i : Nat) (q : StopReq) : State :=
  let two := match (s.slot c i).stop with
    | some p => (p.cause = cTIMER && q.cause < cTIMER && !q.quiet) || (q.cause = cTIMER && p.cause < cTIMER)
    | none => false
  if two then s.modSlot c i fun t => { t with tpend := true } else s

/-- A cancellation that reaches a slot, to take what R237 says when it stops, whatever cause its stop then names. -/
def State.doom (s : State) (c i : Nat) (q : StopReq) : State :=
  if q.cause = cCANCELLED && !q.quiet && (s.slot c i).st != .idle then s.modSlot c i fun t => { t with doomed := true }
  else s

/-- A trap, pre-emption, cancellation or stop reaches a slot from outside its bundle (R192, R276, R296, R325). -/
def State.requestStop (s : State) (c i : Nat) (q : StopReq) : State :=
  let s := (s.keepTimer c i q).doom c i q
  let t := s.slot c i
  match t.st with
  | .idle => s
  | .stopped => s.stopAgain c i q
  | .ready => s.stopAt c i (q.min t.stop)
  | _ =>
    match t.held with
    | .stopping => s.modSlot c i fun t => { t with stop := some (q.min t.stop) }
    | .remote home true =>
      let again := t.stop.isSome
      let s := s.modSlot c i fun t => { t with stop := some (q.min t.stop) }
      if again then s
      else
        s.sendTo c home (fun e => match e with
          | .remoteRequestArrive k (.builtin r) => k = home && r.src = c
          | _ => false) (.feWithdrawalArrive home c i)
    | .cpyw id =>
      if (s.core c).directMma i then s.modSlot c i fun t => { t with stop := some (q.min t.stop) }
      else
        let s := s.modCore c fun x => x.withdraw i (.cpyw id)
        (s.modSlot c i fun t => { t with pc := t.npc }).stopAt c i q
    | h =>
      if (s.core c).stopsAtOnce i h && !(s.core c).mmaStarted i then
        (s.modCore c fun x => (x.withdraw i h).withdraw i .mma).stopAt c i q
      else s.modSlot c i fun t => { t with stop := some (q.min t.stop) }

/-- A pending stop of a slot is asked for again: what it waited for may be over (R151, R192). -/
def State.restop (s : State) (c i : Nat) : State :=
  match (s.slot c i).stop with
  | some q => (s.modSlot c i fun t => { t with stop := none }).requestStop c i q
  | none => s

/-- What an open region keeps for a pre-emption (R334): the cursors and the stream units that a slot owns, and the scan
registers. -/
def Core.snapOf (x : Core) (i : Nat) : Snap :=
  ⟨i, x.cx.toList.zipIdx.filterMap (fun e => if e.1.owner = some i then some (e.2, e.1) else none),
    x.scan, x.su.toList.zipIdx.filterMap (fun e => if e.1.owner = some i then some (e.2, e.1) else none)⟩

/-- The mark of a region moves, or the region ends: nothing queued belongs to it yet (R333, R334). -/
def Core.remark (x : Core) (i : Nat) (snap : Option Snap) : Core :=
  { x with
    snaps := x.snaps.filter (fun n => n.slot != i) ++ snap.toList
    cq := x.cq.map fun l => l.map fun k => if k.slot = i then { k with region := false } else k
    scan := if x.scan.owner = some i then { x.scan with tiles := x.scan.tiles.map fun t => { t with region := false } }
      else x.scan }

/-- A STOPPED slot becomes READY from the next cycle, its record removed; a pending TIMER stops it again (R325, R342). A
restored slot with an open region runs again from its MARK, with the units as they stand as the region's mark (R336). -/
def State.resumeSlot (s : State) (c i : Nat) : State :=
  let t := s.slot c i
  if t.st = .stopped then
    let s := s.modCore c fun x => { x with trapq := x.trapq.filter fun r => r.slot != i }
    let s := s.modSlot c i fun t => { t with st := .ready }
    let s := if t.imv && !((s.core c).snaps.any fun n => n.slot = i) then
        (s.modSlot c i fun t => { t with pc := t.mark.zeroExtend 64 }).modCore c fun x => x.remark i (some (x.snapOf i))
      else s
    if t.tpend then
      (s.modSlot c i fun t => { t with tpend := false }).requestStop c i ⟨cTIMER, 0, false, false, false⟩
    else s
  else s

/-! ### Ending a bundle -/

/-- Sets what the executing slot awaits, and its state (R189). -/
def State.await (s : State) (st : SlotSt) (h : Held) : State := s.modMe fun t => { t with st := st, held := h }

/-- The executing slot's bundle has issued (R196, R201). -/
def State.issued (s : State) : State :=
  (s.modMe fun t => { t with last := some s.now }).modMy fun x => x.count 8 1

/-- The executing slot's bundle comes to its end (R57, R71, R99, R192); `go` says where the slot goes on, given where
its own code would. A bundle that faults or waits afresh has not issued (R71, R312). -/
def State.finishBy (s0 : State) (go : State → W64 → W64) (vhalf : Bool) (r : Res) : State :=
  match r with
  | .ok s => (s.modMe fun t => { t with pc := go s (t.pc + 8) }).issued
  | .jump pc s => (s.modMe fun t => { t with pc := go s pc }).issued
  | .hold next s => (s.modMe fun t => { t with npc := go s (next.getD (t.pc + 8)) }).issued
  | .again h => (s0.await .parked h).modMe fun t => { t with npc := t.pc }
  | .trap c d => s0.takeTrap c d vhalf false
  | .halt c d s => (s.modMe fun t => { t with pc := go s (t.pc + 8) }).issued.takeTrap c d vhalf false
  | .stop q s => s.stopAt s.cur.1 s.cur.2 q

/-- The end of a bundle that is no lockstep bundle. -/
def State.finish (s0 : State) (vhalf : Bool) (r : Res) : State := s0.finishBy (fun _ pc => pc) vhalf r

/-- The outcome of an instruction that issues alone. -/
def State.done (s0 : State) (vhalf : Bool) (r : Res) : Host.Outcome State Fault Refusal := .next (s0.finish vhalf r)

/-! ### Capture (R158) and the faults of sequencer syllables (R164) -/

/-- The bundle that issues records its V syllable while the slot's capture is open (R158); word 0 is VNOP. -/
def State.capture (s : State) (w : W32) : State :=
  if s.my.seqr.owner = some s.cur.2 && s.my.seqr.want != 0 then
    s.modMy fun x => { x with seqr := { x.seqr with syl := x.seqr.syl ++ [w], want := x.seqr.want - 1 } }
  else s

/-- The stop that delivers a sequencer syllable's fault (R164). -/
def SeqFault.req (f : SeqFault) : StopReq :=
  ⟨f.cause, BitVec.ofNat 32 (f.t * 65536 + f.k * 4096 + f.detail.toNat % 4096), true, false, false⟩

/-- The fault that the next REPWAIT, REPGO, REPCAP, HALT or V syllable of the executing slot delivers (R164). -/
def State.seqFault (s : State) : Option Res :=
  match s.my.seqr.fault with
  | some f =>
    if s.my.seqr.owner = some s.cur.2 then
      some (.stop f.req (s.modMy fun x => { x with seqr := { x.seqr with fault := none } }))
    else none
  | none => none

/-- A V syllable at issue (R158, R162, R164): `w` is its word, 0 for VNOP, `ill` whether it may not be captured. -/
def State.gate (s : State) (w : W32) (ill : Bool) (k : State → Res) : Res :=
  let q := s.my.seqr
  if q.owner != some s.cur.2 || w = 0 then k (s.capture w)
  else
    match s.seqFault with
    | some r => r
    | none =>
      if q.want != 0 then (if ill then .trap cILLEGAL 0 else .ok (s.capture w))
      else if q.run then .again .seqEnd
      else k s

/-! ### Meanings -/

/-- RESTART_END (R200). -/
def execRestartEnd (core : Nat) (s : State) : Host.Outcome State Fault Refusal := .next (evRestartEnd core s)

end Sys2Proof.Machine
end

