-- ==== Sys2Proof/Machine/Capture.lean ====
section
/-! DEFINITION. How one instruction issues in a bundle of its own: an S syllable beside VNOP, a long form, or a V syllable
beside NOP; with the capture of R158. -/

namespace Sys2Proof.Machine

/-- An S syllable, or a long form, alone: an open capture records VNOP (R158). -/
def State.aloneS (s : State) (k : State → Res) : Host.Outcome State Fault Refusal := s.done false (k (s.capture 0))

/-- A V syllable alone; `ill`: it may not be captured (R158). -/
def State.aloneV (s : State) (i : Instr) (ill : Bool) (k : State → Res) : Host.Outcome State Fault Refusal :=
  s.done true (s.gate (BitVec.ofNat 32 (encode i)) ill k)

end Sys2Proof.Machine
end

