-- ==== Sys2Proof/Machine/Operands.lean ====
section
/-! DEFINITION. Operand forms: pattern blocks (R289, R290), stream registers as sources and destinations (R22, R91,
R110 to R112, R307 to R312), and the scheme that a V syllable's operands follow (R69 to R71, R109). -/

namespace Sys2Proof.Machine

/-! ### Pattern blocks -/

/-- The extent of a dimension (R289). -/
def patN (b : BitVec 512) (k : Nat) : Nat := fld b.toNat (16 * k) 16
/-- The source stride of a dimension (R289). -/
def patSS (b : BitVec 512) (k : Nat) : Int := sgn 32 (fld b.toNat (64 + 32 * k) 32)
/-- The destination stride of a dimension (R289). -/
def patDS (b : BitVec 512) (k : Nat) : Int := sgn 32 (fld b.toNat (192 + 32 * k) 32)
/-- The lowest valid index of a dimension (R289). -/
def patPL (b : BitVec 512) (k : Nat) : Nat := fld b.toNat (320 + 16 * k) 16
/-- The first invalid index of a dimension (R289). -/
def patPH (b : BitVec 512) (k : Nat) : Nat := fld b.toNat (384 + 16 * k) 16
/-- The pad word (R289). -/
def patPad (b : BitVec 512) : Nat := fld b.toNat 448 32
/-- The element size in bytes: a word or a strip (R289, R290). -/
def patE (b : BitVec 512) : Nat := if fld b.toNat 480 2 = 1 then 128 else 4

/-- A malformed block (R289): a zero extent, a reserved value, a stride that is no multiple of 4, or destination
strides where there are none. -/
def patMalformed (b : BitVec 512) (strided : Bool) : Bool :=
  [0, 1, 2, 3].any (fun k => patN b k = 0 || patSS b k % 4 != 0 || patDS b k % 4 != 0)
    || fld b.toNat 482 30 != 0 || fld b.toNat 480 2 ≥ 2 || (!strided && fld b.toNat 192 128 != 0)

/-- The number of elements of a walk (R290). -/
def patCount (b : BitVec 512) : Nat := patN b 0 * patN b 1 * patN b 2 * patN b 3

/-- Index k of element e (R290). -/
def patIdx (b : BitVec 512) (e k : Nat) : Nat :=
  match k with
  | 0 => e % patN b 0
  | 1 => e / patN b 0 % patN b 1
  | 2 => e / (patN b 0 * patN b 1) % patN b 2
  | _ => e / (patN b 0 * patN b 1 * patN b 2) % patN b 3

/-- Whether element e is valid, or a pad element (R290). -/
def patValid (b : BitVec 512) (e : Nat) : Bool :=
  [0, 1, 2, 3].all fun k => patPL b k ≤ patIdx b e k && patIdx b e k < patPH b k

/-- The source offset of element e (R290). -/
def patSrc (b : BitVec 512) (base : Int) (e : Nat) : Int :=
  [0, 1, 2, 3].foldl (fun a k => a + patIdx b e k * patSS b k) base

/-- The destination offset of element e under destination strides (R290, CPYT). -/
def patDst (b : BitVec 512) (base : Int) (e : Nat) : Int :=
  [0, 1, 2, 3].foldl (fun a k => a + patIdx b e k * patDS b k) base

/-! ### Streams -/

/-- The unit a register of a slot is bound to, by number (R306). -/
def State.bound (s : State) (c i r : Nat) : Option (Nat × Stream) :=
  if 24 ≤ r && r < 32 then
    let u := vget (s.core c).su (r - 24) Stream.reset
    if u.owner = some i && u.kind != .none then some (r - 24, u) else none
  else none

/-- Sets a stream unit. -/
def Core.setSu (x : Core) (u : Nat) (y : Stream) : Core := { x with su := vset x.su u y }

/-- What a pop comes to: a strip and its effects, no strip yet, or a trap. -/
inductive PopR where
  | got (v : VReg) (fx : State → State)
  | wait
  | bad (cause : Nat) (detail : W32)

/-- A stream's end reported in its predicate (R311). -/
def endPred (u : Nat) (y : Stream) (c i : Nat) (last : Bool) (s : State) : State :=
  let s := s.modCore c fun x => x.setSu u { y with ended := y.ended || last }
  if last then s.modSlot c i fun t => t.wp y.pred true else s

/-- A pipe of a core. -/
def Core.pipeOf (x : Core) (n : Nat) : Pipe := vget x.pipe n ⟨false, 0, 0, 0, 0, 0, none, none, []⟩
/-- A port of a core. -/
def Core.portOf (x : Core) (n : Nat) : Port := vget x.port n ⟨none, [], []⟩

/-- The strip 32 copies of a word make. -/
def padStrip (w : Nat) : VReg := VReg.ofElems 32 fun _ => w

/-- Removes the oldest strip of a pipe (R222). -/
def Pipe.pop (p : Pipe) : Pipe :=
  { p with head := (p.head + 1) % p.depth, count := p.count - 1, ends := p.ends.filter fun e => e != p.head }

/-- Pops the next strip of unit `u` of the slot (R110, R308, R309, R311); without an active lane nothing is read and no
address is checked (R70). `pre` is the state before the bundle. -/
def popStream (pre : State) (c i u : Nat) (y : Stream) (active : Bool) : PopR :=
  let next := { y with count := y.count + 1 }
  if y.ended then .bad cHANDLE (hDetail 2 (24 + u))
  else
    match y.kind with
    | .none => .bad cHANDLE (hDetail 1 (24 + u))
    | .pattern =>
      if y.count ≥ patCount y.blk then .bad cHANDLE (hDetail 2 (24 + u))
      else
        let last := y.count + 1 ≥ patCount y.blk
        let off := patSrc y.blk y.base y.count
        if !active then .got 0 (endPred u next c i last)
        else if !patValid y.blk y.count then .got (padStrip (patPad y.blk)) (endPred u next c i last)
        else
          match segLocal y.seg off 128 4 .load with
          | .at a =>
            if (pre.core c).bad a 128 then .bad cECCFATAL (offDetail off)
            else .got (BitVec.ofNat 1024 ((pre.core c).rd a 128)) fun s => endPred u next c i last (s.touch c a 128)
          | .remote _ _ => .bad cSPACE (offDetail off)
          | .bad e => .bad e (offDetail off)
    | .global =>
      if y.count ≥ patCount y.blk then .bad cHANDLE (hDetail 2 (24 + u))
      else
        match y.staged with
        | [] =>
          match y.failed with
          | some f => .bad cPAGEFATAL (BitVec.ofNat 32 f)
          | none => .wait
        | (t, _) :: rest =>
          let a := y.stgOf y.count
          let fx := endPred u { next with staged := rest } c i (y.count + 1 ≥ patCount y.blk)
          if !active then .got t.v fx
          else if t.bad || (pre.core c).bad a 128 then .bad cECCFATAL (offDetail (patSrc y.blk y.base y.count))
          else .got t.v fun s => fx (s.touch c a 128)
    | .port =>
      if (pre.slot c i).imv then .bad cIDEMADD ((pre.slot c i).mark.zeroExtend 32) else
      match ((pre.core c).portOf y.num).fifo with
      | [] => .wait
      | t :: rest =>
        .got (if t.last then 0 else t.v) fun s =>
          endPred u next c i t.last
            (s.modCore c fun x => { x with port := vset x.port y.num { x.portOf y.num with fifo := rest } })
    | .pipe =>
      let p := (pre.core c).pipeOf y.num
      if p.count = 0 then .wait
      else
        let a := p.base + 128 * p.head
        let last := p.ends.contains p.head
        let fx := fun (s : State) =>
          endPred u next c i last (s.modCore c fun x =>
            if (vget x.su u Stream.reset).count = y.count then { x with pipe := vset x.pipe y.num (x.pipeOf y.num).pop }
            else x)
        if last || !active then .got 0 fx
        else if (pre.core c).bad a 128 then .bad cECCFATAL (BitVec.ofNat 32 a)
        else .got (BitVec.ofNat 1024 ((pre.core c).rd a 128)) fun s => fx (s.touch c a 128)

/-- The lanes whose words a push of elements of width `w` writes under a mask (R108, R110). -/
def laneMask (m : W32) (w : Nat) : W32 :=
  if w = 64 then (m &&& 0x55555555#32) ||| ((m &&& 0x55555555#32) <<< 1) else m

/-- Stores the active words of a strip (R110). -/
def storeLanes (x : Core) (a : Nat) (v : VReg) (m : W32) : Core :=
  (List.range 32).foldl (fun x j => if m.getLsbD j then x.wr (a + 4 * j) 4 (VReg.elem v 32 j) else x) x

/-- A strip with 0 in its inactive lanes (R110). -/
def zeroLanes (v : VReg) (m : W32) : VReg := VReg.ofElems 32 fun j => if m.getLsbD j then VReg.elem v 32 j else 0

/-- Adds a strip to a pipe (R222). -/
def pipePush (x : Core) (n : Nat) (v : VReg) (last : Bool) : Core :=
  let p := x.pipeOf n
  let x := if last then x else x.wr (p.base + 128 * p.tail) 128 v.toNat
  { x with pipe := vset x.pipe n { p with
      tail := (p.tail + 1) % p.depth, count := p.count + 1, ends := if last then p.tail :: p.ends else p.ends } }

/-- Whether SCLOSE or HALT may release a unit: its writes are drained, or its pipe has a place (R107, R313). -/
def Core.closeReady (x : Core) (y : Stream) : Bool :=
  !y.write || (match y.kind with
    | .global => y.staged.isEmpty && !y.flight
    | .pipe => (x.pipeOf y.num).count < (x.pipeOf y.num).depth
    | _ => true)

/-- Releases a unit: a write binding of a pipe pushes an end strip, and a port that no other unit of the slot is bound to
loses its owner (R309, R313). -/
def Core.closeUnit (x : Core) (u : Nat) : Core :=
  let y := vget x.su u Stream.reset
  let x := x.setSu u Stream.reset
  match y.kind with
  | .pipe => if y.write then pipePush x y.num 0 true else x
  | .port =>
    if x.su.toList.any fun z => z.kind = .port && z.num = y.num && z.owner = y.owner then x
    else { x with port := vset x.port y.num { x.portOf y.num with owner := none } }
  | _ => x

/-- Free words that a slot's push, or the engine, writes in the staging area of a unit, whose contents a slot is not promised;
an engine's write leaves FE full (R277, R308). -/
def State.scramble (s : State) (c : Nat) (y : Stream) (k : Nat) (engine : Bool) : State :=
  let v := packN 8 (fun b => Config.free (s.nonce + 2 ^ 64 * (b + 1))) 128
  let a := y.stgOf k
  { s.modCore c fun x => if engine then x.engWr a 128 v else x.wr a 128 v with nonce := s.nonce + 1 }

/-- The strips a staging area holds: 4 KiB (R307, R308). -/
def stageStrips : Nat := 32

/-- Whether a push to unit `u` finds no place, or traps, before any value is known (R112, R308, R312). -/
def pushCheck (pre : State) (c u : Nat) (y : Stream) (active : Bool) : PopR :=
  if y.ended then .bad cHANDLE (hDetail 2 (24 + u))
  else
    match y.kind with
    | .none | .port => .bad cHANDLE (hDetail 1 (24 + u))
    | .pattern =>
      if y.count ≥ patCount y.blk then .bad cHANDLE (hDetail 2 (24 + u))
      else if !active || !patValid y.blk y.count then .got 0 id
      else
        let off := patSrc y.blk y.base y.count
        match segLocal y.seg off 128 4 .store with
        | .at _ => .got 0 id
        | .remote _ _ => .bad cSPACE (offDetail off)
        | .bad e => .bad e (offDetail off)
    | .global =>
      if y.count ≥ patCount y.blk then .bad cHANDLE (hDetail 2 (24 + u))
      else if y.staged.length ≥ stageStrips then .wait
      else .got 0 id
    | .pipe =>
      let p := (pre.core c).pipeOf y.num
      if p.count ≥ p.depth then .wait else .got 0 id

/-- Pushes a strip to unit `u` once its check has passed (R110, R308). -/
def pushStream (c u : Nat) (y : Stream) (v : VReg) (m : W32) (s : State) : State :=
  let next := { y with count := y.count + 1 }
  let s := if y.kind = .global then s.scramble c y y.count false else s
  s.modCore c fun x =>
    match y.kind with
    | .none | .port => x
    | .pattern =>
      let off := patSrc y.blk y.base y.count
      let x := if m != 0 && patValid y.blk y.count then storeLanes x (sgBase y.seg + off).toNat v m else x
      x.setSu u next
    | .global => x.setSu u { next with staged := y.staged ++ [(⟨zeroLanes v m, false, false⟩, if m = 0 then 0xFFFFFFFF#32 else m)] }
    | .pipe => (pipePush x y.num (zeroLanes v m) false).setSu u next

/-! ### The operands of an instruction -/

/-- The lowest of two causes, the first when they are equal (R324). -/
def minTrap (a b : Option (Nat × W32)) : Option (Nat × W32) :=
  match a, b with
  | none, b => b
  | a, none => a
  | some x, some y => if y.1 < x.1 then some y else some x

/-- The pop of a source, when it is bound; nothing otherwise. -/
def srcPop (pre : State) (active : Bool) (r : Nat) : Option PopR :=
  match pre.bound pre.cur.1 pre.cur.2 r with
  | none => none
  | some (u, y) =>
    some (if y.write then .bad cHANDLE (hDetail 1 r) else popStream pre pre.cur.1 pre.cur.2 u y active)

/-- The check of a destination, when it is bound; nothing otherwise. `both`: the instruction also reads it (R112). -/
def dstCheck (pre : State) (active both : Bool) (r : Nat) : Option PopR :=
  match pre.bound pre.cur.1 pre.cur.2 r with
  | none => none
  | some (u, y) =>
    some (if both || !y.write then .bad cHANDLE (hDetail 1 r) else pushCheck pre pre.cur.1 u y active)

/-- The trap of a pop or check. -/
def PopR.trap : PopR → Option (Nat × W32)
  | .bad c d => some (c, d)
  | _ => none

/-- Whether a pop or check waits. -/
def PopR.waits : PopR → Bool
  | .wait => true
  | _ => false

/-- The effects of a pop. -/
def PopR.fx : PopR → State → State
  | .got _ f => f
  | _ => id

/-- Whether a source has its value: an unbound register, or a strip that is there. A check of an operand's value needs it: a
strip that is awaited, or faults, comes first (R71, R312). -/
def srcReady (pre : State) (active : Bool) (r : Nat) : Bool :=
  match srcPop pre active r with
  | none => true
  | some p => p.trap.isNone && !p.waits

/-- The value of a source: the popped strip, or the register (R22). -/
def srcVal (pre : State) (active : Bool) (r : Nat) : VReg :=
  match srcPop pre active r with
  | some (.got v _) => v
  | _ => pre.me.rv r

/-- The operands of an instruction that reads the registers `srcs`, writes `dst` and reads and writes `both`: the fault
of lowest code first (`dec` is the instruction's own), then the wait for strips and places; otherwise it goes on with the state in
which every strip has been popped (R22, R69, R71, R110 to R112, R312). Of two strips that fail with one cause, DETAIL is that of the
first source, in field order, and a source's before the destination's: DESIGN CHOICE (log entry 121). -/
def withOperands (pre cur : State) (srcs dst both : List Nat) (active : Bool) (dec : Option (Nat × W32))
    (k : State → Res) : Res :=
  let ps := srcs.eraseDups.filterMap (srcPop pre active)
  let ds := dst.filterMap (dstCheck pre active false) ++ both.filterMap (dstCheck pre active true)
  let all := ps ++ ds
  let traps := minTrap (all.foldl (fun t p => minTrap t p.trap) none) dec
  match traps with
  | some (c, d) => .trap c d
  | none =>
    if all.any PopR.waits then
      .again (.strip (srcs.eraseDups.filter fun r => (srcPop pre active r).any PopR.waits)
        (dst.filter fun r => (dstCheck pre active false r).any PopR.waits))
    else k (ps.foldl (fun s p => p.fx s) cur)

/-- Writes a vector result: into the register, or as a strip with the lanes of `m` active (R22, R91, R110). -/
def putV (pre cur : State) (r : Nat) (v : VReg) (m : W32) : State :=
  match pre.bound pre.cur.1 pre.cur.2 r with
  | some (u, y) => pushStream pre.cur.1 u y v m cur
  | none => cur.wv r v

/-- New elements of width `w` in the active places, old ones elsewhere (R109). -/
def mergeElems (w : Nat) (m : W32) (old : VReg) (f : Nat → Nat) : VReg :=
  VReg.ofElems w fun e => if active m w e then f e else VReg.elem old w e

/-- An instruction that writes the active elements of width `w` of `d` with `f e`, raising each one's flags
(R109). With no active element only its strips move (R70). -/
def elemwise (pre cur : State) (srcs : List Nat) (d : Nat) (m : W32) (w : Nat) (dec : Option (Nat × W32))
    (f : Nat → Nat × Flg) : Res :=
  withOperands pre cur srcs [d] [] (anyActive m w) dec fun cur =>
    if anyActive m w then
      let cur := putV pre cur d (mergeElems w m (pre.me.rv d) fun e => (f e).1) (laneMask m w)
      .ok (cur.raise pre.cur.1 pre.cur.2
        (((List.range (1024 / w)).filter fun e => active m w e).map fun e => (f e).2))
    else .ok (match pre.bound pre.cur.1 pre.cur.2 d with
      | some (u, y) => pushStream pre.cur.1 u y 0 0 cur
      | none => cur)

end Sys2Proof.Machine
end

