-- ==== Sys2Proof/Machine/Deque.lean ====
section
/-! DEFINITION. Task records, deques and die queues (R219 to R224), the delivery of records (R227), pushes and their
acknowledgement (R226, R233), and join counters (R234, R235). -/

namespace Sys2Proof.Machine

/-! ### Records -/

/-- The lineage tag of a record (R219). -/
def trLin (r : TaskRec) : Nat := fld r.w2.toNat 48 16
/-- Die affinity (R219). -/
def trAffv (r : TaskRec) : Bool := r.w2.getLsbD 43
/-- The affinity die (R219). -/
def trAff (r : TaskRec) : Nat := fld r.w2.toNat 40 3
/-- The priority band (R219). -/
def trBand (r : TaskRec) : Nat := fld r.w2.toNat 6 2
/-- Whether it is a range record (R219). -/
def trRange (r : TaskRec) : Bool := r.w2.getLsbD 5
/-- The stage (R219). -/
def trStage (r : TaskRec) : Nat := fld r.w2.toNat 0 3
/-- LO of a range (R219). -/
def trLo (r : TaskRec) : Nat := fld r.arg1.toNat 0 32
/-- HI of a range (R219). -/
def trHi (r : TaskRec) : Nat := fld r.arg1.toNat 32 32
/-- The length of a range (R220). -/
def trLen (r : TaskRec) : Nat := trHi r - trLo r
/-- The same record with another range. -/
def trSpan (r : TaskRec) (lo hi : Nat) : TaskRec := { r with arg1 := BitVec.ofNat 64 (hi * 2 ^ 32 + lo % 2 ^ 32) }

/-- The record pushed from a quad: ROLE and reserved bits 0, the home and the local address of its counter (R219, R226). -/
def trOf (w0 w1 w2 : W64) (jv : Bool) (rank joff gang : Nat) : TaskRec :=
  ⟨w0, w1, w2 &&& 0xFFFF0F00000000E7#64, BitVec.ofNat 64 (jv.toNat * 2 ^ 63 + rank % 2 ^ 11 * 2 ^ 48 + joff % 2 ^ 20), gang⟩

/-- The entry of a stage, when it is bound (R221). -/
def Core.stageEntry (x : Core) (k : Nat) : Option W64 :=
  let e := vget x.stage k 0
  if e.getLsbD 63 then some (BitVec.ofNat 64 (fld e.toNat 0 20)) else none

/-- The stage that a slot is pinned to (R221). -/
def Core.pinned (x : Core) (i : Nat) : Option Nat :=
  let p := vget x.pin i 0
  if i < 14 && p.getLsbD 7 then some (fld p.toNat 4 3) else none

/-- The role of a slot (R221). -/
def Core.role (x : Core) (i : Nat) : Nat :=
  let p := vget x.pin i 0
  if i < 14 && p.getLsbD 7 then fld p.toNat 2 2 else 0

/-- Whether a record may be taken by a slot of a gang with a pin; from another die, only without affinity (R221, R223,
R228). -/
def eligible (gang : Nat) (pin : Option Nat) (away : Bool) (r : TaskRec) : Bool :=
  r.gang = gang && (pin = none || pin = some (trStage r)) && !(away && trAffv r)

/-! ### Bands -/

/-- The records of a deque or queue in all bands. -/
def bandsLen (q : Vector (List TaskRec) 4) : Nat := (q.toList.map List.length).sum

/-- Adds a record at the bottom of its band (R223). -/
def bandsPush (q : Vector (List TaskRec) 4) (r : TaskRec) : Vector (List TaskRec) 4 :=
  vset q (trBand r) (vget q (trBand r) [] ++ [r])

/-- The highest band that holds a record that satisfies `p` (R223). -/
def bandsFind (q : Vector (List TaskRec) 4) (p : TaskRec → Bool) : Option Nat :=
  [0, 1, 2, 3].find? fun b => (vget q b []).any p

/-- Removes the last record of a list that satisfies `p`. -/
def eraseLast (p : TaskRec → Bool) (l : List TaskRec) : List TaskRec := (l.reverse.eraseP p).reverse

/-- A local take: the bottom eligible record of the highest band that holds one (R223). -/
def bandsTakeBottom (q : Vector (List TaskRec) 4) (p : TaskRec → Bool) :
    Option (TaskRec × Vector (List TaskRec) 4) :=
  match bandsFind q p with
  | none => none
  | some b =>
    match (vget q b []).reverse.find? p with
    | none => none
    | some r => some (r, vset q b (eraseLast p (vget q b [])))

/-- A take of the oldest eligible record of the highest band that holds one (R223). -/
def bandsTakeTop (q : Vector (List TaskRec) 4) (p : TaskRec → Bool) : Option (TaskRec × Vector (List TaskRec) 4) :=
  match bandsFind q p with
  | none => none
  | some b =>
    match (vget q b []).find? p with
    | none => none
    | some r => some (r, vset q b ((vget q b []).eraseP p))

/-- Replaces the oldest eligible record of the highest band that holds one. -/
def bandsSetTop (q : Vector (List TaskRec) 4) (p : TaskRec → Bool) (r : TaskRec) : Vector (List TaskRec) 4 :=
  match bandsFind q p with
  | none => q
  | some b => vset q b ((vget q b []).replaceF fun t => if p t then some r else none)

/-! ### Join counters -/

/-- An increment or decrement of a join counter at its home; a decrement to 0 is kept for the release of the JOINs that wait
on the word, after every update of the cycle (R234, R235). -/
def State.joinUpdate (s : State) (c addr : Nat) (up : Bool) : State :=
  let old := (s.core c).rd addr 4
  let new := if up then (old + 1) % 2 ^ 32 else (old + 2 ^ 32 - 1) % 2 ^ 32
  let s := s.modCore c fun x => x.wr addr 4 new
  if !up && new = 0 then s.modCore c fun x => { x with zeroed := x.zeroed ++ [addr] } else s

/-- The JOINs of a core whose word a decrement of the cycle left at 0, and that is 0 after all of them, end (R235). -/
def State.serveJoins (s : State) (c : Nat) : State :=
  (s.core c).zeroed.eraseDups.foldl (fun s a =>
    if (s.core c).rd a 4 = 0 then
      slotNums.foldl (fun s i => if (s.slot c i).held = .join a then s.wake c i else s) s
    else s) s

/-- JOIN_COUNTER_UPDATE (R234, R235): an update of a counter by its own core's engines. One that a JOIN awaits stokes a
banked core (R200). -/
def evJoinCounterUpdate (core addr : Nat) (up : Bool) (s : State) : State :=
  if slotNums.any fun i => (s.slot core i).held = .join addr then
    s.arrive core (.joinCounterUpdate core addr up) fun s => s.joinUpdate core addr up
  else s.joinUpdate core addr up

/-! ### Delivery -/

/-- The registers of a slot that takes a record (R227). -/
def Slot.taken (t : Slot) (role n k : Nat) (jump : Bool) (r : TaskRec) : Slot :=
  let t := (((t.ws n r.arg0).ws (n + 1) r.arg1).ws (n + 2) (r.w2 ||| BitVec.ofNat 64 (role * 8))).ws (n + 3) r.w3
  let t := { t.wp k true with lin := BitVec.ofNat 64 (trLin r), curj := r.w3 }
  if jump then t.ws 55 (t.pc + 8) else t

/-- Where a slot goes on after it has taken a record (R227). -/
def Core.afterTake (x : Core) (t : Slot) (jump : Bool) (r : TaskRec) : W64 :=
  if jump then (x.stageEntry (trStage r)).getD 0 else t.pc + 8

/-- A slot that comes to run a lineage under cancellation is to be stopped (R237). -/
def State.marked (s : State) (c i : Nat) (r : TaskRec) : State :=
  if s.hub.cancels.isEmpty then s
  else
    { s with hub := { s.hub with cancels := s.hub.cancels.map fun q =>
        if q.gang = r.gang && q.tag = trLin r && !(q.core = c && q.slot = i && q.queue.isNone) then
          { q with marks := q.marks ++ [(c, i)] }
        else q } }

/-- A record is delivered to a slot that awaits it (R227, R229). -/
def State.deliver (s : State) (c i n k : Nat) (jump : Bool) (r : TaskRec) : State :=
  let s := s.marked c i r
  let x := s.core c
  (s.modSlot c i fun t => { t.taken (x.role i) n k jump r with npc := x.afterTake t jump r }).wake c i

/-- An empty search ends (R227): only p[K] is written. -/
def State.deliverNone (s : State) (c i k : Nat) : State := (s.modSlot c i fun t => t.wp k false).wake c i

/-- The local take of a slot (R223). -/
def Core.localTake (x : Core) (gang i : Nat) : Option (TaskRec × Core) :=
  (bandsTakeBottom x.dq (eligible gang (x.pinned i) false)).map fun r => (r.1, { x with dq := r.2 })

/-- The cycle in which a slot issued the DQPOP it waits in (R224). -/
def Slot.popIssue (t : Slot) : Nat :=
  match t.held with
  | .dqpop q => q.issued
  | _ => 0

/-- Inserts a slot by the cycle in which it issued its DQPOP. -/
def insertByIssue (x : Core) (i : Nat) : List Nat → List Nat
  | [] => [i]
  | j :: l => if (x.slot i).popIssue < (x.slot j).popIssue then i :: j :: l else j :: insertByIssue x i l

/-- The slots of a core that wait in DQPOP, in the order of their issue (R224). -/
def Core.popWaiters (x : Core) : List Nat :=
  (slotNums.filter fun i => match (x.slot i).held with
    | .dqpop _ => true
    | _ => false).foldl (fun l i => insertByIssue x i l) []

/-- The gang number of a core. -/
def State.gangNo (s : State) (c : Nat) : Nat := (s.core c).gang.getD 0

/-- The delivery of a core's records to its waiting DQPOPs, in the order of their issue (R224). -/
def State.serveDeque (s : State) (c : Nat) : State :=
  if bandsLen (s.core c).dq = 0 then s
  else
    (s.core c).popWaiters.foldl (fun s i =>
      match (s.slot c i).held, (s.core c).localTake (s.gangNo c) i with
      | .dqpop q, some (r, x) => (s.setCore c x).deliver c i q.n q.k q.jump r
      | _, _ => s) s

/-- Whether a core's waiting DQPOP could take a record (R200, R224). -/
def State.wanted (s : State) (c : Nat) (r : TaskRec) : Bool :=
  (s.core c).popWaiters.any fun i => eligible (s.gangNo c) ((s.core c).pinned i) false r

/-- A record joins a core's deque, whatever its fill; a banked core with a taker restarts (R199, R200, R224, R230). A record that
took a slot's reserved place of R223 counts among the 64 for later pushes, and the places are not counted per slot: DESIGN CHOICE
(log entry 145). -/
def State.dqAdd (s : State) (c : Nat) (r : TaskRec) : State :=
  let s := (s.hear c).modCore c fun x => { x with dq := bandsPush x.dq r }
  if s.wanted c r then s.stoke c else s

/-! ### Pushes -/

/-- The bound of a push to, or a take from, a die queue (R232). -/
def State.dieBound (s : State) (c die : Nat) : Nat :=
  if die = s.die c then 160 else if s.rerouted die || s.rerouted (s.die c) then 640 else 480

/-- Half the bound of a push (R232). -/
def State.pushWay (s : State) (p : Push) : Nat :=
  (if p.toQueue then s.dieBound p.src p.dest else s.latBound p.src p.dest) / 2

/-- Where a push, a steal request, an answer, a take or a Caddy query arrives (a deque, a die queue, the hub), and who
sent it (R224, R315). -/
def dequeKey (e : Event) : Option ((Nat × Nat) × Nat) :=
  match e with
  | .pushArrive p => some ((p.toQueue.toNat, p.dest), p.src)
  | .stealRequestArrive c q => some ((0, c), q.src)
  | .stealAnswerArrive c _ _ a => some ((0, c), a.src)
  | .dieQueueRequest d q => some ((1, d), q.src)
  | .caddyQuery c _ _ _ => some ((2, 0), c)
  | _ => none

/-- Queues an arrival at a deque: ties at one deque go to the sender of lower position id (R224, R315, R353). -/
def agendaPutBy (pos : Nat → Nat) (due : Nat) (e : Event) : List (Nat × Event) → List (Nat × Event)
  | [] => [(due, e)]
  | x :: l =>
    let earlier := match dequeKey e, dequeKey x.2 with
      | some a, some b => x.1 = due && a.1 = b.1 && pos a.2 < pos b.2
      | _, _ => false
    if due < x.1 || earlier then (due, e) :: x :: l else x :: agendaPutBy pos due e l

/-- Who answers for a die queue: no core; its answers come behind those of cores (log entry 112). -/
def queueId (die : Nat) : Nat := 4096 + die

/-- Queues an arrival at a deque within 1 to `hi` cycles (R224, R232). -/
def State.toDeque (s : State) (hi : Nat) (e : Event) : State :=
  let d := s.draw 1 hi
  { d.2 with agenda := agendaPutBy s.pos (d.2.now + d.1) e d.2.agenda }

/-- Sends a record to a deque or a die queue (R226). -/
def State.sendPush (s : State) (p : Push) : State :=
  if !p.toQueue && s.inTransit p.src p.dest then
    { s with hub := { s.hub with held := s.hub.held ++ [(p.src, p.dest, .pushArrive p)] } }
  else s.toDeque (s.pushWay p) (.pushArrive p)

/-- A die queue (R223). -/
def State.dieQueue (s : State) (d : Nat) : Vector (List TaskRec) 4 := vget s.dieq d (Vector.replicate 4 [])

/-- PUSH_ARRIVE (R223, R226): the record is accepted and acknowledged, or refused. -/
def evPushArrive (push : Push) (s : State) : State :=
  let full := if push.toQueue then bandsLen (s.dieQueue push.dest) ≥ 4096 else bandsLen (s.core push.dest).dq ≥ 64
  if full then s.afterIn 1 (s.pushWay push) (fun _ => false) (.pushRefusalArrive push)
  else
    let s := if push.toQueue then
        { s with dieq := vset s.dieq push.dest (bandsPush (s.dieQueue push.dest) push.task) }
      else s.dqAdd push.dest push.task
    s.afterIn 1 (s.pushWay push) (fun _ => false) (.pushAckArrive push)

/-- The range that a SPLIT keeps: HI becomes the LO it pushed (R233). -/
def Slot.splitDone (t : Slot) (n : Nat) (r : TaskRec) : Slot :=
  t.ws (n + 1) (BitVec.ofNat 64 (trLo r * 2 ^ 32 + fld (t.rs (n + 1)).toNat 0 32))

/-- PUSH_ACK_ARRIVE (R226, R233): p[K] is 1, and a SPLIT keeps its half. -/
def evPushAckArrive (push : Push) (s : State) : State :=
  s.arrive push.src (.pushAckArrive push) fun s =>
    match (s.slot push.src push.slot).held with
    | .push sp =>
      let s := s.modSlot push.src push.slot fun t =>
        match sp with
        | some n => (t.splitDone n push.task).wp push.pred true
        | none => t.wp push.pred true
      s.wake push.src push.slot
    | _ => s

/-- PUSH_REFUSAL_ARRIVE (R226, R233): the increment is undone, which the slot does not await, and p[K] is 0. -/
def evPushRefusalArrive (push : Push) (s : State) : State :=
  s.arrive push.src (.pushRefusalArrive push) fun s =>
    let j := push.task.w3
    let s := if !jrJV j then s
      else if s.rankCore push.src (jrRank j) = push.src then s.joinUpdate push.src (jrOff j) false
      else s.joinDrop push.src j
    match (s.slot push.src push.slot).held with
    | .push _ => s.deliverNone push.src push.slot push.pred
    | _ => s

/-- A SPLIT whose increment its home has acknowledged pushes its half as FORK would (R233). -/
def State.pushSplit (s : State) (c i n k : Nat) (r : TaskRec) : State :=
  if bandsLen (s.core c).dq < 64 then
    ((s.dqAdd c r).modSlot c i fun t => (t.splitDone n r).wp k true).wake c i
  else
    (s.modSlot c i fun t => { t with held := .push (some n) }).sendPush ⟨r, c, i, k, true, true, s.die c⟩

/-! ### Steals -/

/-- The longest way of a steal request; a Draught round's requests share its 96 cycles (R232; log entry 113). -/
def State.stealWay (s : State) (src victim : Nat) (why : StealFor) : Nat :=
  match why with
  | .dqpop => 2
  | .steal => s.latBound src victim / 4

/-- Sends the answer to a steal or a take, to be delivered within its bound; of a Draught round a refusal takes one cycle
(R223, R228, R232). -/
def State.answer (s : State) (src : Nat) (q : StealReq) (r : Option TaskRec) : State :=
  let hi := if q.why = .dqpop && r.isNone && src < 4096 then 1 else q.till - s.now
  s.toDeque hi (.stealAnswerArrive q.src q.slot q.why ⟨q.id, src, r⟩)

/-- The longest way of the increment that a steal owes, and of its acknowledgement, half of what the answer's bound leaves
beside the home's own cycles (R228, R232, R234). -/
def State.owedWay (s : State) (a b till : Nat) : Nat := min (s.oneWay a b) ((till - s.now - 40) / 2)

/-- A division's increment leaves for its home; a home beyond the victim's class adds the bound of its class (R228, R232). -/
def State.owe (s : State) (core home : Nat) (q : StealReq) (r : TaskRec) : State :=
  let id := s.nonce + 1
  let till := if s.latClass core home > s.latClass q.src core then q.till + s.latBound core home else q.till
  let s := { s with nonce := id }
  let s := s.modCore core fun x => { x with owed := x.owed ++ [⟨id, { q with till := till }, r⟩] }
  let e : Event := .remoteRequestArrive home (.builtin ⟨core, 16, false, id, .joinAdd, jrOff r.w3, 0, 0, 0, 0⟩)
  if s.inTransit core home then { s with hub := { s.hub with held := s.hub.held ++ [(core, home, e)] } }
  else s.afterIn 1 (s.owedWay core home till) (fun _ => false) e

/-- The answer that a division owed leaves once its increment is acknowledged (R228). -/
def State.answerOwed (s : State) (c : Nat) (r : Reply) : State :=
  match (s.core c).owed.find? (fun o => o.id = r.id), r.op with
  | some o, .joinAdd =>
    (s.modCore c fun x => { x with owed := x.owed.filter fun p => p.id != o.id }).answer c o.req (some o.task)
  | _, _ => s

/-! ### Meanings -/

/-- PUSH_ARRIVE (R226). -/
def execPushArrive (push : Push) (s : State) : Host.Outcome State Fault Refusal := .next (evPushArrive push s)
/-- PUSH_ACK_ARRIVE (R226). -/
def execPushAckArrive (push : Push) (s : State) : Host.Outcome State Fault Refusal := .next (evPushAckArrive push s)
/-- PUSH_REFUSAL_ARRIVE (R226). -/
def execPushRefusalArrive (push : Push) (s : State) : Host.Outcome State Fault Refusal :=
  .next (evPushRefusalArrive push s)
/-- JOIN_COUNTER_UPDATE (R234). -/
def execJoinCounterUpdate (core addr : Nat) (up : Bool) (s : State) : Host.Outcome State Fault Refusal :=
  .next (evJoinCounterUpdate core addr up s)

end Sys2Proof.Machine
end

