-- ==== Sys2Proof/Machine/Remote.lean ====
section
/-! DEFINITION. Remote accesses: built-in requests, their performance at the home, replies, full/empty waiters (R98,
R264 to R276), and the handlers of software active messages (R269). -/

namespace Sys2Proof.Machine

/-- The new value of an atomic of `n` bits, by its place in the order of R66 (R273). -/
def amoNew (op n old y c : Nat) : Nat :=
  match op with
  | 0 => (old + y) % 2 ^ n
  | 1 => old &&& y
  | 2 => old ||| y
  | 3 => old ^^^ y
  | 4 => if sgn n y < sgn n old then y else old
  | 5 => if sgn n old < sgn n y then y else old
  | 6 => if y < old then y else old
  | 7 => if old < y then y else old
  | 8 => y
  | _ => if old = y then c else old

/-- Whether a core lies within a scope of another (R274). -/
def State.inScope (s : State) (c scope home : Nat) : Bool :=
  match scope with
  | 0 => home = c
  | 1 => s.die home = s.die c && s.cluster home = s.cluster c
  | 2 => s.die home = s.die c
  | _ => true

/-- Whether a slot has relaxed accesses outstanding whose home lies in a scope (R274, R275). -/
def State.relaxedIn (s : State) (c i scope : Nat) : Bool := (s.slot c i).relaxed.any fun r => s.inScope c scope r.home

/-- Whether a slot has copy commands not complete, or stream refills in flight or drains not performed (R275, R308). -/
def State.enginesBusy (s : State) (c i : Nat) : Bool :=
  let x := s.core c
  x.cq.toList.any (fun l => l.any fun q => q.slot = i && !q.complete)
    || x.su.toList.any fun u => u.owner = some i && (u.flight || (u.write && u.kind = .global && !u.staged.isEmpty))

/-! ### Replies -/

/-- The longest way of a reply: that of the increment a steal owes is in time for the steal's answer (R232, R265). -/
def State.replyWay (s : State) (home : Nat) (r : Req) : Nat :=
  match (s.core r.src).owed.find? (fun o => o.id = r.id) with
  | some o => if r.slot = 16 then min (s.oneWay home r.src) ((o.req.till - s.now) / 2) else s.oneWay home r.src
  | none => s.oneWay home r.src

/-- Sends a reply or acknowledgement (R265, R267). -/
def State.reply (s : State) (home : Nat) (r : Req) (v : Nat) (ecc : Bool) : State :=
  s.afterIn 1 (s.replyWay home r) (fun _ => false)
    (.remoteReply r.src ⟨r.slot, r.relaxed, r.id, r.op, r.d, BitVec.ofNat 1024 v, ecc, r.off, home⟩)

/-- A value extended to 64 bits as its load says (R93). -/
def extendTo (size : Nat) (signed : Bool) (v : Nat) : W64 :=
  if signed then BitVec.ofInt 64 (sgn (8 * size) v) else BitVec.ofNat 64 v

/-- Writes a vector register that a reply fills, or pushes it as a strip (R91, R270). -/
def State.fillV (s : State) (c i d : Nat) (v : VReg) : State :=
  match s.bound c i d with
  | some (u, y) => if y.write then pushStream c u y v 0xFFFFFFFF#32 s else s
  | none => s.modSlot c i fun t => t.wv d v

/-- What a reply writes at the requester (R93 to R97, R273). -/
def State.takeReply (s : State) (c : Nat) (r : Reply) : State :=
  let v := r.value.toNat
  match r.op with
  | .load n sg => s.modSlot c r.slot fun t => t.ws r.d (extendTo n sg v)
  | .sync _ => s.modSlot c r.slot fun t => t.ws r.d (extendTo 4 false v)
  | .amo _ _ => s.modSlot c r.slot fun t => t.ws r.d (BitVec.ofNat 64 v)
  | .feTest => s.modSlot c r.slot fun t => t.wp r.d (v % 2 = 1)
  | .vload => s.fillV c r.slot r.d r.value
  | .vbcast => s.fillV c r.slot r.d (padStrip (v % 2 ^ 32))
  | _ => s

/-- The reply of a relaxed access (R270); a relaxed atomic that acquires ends its slot's wait (R274). -/
def State.relaxedReply (s : State) (c : Nat) (r : Reply) : State :=
  let s := if r.ecc || !((s.slot c r.slot).relaxed.any fun a => a.id = r.id) then s else s.takeReply c r
  let s := s.modSlot c r.slot fun t => { t with relaxed := t.relaxed.filter fun a => a.id != r.id }
  let s := if r.ecc then s.requestStop c r.slot ⟨cECCFATAL, r.off, false, false, false⟩ else s
  let t := s.slot c r.slot
  match t.held, t.stop with
  | .relaxFull, _ => s.rearm c r.slot
  | .acquire id, _ => if id = r.id then s.wake c r.slot else s
  | .stopping, some q => if t.relaxed.isEmpty then s.stopNow c r.slot q else s
  | _, _ => s

/-- REMOTE_REPLY (R265, R267, R270, R276): a reply to a relaxed access, or to the access its slot is parked on. An
identifier other than 0 tells a parked slot that its sync load was withdrawn. -/
def evRemoteReply (core : Nat) (rep : Reply) (s : State) : State :=
  s.arrive core (.remoteReply core rep) fun s =>
    if rep.relaxed then s.relaxedReply core rep
    else
      let t := s.slot core rep.slot
      let bad := s.stopAt core rep.slot (StopReq.min ⟨cECCFATAL, rep.off, false, false, false⟩ t.stop)
      match t.held with
      | .remote _ _ =>
        if rep.id != 0 then
          match t.stop with
          | some q => s.stopAt core rep.slot q
          | none => s
        else if rep.ecc then bad
        else (s.takeReply core rep).wake core rep.slot
      | .send => s.wake core rep.slot
      | .taskend true =>
        if rep.ecc then bad
        else
          (s.modSlot core rep.slot fun t =>
            { t with curj := t.curj &&& 0x7FFFFFFFFFFFFFFF#64, lin := 0 }).wake core rep.slot
      | .incr quad pred task => if rep.ecc then bad else s.pushSplit core rep.slot quad pred task
      | _ => s.answerOwed core rep

/-! ### At the home -/

/-- Whether a request reads the words it names (R19, R20); a sync load reads a full word only (R97, R276). -/
def Core.reqReads (x : Core) (r : Req) : Bool :=
  match r.op with
  | .store n => n < 4
  | .vstore | .fill | .feSet | .feClr | .feTest => false
  | .sync _ => x.isFull r.addr
  | _ => true

/-- Performs a built-in request at its home (R264, R267, R276). -/
def State.perform (s : State) (c : Nat) (r : Req) : State :=
  let n := reqSize r.op
  if (s.core c).reqReads r && (s.core c).bad r.addr n then s.reply c r 0 true
  else
    let s := if (s.core c).reqReads r then s.touch c r.addr n else s
    let v := (s.core c).rd r.addr n
    match r.op with
    | .load _ _ | .vload | .vbcast => s.reply c r v false
    | .store n => (s.modCore c fun x => x.wr r.addr n r.data.toNat).reply c r 0 false
    | .vstore => (s.modCore c fun x => x.wr r.addr 128 r.data.toNat).reply c r 0 false
    | .sync take =>
      if (s.core c).isFull r.addr then
        (if take then s.modCore c fun x => x.setFe r.addr false else s).reply c r v false
      else s.modCore c fun x => { x with feWait := x.feWait ++ [⟨r.addr, take, r.slot, r.d, r.off, some r⟩] }
    | .fill => (s.modCore c fun x => (x.wr r.addr 4 r.data.toNat).setFe r.addr true).reply c r 0 false
    | .feSet => (s.modCore c fun x => x.setFe r.addr true).reply c r 0 false
    | .feClr => (s.modCore c fun x => x.setFe r.addr false).reply c r 0 false
    | .feTest => s.reply c r ((s.core c).isFull r.addr).toNat false
    | .amo op wide =>
      let bits := if wide then 64 else 32
      let new := amoNew op bits v (r.data.toNat % 2 ^ bits) (r.data2.toNat % 2 ^ bits)
      (s.modCore c fun x => x.wr r.addr n new).reply c r v false
    | .joinAdd => (s.joinUpdate c r.addr true).reply c r 0 false
    | .joinSub => (s.joinUpdate c r.addr false).reply c r 0 false

/-- REMOTE_REQUEST_ARRIVE (R264, R269): a built-in request or a message joins its core's queue. -/
def evRemoteRequestArrive (core : Nat) (msg : NetMsg) (s : State) : State :=
  s.arrive core (.remoteRequestArrive core msg) fun s =>
    match msg with
    | .builtin r => s.modCore core fun x => { x with netq := x.netq ++ [r] }
    | .active m => s.modCore core fun x => { x with amq := x.amq ++ [m] }

/-- BUILTIN_REQUEST_PERFORM (R264): the handler port performs the oldest request as an issue of slot 14. -/
def evBuiltinRequestPerform (core : Nat) (s : State) : State :=
  match (s.core core).netq with
  | [] => s
  | r :: rest =>
    let s := s.modCore core fun x => { x.count 8 1 with netq := rest }
    (s.modSlot core 14 fun t => { t with last := some s.now, gap := 8 }).perform core r

/-- Serves a waiter of a full word (R98, R276). -/
def State.serve (s : State) (c : Nat) (w : FeWaiter) : State :=
  let ecc := (s.core c).bad w.addr 4
  let s := s.modCore c fun x => { x with feWait := x.feWait.erase w }
  let s := s.touch c w.addr 4
  let v := (s.core c).rd w.addr 4
  let s := if w.take && !ecc then s.modCore c fun x => x.setFe w.addr false else s
  match w.remote with
  | some r => s.reply c r v ecc
  | none =>
    if ecc then s.requestStop c w.slot ⟨cECCFATAL, w.off, false, false, false⟩
    else (s.modSlot c w.slot fun t => t.ws w.d (BitVec.ofNat 64 v)).wake c w.slot

/-- Step 3 of a cycle of a local store (R98): waiters of full words in joining order. -/
def State.serveWaiters (s : State) (c : Nat) : State :=
  (s.core c).feWait.foldl (fun s w => if (s.core c).isFull w.addr then s.serve c w else s) s

/-- Whether a slot's withdrawal of its remote sync load is under way (R276): a stop is pending, and no reply has come. -/
def State.withdrawing (s : State) (c i : Nat) : Bool :=
  match (s.slot c i).held with
  | .remote _ true => (s.slot c i).stop.isSome
  | _ => false

/-- FE_WITHDRAWAL_ARRIVE (R276): an unserved waiter, or its request, is removed, and its slot is told; a withdrawal whose load
has been served, which its slot no longer awaits, is of no request. -/
def evFeWithdrawalArrive (core src slot : Nat) (s : State) : State :=
  s.arrive core (.feWithdrawalArrive core src slot) fun s =>
    let hit := fun (r : Req) => r.src = src && r.slot = slot && !r.relaxed && (match r.op with
      | .sync _ => true
      | _ => false)
    let x := s.core core
    if !s.withdrawing src slot then s else
    match x.netq.find? hit, x.feWait.find? (fun w => w.remote.any hit) with
    | some r, _ =>
      (s.modCore core fun x => { x with netq := x.netq.erase r }).reply core { r with id := 1 } 0 false
    | none, some w =>
      match w.remote with
      | some r => (s.modCore core fun x => { x with feWait := x.feWait.erase w }).reply core { r with id := 1 } 0 false
      | none => s
    | none, none => s

/-! ### Software handlers -/

/-- Whether slot 14 may start a handler: it is IDLE, and its core is not pre-empted (R269, R334). -/
def State.handlerDue (s : State) (c : Nat) : Bool :=
  !(s.core c).amq.isEmpty && (s.slot c 14).st = .idle && !(s.core c).preempt

/-- HANDLER_START (R268, R269): slot 14, when IDLE, starts the handler of the oldest message, whose SEND completes. -/
def evHandlerStart (core : Nat) (s : State) : State :=
  match (s.core core).amq with
  | [] => s
  | m :: rest =>
    if s.handlerDue core then
      let s := s.modCore core fun x => { x with amq := rest }
      let entry : W64 := BitVec.ofNat 64 (fld (vget (s.core core).hand m.handler 0).toNat 0 20)
      let s := s.modSlot core 14 fun t =>
        { (((t.ws 1 m.w1).ws 2 m.w2).ws 3 m.w3).ws 4 (BitVec.ofNat 64 m.tid) with
          pc := codePc entry, st := .ready, level := false, held := .none }
      s.reply core ⟨m.src, m.slot, m.relaxed, m.id, .store 0, 0, 0, 0, 0, 0⟩ 0 false
    else s

/-! ### At the requester -/

/-- Sends a built-in request of the executing slot: relaxed, unless eight are outstanding, or parking it (R265, R270). -/
def State.request (s : State) (rx : Bool) (home a : Nat) (op : ReqOp) (off : W32) (d : Nat) (data : VReg) (data2 : W64) :
    Res :=
  let r : Req := ⟨s.cur.1, s.cur.2, rx, 0, op, a, off, d, data, data2⟩
  if rx then
    if s.me.relaxed.length ≥ 8 then .again .relaxFull
    else
      let id := s.nonce + 1
      let s := { s with nonce := id }
      let s := s.modMe fun t => { t with relaxed := t.relaxed ++ [⟨id, home, some op, d, off⟩] }
      .ok (s.sendReq home { r with id := id })
  else
    let sync := match op with
      | .sync _ => true
      | _ => false
    .hold none ((s.sendReq home r).await .parked (.remote home sync))

/-- A memory instruction: Seg, a further check of the descriptor, then the local access or the request (R92, R263). -/
def State.access (s : State) (sg : Nat) (off : Int) (size align : Nat) (kind : AccKind) (wide : Bool)
    (more : W128 → Bool) (near : Nat → Res) (far : Nat → Nat → Res) : Res :=
  match s.seg sg off size align kind wide false with
  | .bad c => .trap c (offDetail off)
  | r =>
    if !more (s.me.rsg sg) then .trap cRIGHTS (offDetail off)
    else
      match r with
      | .at a => near a
      | .remote h a => far h a
      | .bad c => .trap c (offDetail off)

/-! ### Meanings -/

/-- REMOTE_REQUEST_ARRIVE (R264). -/
def execRemoteRequestArrive (core : Nat) (msg : NetMsg) (s : State) : Host.Outcome State Fault Refusal :=
  .next (evRemoteRequestArrive core msg s)
/-- BUILTIN_REQUEST_PERFORM (R264). -/
def execBuiltinRequestPerform (core : Nat) (s : State) : Host.Outcome State Fault Refusal :=
  .next (evBuiltinRequestPerform core s)
/-- REMOTE_REPLY (R265). -/
def execRemoteReply (core : Nat) (rep : Reply) (s : State) : Host.Outcome State Fault Refusal :=
  .next (evRemoteReply core rep s)
/-- FE_WITHDRAWAL_ARRIVE (R276). -/
def execFeWithdrawalArrive (core src slot : Nat) (s : State) : Host.Outcome State Fault Refusal :=
  .next (evFeWithdrawalArrive core src slot s)
/-- HANDLER_START (R269). -/
def execHandlerStart (core : Nat) (s : State) : Host.Outcome State Fault Refusal := .next (evHandlerStart core s)

end Sys2Proof.Machine
end

