-- ==== Sys2Proof/Machine/Channel.lean ====
section
/-! DEFINITION. Channels: publishing, memberships, published bundles and rendezvous (R202 to R218). -/

namespace Sys2Proof.Machine

/-- The HANDLE of a channel instruction: reason and the channel's low 8 bits (R206, R218). -/
def chHandle (reason chan : Nat) : Res := .trap cHANDLE (hDetail reason chan)

/-- Whether a slot holds a membership. -/
def Slot.member (t : Slot) : Bool := t.mst != .none

/-- PUBON (R205, R218). -/
def semPubon (d : BitVec 6) (s : State) : Res :=
  let tid := s.tid s.cur.1 s.cur.2
  if s.me.member then chHandle 2 tid
  else if s.cur.2 ≥ 14 then chHandle 3 tid
  else .ok ((s.ws d.toNat (BitVec.ofNat 64 tid)).modMe fun t => { t with pub := true })

/-- PUBOFF (R205): ends publishing, or the membership of a JOINED member. -/
def semPuboff (s : State) : Res :=
  if s.me.pub then .ok (s.endPublish s.cur.1 s.cur.2)
  else if s.me.mst = .joined then .ok (s.endMembership s.cur.1 s.cur.2)
  else .ok s

/-- Sends a message of a membership to its publisher, which it reaches after the skew in force (R209) and after those of
the same member already on their way. -/
def State.chanSend (s : State) (c chan tid skew : Nat) (e : Nat × Nat → Event) : State :=
  let p := s.ofTid c chan
  let same := fun (x : Event) => match x with
    | .joinRequestArrive a b t | .rdvReportArrive a b t | .membershipNoticeArrive a b t _ => a = p.1 && b = p.2 && t = tid
    | _ => false
  let floor := (s.agenda.filter fun x => same x.2).foldl (fun m x => max m x.1) 0
  if s.inTransit c p.1 then s.post c p.1 skew (e p)
  else { s with agenda := agendaPut (max (s.now + skew) floor) (e p) s.agenda }

/-- SUBSCR (R206). Its request and a refusal take the skew that a member that joins now would have, also between a heal and the
channel's next RDV completion: DESIGN CHOICE (log entry 143). -/
def semSubscr (d a : BitVec 6) (t : BitVec 1) (s : State) : Res :=
  let ch := (s.rs a.toNat).toNat
  let tid := s.tid s.cur.1 s.cur.2
  if s.cur.2 ≥ 14 then chHandle 3 ch
  else if ch ≥ s.my.gsize * 16 || ch % 16 ≥ 14 || ch = tid then chHandle 1 ch
  else if s.me.pub || s.me.member then chHandle 2 ch
  else
    let k := s.skewOf s.cur.1 (s.ofTid s.cur.1 ch).1
    let s := s.modMe fun u => { u with mst := .pending, chan := BitVec.ofNat 15 ch, trapov := t = 1, skew := k }
    let s := s.chanSend s.cur.1 ch tid k fun p => .joinRequestArrive p.1 p.2 tid
    .hold none (s.await .waiting (.subscr d.toNat))

/-- A JOINED member leaves the stream, to fetch its own code (R213). -/
def leaveIf (leave : Bool) (s : State) : Res :=
  if s.me.mst = .joined && leave then .ok (s.goAway s.cur.1 s.cur.2) else .ok s

def semUnsub (s : State) : Res := leaveIf true s
def semUnsubp (p : BitVec 3) (s : State) : Res := leaveIf (s.me.rp p.toNat) s
def semUnsubm (m : BitVec 3) (s : State) : Res := leaveIf (s.me.rm m.toNat != 0) s

/-- LEAVE (R214). -/
def semLeave (s : State) : Res := .ok (s.endMembership s.cur.1 s.cur.2)

/-- A member's report on the RDV under way (R215). -/
def State.report (s : State) (c i : Nat) : State :=
  s.chanSend c (s.slot c i).chan.toNat (s.tid c i) (s.slot c i).skew fun p => .rdvReportArrive p.1 p.2 (s.tid c i)

/-- RDV (R215): a publisher waits for the memberships of its table; a JOINED member reports. -/
def semRdv (d a : BitVec 6) (s : State) : Res :=
  let id := (s.rs a.toNat).toNat % 65536
  if s.me.pub then
    if s.me.members.isEmpty then .ok (s.ws d.toNat 0)
    else
      let s := s.modMe fun t => { t with rdv := some ⟨id, t.members.map (·.tid), []⟩ }
      .hold none (s.await .waiting (.rdv d.toNat id))
  else if s.me.mst = .joined then .ok ((s.report s.cur.1 s.cur.2).ws d.toNat (BitVec.ofNat 64 s.me.skew))
  else .ok (s.ws d.toNat 0)

/-- RESUB (R215, R216). -/
def semResub (d a : BitVec 6) (s : State) : Res :=
  if s.me.mst != .away then .ok (s.ws d.toNat 0)
  else
    let s := (List.range s.me.asked).foldl (fun s _ => s.report s.cur.1 s.cur.2) (s.modMe fun t => { t with asked := 0 })
    .hold none (s.await .waiting (.resub d.toNat ((s.rs a.toNat).toNat % 65536)))

/-! ### Publishing -/

/-- Publishes a bundle to every member of the table as it stood before the bundle, each after its skew (R202, R209). -/
def State.publish (s : State) (pre : Slot) (word pc npc : W64) : State :=
  let c := s.cur.1
  let tid := s.tid c s.cur.2
  pre.members.foldl (fun s m =>
    let h := s.ofTid c m.tid
    s.post c h.1 m.skew (.publishedBundleArrive h.1 h.2 ⟨tid, word, pc, npc, m.skew⟩)) s

/-! ### Events at a member -/

/-- A member that holds 64 due bundles is forced away (R211); the flag joins STICKY at the end of the cycle (R55). -/
def State.overrun (s : State) (c i : Nat) (pc : W64) : State :=
  let t := s.slot c i
  let s := (s.goAway c i).modCore c fun x => { x with flags := x.flags ++ [(i, 128)] }
  let s := s.modSlot c i fun u => if u.st = .ready then { u with pc := pc } else { u with npc := pc }
  if t.trapov then s.requestStop c i ⟨cOVERRUN, t.chan.zeroExtend 32, false, false, false⟩ else s

/-- A bundle falls due at a JOINED member, whose wait for it ends (R191, R201, R212); that wait counts in WAKES even where a wait
that ended into it did: DESIGN CHOICE (log entry 144). -/
def State.fall (s : State) (c i : Nat) (bun : PubBundle) : State :=
  let lull := (s.slot c i).lull
  let s := s.modSlot c i fun u =>
    let v := { u with due := u.due ++ [⟨s.now, bun⟩], skew := bun.skew }
    if u.due.isEmpty && u.st = .ready then { v with pc := bun.pc } else v
  if lull then s.modCore c fun x => { x with woken := x.woken + 1 } else s

/-- PUBLISHED_BUNDLE_ARRIVE (R209, R211, R215): the bundle falls due at a JOINED member, which more than 64 force away; an
RDV finds a PENDING member, or an AWAY one in RESUB, which report, or an AWAY one that will. -/
def evPublishedBundleArrive (core slot : Nat) (bun : PubBundle) (s : State) : State :=
  let t := s.slot core slot
  if t.chan.toNat != bun.chan then s
  else
    match t.mst with
    | .joined =>
      let s := s.fall core slot bun
      if t.due.length ≥ 64 then s.overrun core slot ((t.due.head?.map (·.bun.pc)).getD bun.pc) else s
    | .pending => if isRdv bun.word then s.report core slot else s
    | .away =>
      if isRdv bun.word then
        match t.held with
        | .resub _ _ => s.report core slot
        | _ => s.modSlot core slot fun u => { u with asked := u.asked + 1 }
      else s
    | .none => s

/-- SUBSCR_REFUSAL_ARRIVE (R206). -/
def evSubscrRefusalArrive (core slot : Nat) (s : State) : State :=
  match (s.slot core slot).held with
  | .subscr d => ((s.hear core).modSlot core slot fun t => { t.ws d 0 with mst := .none, chan := 0 }).wake core slot
  | _ => s

/-- A slot joins the stream, whose next bundle its PC names (R215, R216). -/
def State.rejoinSlot (s : State) (c i d skew : Nat) (fin : RdvEnd) : State :=
  (s.modSlot c i fun t => { t.ws d (BitVec.ofNat 64 skew) with mst := .joined, npc := fin.npc }).wake c i

/-- The membership of a slot is settled at its core by a completed RDV (R215); its skew is the one in force from now on
(R209). -/
def State.settle (s : State) (c i : Nat) (fin : RdvEnd) (skew : Nat) : State :=
  let t := s.slot c i
  if t.chan.toNat != fin.chan || t.mst = .none then s
  else
    let s := s.modSlot c i fun t => { t with asked := 0, skew := skew }
    match t.mst, t.held with
    | .pending, .subscr d => s.rejoinSlot c i d skew fin
    | .away, .resub d id =>
      if id = fin.id then s.rejoinSlot c i d skew fin else ((s.endMembership c i).modSlot c i fun t => t.ws d 0).wake c i
    | _, _ => s

/-- RDV_COMPLETION_ARRIVE (R215). -/
def evRdvCompletionArrive (core slot : Nat) (fin : RdvEnd) (skew : Nat) (s : State) : State :=
  (s.hear core).settle core slot fin skew

/-- PUBLISH_END_ARRIVE (R205): PENDING and AWAY memberships end, and a JOINED one once its due bundles are issued. -/
def evPublishEndArrive (core slot chan : Nat) (s : State) : State :=
  let t := s.slot core slot
  if t.chan.toNat != chan || t.mst = .none then s
  else if t.mst = .joined && !t.due.isEmpty then s.modSlot core slot fun t => { t with ending := true }
  else
    let s := s.hear core
    match t.held with
    | .subscr d | .resub d _ => ((s.endMembership core slot).modSlot core slot fun t => t.ws d 0).wake core slot
    | _ => s.endMembership core slot

/-! ### Events at a publisher -/

/-- The skew in force of a member that has not reported is its own from now on (R209). -/
def State.ownSkew (s : State) (c i : Nat) (m : Member) : State :=
  let h := s.ofTid c m.tid
  s.modSlot h.1 h.2 fun t => if t.mst != .none && t.chan.toNat = s.tid c i then { t with skew := m.skew } else t

/-- An RDV completes when the last of its members has been heard (R215); the skew in force is lowered for every member of the
channel (R209). -/
def State.rdvCheck (s : State) (c i : Nat) : State :=
  let t := s.slot c i
  match t.rdv, t.held with
  | some r, .rdv d id =>
    if r.waits.isEmpty then
      let s := s.hear c
      let ms := t.members.map fun m => { m with skew := s.skewOf c (s.ofTid c m.tid).1 }
      let heard := ms.filter fun m => r.heard.contains m.tid
      let s := s.modSlot c i fun t =>
        { t.ws d (BitVec.ofNat 64 ((heard.map (·.skew)).foldl max 0)) with
          rdv := none
          members := ms.map fun m => if r.heard.contains m.tid then { m with mst := .joined } else m }
      let s := (ms.filter fun m => !r.heard.contains m.tid).foldl (fun s m => s.ownSkew c i m) s
      let s := heard.foldl (fun s m =>
        let h := s.ofTid c m.tid
        s.post c h.1 m.skew (.rdvCompletionArrive h.1 h.2 ⟨s.tid c i, id, t.npc⟩ m.skew)) s
      s.wake c i
    else s
  | _, _ => s

/-- JOIN_REQUEST_ARRIVE (R206, R283): the slot is registered, with the skew in force at it (R209), or refused. -/
def evJoinRequestArrive (core slot tid : Nat) (s : State) : State :=
  let h := s.ofTid core tid
  let k := (s.slot h.1 h.2).skew
  let s := s.hear core
  if (s.slot core slot).pub then
    s.modSlot core slot fun t => { t with late := t.late.filter (· != tid), members := t.members.filter (fun m => m.tid != tid) ++ [⟨tid, k, .pending⟩] }
  else s.post core h.1 k (.subscrRefusalArrive h.1 h.2)

/-- RDV_REPORT_ARRIVE (R215, R283): the report counts, unless it is one on an RDV that was withdrawn. -/
def evRdvReportArrive (core slot tid : Nat) (s : State) : State :=
  let s := (s.hear core).modSlot core slot fun t =>
    if t.late.contains tid then { t with late := t.late.erase tid }
    else { t with rdv := t.rdv.map fun r =>
        if r.waits.contains tid then { r with waits := r.waits.filter (· != tid), heard := r.heard ++ [tid] } else r }
  s.rdvCheck core slot

/-- MEMBERSHIP_NOTICE_ARRIVE (R213 to R215, R283): the table records AWAY, or drops the membership, which its RDV no longer
waits for. -/
def evMembershipNoticeArrive (core slot tid : Nat) (note : Notice) (s : State) : State :=
  let s := s.hear core
  match note with
  | .away =>
    s.modSlot core slot fun t =>
      { t with members := t.members.map fun m => if m.tid = tid then { m with mst := .away } else m }
  | .leave =>
    let s := s.modSlot core slot fun t =>
      { t with
        members := t.members.filter fun m => m.tid != tid, late := t.late.filter (· != tid)
        rdv := t.rdv.map fun r =>
          { r with waits := r.waits.filter (· != tid), heard := r.heard.filter (· != tid) } }
    s.rdvCheck core slot

/-! ### Meanings -/

/-- PUBON (R205). -/
def execPubon (d : BitVec 6) (s : State) : Host.Outcome State Fault Refusal := s.aloneS fun s => semPubon d s
/-- PUBOFF (R205). -/
def execPuboff (s : State) : Host.Outcome State Fault Refusal := s.aloneS fun s => semPuboff s
/-- SUBSCR (R206). -/
def execSubscr (d a : BitVec 6) (t : BitVec 1) (s : State) : Host.Outcome State Fault Refusal :=
  s.aloneS fun s => semSubscr d a t s
/-- UNSUB (R213). -/
def execUnsub (s : State) : Host.Outcome State Fault Refusal := s.aloneS fun s => semUnsub s
/-- UNSUBP (R213). -/
def execUnsubp (p : BitVec 3) (s : State) : Host.Outcome State Fault Refusal := s.aloneS fun s => semUnsubp p s
/-- UNSUBM (R213). -/
def execUnsubm (m : BitVec 3) (s : State) : Host.Outcome State Fault Refusal := s.aloneS fun s => semUnsubm m s
/-- RESUB (R216). -/
def execResub (d a : BitVec 6) (s : State) : Host.Outcome State Fault Refusal := s.aloneS fun s => semResub d a s
/-- RDV (R215). -/
def execRdv (d a : BitVec 6) (s : State) : Host.Outcome State Fault Refusal := s.aloneS fun s => semRdv d a s
/-- LEAVE (R214). -/
def execLeave (s : State) : Host.Outcome State Fault Refusal := s.aloneS fun s => semLeave s
/-- PUBLISHED_BUNDLE_ARRIVE (R209). -/
def execPublishedBundleArrive (core slot : Nat) (bun : PubBundle) (s : State) : Host.Outcome State Fault Refusal :=
  .next (evPublishedBundleArrive core slot bun s)
/-- JOIN_REQUEST_ARRIVE (R206). -/
def execJoinRequestArrive (core slot tid : Nat) (s : State) : Host.Outcome State Fault Refusal :=
  .next (evJoinRequestArrive core slot tid s)
/-- SUBSCR_REFUSAL_ARRIVE (R206). -/
def execSubscrRefusalArrive (core slot : Nat) (s : State) : Host.Outcome State Fault Refusal :=
  .next (evSubscrRefusalArrive core slot s)
/-- RDV_REPORT_ARRIVE (R215). -/
def execRdvReportArrive (core slot tid : Nat) (s : State) : Host.Outcome State Fault Refusal :=
  .next (evRdvReportArrive core slot tid s)
/-- RDV_COMPLETION_ARRIVE (R215). -/
def execRdvCompletionArrive (core slot : Nat) (fin : RdvEnd) (skew : Nat) (s : State) :
    Host.Outcome State Fault Refusal := .next (evRdvCompletionArrive core slot fin skew s)
/-- MEMBERSHIP_NOTICE_ARRIVE (R213). -/
def execMembershipNoticeArrive (core slot tid : Nat) (note : Notice) (s : State) : Host.Outcome State Fault Refusal :=
  .next (evMembershipNoticeArrive core slot tid note s)
/-- PUBLISH_END_ARRIVE (R205). -/
def execPublishEndArrive (core slot chan : Nat) (s : State) : Host.Outcome State Fault Refusal :=
  .next (evPublishEndArrive core slot chan s)

end Sys2Proof.Machine
end

