-- ==== Sys2Proof/Machine/Control.lean ====
section
/-! DEFINITION. Control flow (R99), shared registers, status and identity (R101 to R104), yielding, sleeping, halting
(R105 to R107), and the mailbox instructions (R302, R303). -/

namespace Sys2Proof.Machine

/-- The target of format SB (R99). -/
def State.target (s : State) (d : BitVec 20) : W64 := s.me.pc + 8 * d.signExtend 64

/-- A branch that is taken or falls through (R99). -/
def semBranch (taken : Bool) (d : BitVec 20) (s : State) : Res := if taken then .jump (s.target d) s else .ok s

def semBr (d : BitVec 20) (s : State) : Res := semBranch true d s
def semBc (p : BitVec 3) (d : BitVec 20) (s : State) : Res := semBranch (s.me.rp p.toNat) d s
def semBnc (p : BitVec 3) (d : BitVec 20) (s : State) : Res := semBranch (!s.me.rp p.toNat) d s
def semBmz (m : BitVec 3) (d : BitVec 20) (s : State) : Res := semBranch (s.me.rm m.toNat = 0) d s
def semBmnz (m : BitVec 3) (d : BitVec 20) (s : State) : Res := semBranch (s.me.rm m.toNat != 0) d s
/-- CALL (R99). -/
def semCall (d : BitVec 20) (s : State) : Res := .jump (s.target d) (s.ws 55 (s.me.pc + 8))
/-- JR (R99). -/
def semJr (a : BitVec 6) (s : State) : Res :=
  let t := s.rs a.toNat
  if t.toNat % 8 != 0 then .trap cALIGN (t.zeroExtend 32) else .jump t s
/-- CALLR (R99). -/
def semCallr (a : BitVec 6) (s : State) : Res :=
  let t := s.rs a.toNat
  if t.toNat % 8 != 0 then .trap cALIGN (t.zeroExtend 32) else .jump t (s.ws 55 (s.me.pc + 8))

/-! ### Shared registers, status and identity -/

/-- MOVK (R101). -/
def semMovk (d : BitVec 6) (k : BitVec 12) (s : State) : Res := .ok (s.ws d.toNat (vget s.my.k k.toNat 0))
/-- MOVTK (R101). -/
def semMovtk (a : BitVec 6) (k : BitVec 12) (s : State) : Res :=
  .ok (s.modMy fun x => { x with k := vset x.k k.toNat (s.rs a.toNat) })

/-- The status register of a code (R102). -/
def Slot.status (t : Slot) (c : Nat) : W64 :=
  match c with
  | 0 => t.tcause
  | 1 => t.ulivec
  | 2 => t.sticky
  | 3 => t.timer
  | 4 => t.lin
  | 8 => t.fxa.zeroExtend 64
  | 9 => t.fxb.zeroExtend 64
  | 10 => t.fxc.zeroExtend 64
  | 11 => t.spa
  | 12 => t.spb
  | 13 => t.geom
  | c => if c < 24 then (t.rsg (c - 16)).extractLsb' 0 64 else (t.rsg (c - 24)).extractLsb' 64 64

/-- Writes the RW fields of a status register; reserved bits are ignored (R5, R28, R42 to R44, R102). -/
def Slot.setStatus (t : Slot) (c : Nat) (x : W64) : Slot :=
  match c with
  | 1 => { t with ulivec := x &&& 0xFFFFFFFFFFFFFFF8#64 }
  | 2 => { t with sticky := t.sticky &&& ~~~x }
  | 8 => { t with fxa := x.zeroExtend 32 &&& 0xCF#32 }
  | 9 => { t with fxb := x.zeroExtend 32 &&& 0xCF#32 }
  | 10 => { t with fxc := x.zeroExtend 32 &&& 0x1FF#32 }
  | 11 => { t with spa := x &&& 0x0FFFFF00FFFFFFFF#64 }
  | 12 => { t with spb := x &&& 0x0FFFFF00FFFFFFFF#64 }
  | _ => t

/-- Whether MTS writes the register of a code (R102). -/
def mtsWrites (c : Nat) : Bool := c = 1 || c = 2 || (8 ≤ c && c ≤ 12)

/-- MFS (R102). -/
def semMfs (d c : BitVec 6) (s : State) : Res := .ok (s.ws d.toNat (s.me.status c.toNat))
/-- MTS (R102): PRIV at every level for a register it does not write. -/
def semMts (c a : BitVec 6) (s : State) : Res :=
  if mtsWrites c.toNat then .ok (s.modMe fun t => t.setStatus c.toNat (s.rs a.toNat)) else .trap cPRIV 0

/-- What GETID gives (R103); of a spare core the id is its own, not its position's (R353). -/
def State.ident (s : State) (n : Nat) : W64 :=
  match n with
  | 0 => BitVec.ofNat 64 (s.tid s.cur.1 s.cur.2)
  | 1 => BitVec.ofNat 64 s.cur.2
  | 2 => BitVec.ofNat 64 s.my.rank
  | 3 => BitVec.ofNat 64 s.my.gsize
  | 4 => BitVec.ofNat 64 s.cur.1
  | 5 => BitVec.ofNat 64 s.now
  | _ => BitVec.ofNat 64 s.me.level.toNat

/-- GETID (R103). -/
def semGetid (d which : BitVec 6) (s : State) : Res := .ok (s.ws d.toNat (s.ident which.toNat))

/-- EVCRD (R104). -/
def semEvcrd (d n : BitVec 6) (s : State) : Res := .ok (s.ws d.toNat ((vget s.my.ev n.toNat 0).zeroExtend 64))
/-- EVCCLR (R104). -/
def semEvcclr (n : BitVec 6) (s : State) : Res := .ok (s.modMy fun x => { x with ev := vset x.ev n.toNat 0 })

/-! ### Yielding and sleeping -/

/-- YIELD (R105): barred until the slot's next entry has passed; 32 cycles where it has none (Core.unbar). -/
def semYield (s : State) : Res := .ok (s.modMe fun t => { t with bar := some (s.now + 32) })

/-- Whether slot 15 finds a trap record, which ends its WAITMSG and SLEEP (R326). -/
def State.trapWaits (s : State) (c i : Nat) : Bool := i = 15 && !(s.core c).trapq.isEmpty

/-- SLEEP (R106). -/
def semSleep (d a : BitVec 6) (s : State) : Res :=
  if !s.me.mail.isEmpty then .ok (s.ws d.toNat 1)
  else if s.trapWaits s.cur.1 s.cur.2 then .ok (s.ws d.toNat 0)
  else
    let n := (s.rs a.toNat).toNat
    .hold none (s.await .waiting (.sleep d.toNat (if n = 0 then none else some (s.now + n))))

/-- WAITMSG (R303). -/
def semWaitmsg (c : BitVec 1) (s : State) : Res :=
  if s.trapWaits s.cur.1 s.cur.2 || (if c = 1 then s.me.credits != 0 else !s.me.mail.isEmpty) then .ok s
  else .hold none (s.await .waiting (.waitmsg (c = 1)))

/-- SLEEP ends, by a message, a trap record of slot 15, or its time (R106). -/
def State.endSleep (s : State) (c i d : Nat) : State :=
  (s.modSlot c i fun t => t.ws d (if t.mail.isEmpty then 0 else 1)).wake c i

/-- SLEEP_TIMEOUT (R106); the expiry stokes a banked core, at whose restart's end SLEEP ends behind the messages of that cycle
(R200). -/
def evSleepTimeout (core slot : Nat) (s : State) : State :=
  match (s.slot core slot).held with
  | .sleep d (some t) =>
    if s.now < t then s
    else if (s.core core).banked then s.stoke core
    else if (s.core core).restart.any fun r => s.now < r then s
    else (s.hear core).endSleep core slot d
  | _ => s

/-! ### Halting -/

/-- HALT (R107, R164): the slot drains. -/
def semHalt (s : State) : Res := (s.seqFault).getD (.hold none (s.await .parked .haltDrain))

/-- Whether a slot's steps are in the matrix unit (R107). -/
def Core.stepsOf (x : Core) (i : Nat) : Bool :=
  let mine := fun (o : MxOp) => match o with
    | .step t => t.slot = i
    | .move m => m.slot = i
    | .clear _ => false
  (match x.mx.run with
    | some (o, _) => mine o
    | none => false) || x.mx.queue.any mine

/-- What step 1 of R107 waits for: the slot's remote accesses, copy commands, stream refills and drains, divide, matrix
steps, repetition sequence and scan tiles (R240, R285, R313). -/
def State.drained (s : State) (c i : Nat) : Bool :=
  let x := s.core c
  let t := s.slot c i
  t.relaxed.isEmpty && !(x.cq.toList.any fun l => l.any fun q => q.slot = i && !q.complete)
    && !(x.su.toList.any fun u => u.owner = some i && (u.flight || (u.write && !u.staged.isEmpty)))
    && !(x.div.any fun q => q.slot = i) && !x.stepsOf i && !(x.seqr.owner = some i && x.seqr.run)
    && !(x.scan.owner = some i && !x.scan.tiles.isEmpty)

/-- Steps 2 to 4 of R107; messages held for a full mailbox find the slot IDLE (R304). -/
def State.goIdle (s : State) (c i : Nat) : State :=
  let s := s.modCore c fun x => x.release i
  let s := (s.endMembership c i).endPublish c i
  s.modSlot c i fun t =>
    { t with st := .idle, held := .none, stop := none, doomed := false, mail := [], credits := 0, imv := false }

/-- The unit of a slot that HALT releases next: a write binding of a pipe, which pushes an end strip (R107, R313). -/
def Core.haltUnit (x : Core) (i : Nat) : Option Nat :=
  [0, 1, 2, 3, 4, 5, 6, 7].find? fun u =>
    let y := vget x.su u Stream.reset
    y.owner = some i && y.write && y.kind = .pipe

/-- Whether HALT's next step may be taken (R107, R313). -/
def State.haltDue (s : State) (c i : Nat) : Bool :=
  (s.slot c i).held = .haltDrain && s.drained c i && (i = 14 ||
    match (s.core c).haltUnit i with
    | some u => (s.core c).closeReady (vget (s.core c).su u Stream.reset)
    | none => true)

/-- HALT_DRAIN_COMPLETE (R107, R269, R313): the slot goes idle, once each pipe it writes has taken an end strip; slot 14
only ends its handler. -/
def evHaltDrainComplete (core slot : Nat) (s : State) : State :=
  if !s.haltDue core slot then s
  else if slot = 14 then s.modSlot core 14 fun t => { t with st := .idle, held := .none, imv := false }
  else
    match (s.core core).haltUnit slot with
    | some u => s.modCore core fun x => x.closeUnit u
    | none => s.goIdle core slot

/-! ### Mailbox instructions -/

/-- The two dwords of the oldest message, or 0 (R302). -/
def Slot.oldest (t : Slot) : Msg := t.mail.headD ⟨0, 0, none⟩

/-- MBPOP (R302). -/
def semMbpop (d : BitVec 6) (s : State) : Res :=
  let m := s.me.oldest
  .ok ((s.modMe fun t => { t with mail := t.mail.tail }).modMe fun t => (t.ws d.toNat m.m0).ws (d.toNat + 1) m.m1)
/-- MBPEEK (R302). -/
def semMbpeek (d : BitVec 6) (s : State) : Res :=
  let m := s.me.oldest
  .ok (s.modMe fun t => (t.ws d.toNat m.m0).ws (d.toNat + 1) m.m1)
/-- MBCNT (R302): messages held; credits; credits, then one fewer. -/
def semMbcnt (d which : BitVec 6) (s : State) : Res :=
  if which = 0 then .ok (s.ws d.toNat (BitVec.ofNat 64 s.me.mail.length))
  else
    let n := s.me.credits
    let s := s.ws d.toNat (n.zeroExtend 64)
    .ok (if which = 2 && n != 0 then s.modMe fun t => { t with credits := t.credits - 1 } else s)

/-! ### Meanings -/

/-- MBPOP (R302). -/
def execMbpop (d : BitVec 6) (s : State) : Host.Outcome State Fault Refusal := s.aloneS fun s => semMbpop d s
/-- MBPEEK (R302). -/
def execMbpeek (d : BitVec 6) (s : State) : Host.Outcome State Fault Refusal := s.aloneS fun s => semMbpeek d s
/-- MBCNT (R302). -/
def execMbcnt (d which : BitVec 6) (s : State) : Host.Outcome State Fault Refusal :=
  s.aloneS fun s => semMbcnt d which s
/-- YIELD (R105). -/
def execYield (s : State) : Host.Outcome State Fault Refusal := s.aloneS fun s => semYield s
/-- SLEEP (R106). -/
def execSleep (d a : BitVec 6) (s : State) : Host.Outcome State Fault Refusal := s.aloneS fun s => semSleep d a s
/-- WAITMSG (R303). -/
def execWaitmsg (c : BitVec 1) (s : State) : Host.Outcome State Fault Refusal := s.aloneS fun s => semWaitmsg c s
/-- HALT (R107). -/
def execHalt (s : State) : Host.Outcome State Fault Refusal := s.aloneS fun s => semHalt s
/-- GETID (R103). -/
def execGetid (d which : BitVec 6) (s : State) : Host.Outcome State Fault Refusal :=
  s.aloneS fun s => semGetid d which s
/-- MFS (R102). -/
def execMfs (d c : BitVec 6) (s : State) : Host.Outcome State Fault Refusal := s.aloneS fun s => semMfs d c s
/-- MTS (R102). -/
def execMts (c a : BitVec 6) (s : State) : Host.Outcome State Fault Refusal := s.aloneS fun s => semMts c a s
/-- EVCRD (R104). -/
def execEvcrd (d n : BitVec 6) (s : State) : Host.Outcome State Fault Refusal := s.aloneS fun s => semEvcrd d n s
/-- EVCCLR (R104). -/
def execEvcclr (n : BitVec 6) (s : State) : Host.Outcome State Fault Refusal := s.aloneS fun s => semEvcclr n s
/-- JR (R99). -/
def execJr (a : BitVec 6) (s : State) : Host.Outcome State Fault Refusal := s.aloneS fun s => semJr a s
/-- CALLR (R99). -/
def execCallr (a : BitVec 6) (s : State) : Host.Outcome State Fault Refusal := s.aloneS fun s => semCallr a s
/-- CALL (R99). -/
def execCall (d : BitVec 20) (s : State) : Host.Outcome State Fault Refusal := s.aloneS fun s => semCall d s
/-- BMNZ (R99). -/
def execBmnz (m : BitVec 3) (d : BitVec 20) (s : State) : Host.Outcome State Fault Refusal :=
  s.aloneS fun s => semBmnz m d s
/-- BMZ (R99). -/
def execBmz (m : BitVec 3) (d : BitVec 20) (s : State) : Host.Outcome State Fault Refusal :=
  s.aloneS fun s => semBmz m d s
/-- BNC (R99). -/
def execBnc (p : BitVec 3) (d : BitVec 20) (s : State) : Host.Outcome State Fault Refusal :=
  s.aloneS fun s => semBnc p d s
/-- BC (R99). -/
def execBc (p : BitVec 3) (d : BitVec 20) (s : State) : Host.Outcome State Fault Refusal :=
  s.aloneS fun s => semBc p d s
/-- BR (R99). -/
def execBr (d : BitVec 20) (s : State) : Host.Outcome State Fault Refusal := s.aloneS fun s => semBr d s
/-- MOVTK (R101). -/
def execMovtk (a : BitVec 6) (k : BitVec 12) (s : State) : Host.Outcome State Fault Refusal :=
  s.aloneS fun s => semMovtk a k s
/-- MOVK (R101). -/
def execMovk (d : BitVec 6) (k : BitVec 12) (s : State) : Host.Outcome State Fault Refusal :=
  s.aloneS fun s => semMovk d k s
/-- HALT_DRAIN_COMPLETE (R107). -/
def execHaltDrainComplete (core slot : Nat) (s : State) : Host.Outcome State Fault Refusal :=
  .next (evHaltDrainComplete core slot s)
/-- SLEEP_TIMEOUT (R106). -/
def execSleepTimeout (core slot : Nat) (s : State) : Host.Outcome State Fault Refusal :=
  .next (evSleepTimeout core slot s)

end Sys2Proof.Machine
end

