-- ==== Sys2Proof/Machine/Flags.lean ====
section
/-! DEFINITION. Conditions: what a compare finds and writes to a predicate or a mask (R89, R116, R122). -/

namespace Sys2Proof.Machine

/-- The condition codes of CMP and CMPI (R89). -/
def condS (c : Nat) (x y : W64) : Bool :=
  match c with
  | 0 => x = y
  | 1 => x != y
  | 2 => x.slt y
  | 3 => !x.slt y
  | 4 => x.ult y
  | _ => !x.ult y

/-- The conditions of VCMP (R116). -/
inductive FCond where
  | eq
  | ne
  | lt
  | le
  | un
  | or
  deriving DecidableEq, Repr

/-- What a floating condition finds (R116). -/
def FCond.holds (c : FCond) (a b : Fv) : Bool :=
  let un := a.isNan || b.isNan
  match c with
  | .eq => a.eq b
  | .ne => !a.eq b
  | .lt => a.lt b
  | .le => !un && !b.lt a
  | .un => un
  | .or => !un

/-- The conditions of VCMPI (R122). -/
inductive ICond where
  | eq
  | ne
  | lt
  | le
  deriving DecidableEq, Repr

/-- What an integer condition finds (R122). -/
def ICond.holds (c : ICond) (a b : Int) : Bool :=
  match c with
  | .eq => a = b
  | .ne => a != b
  | .lt => a < b
  | .le => a ≤ b

/-- The mask whose active bits `j` are `f j` and whose other bits are kept (R116, R122). -/
def mergeMask (m old : W32) (f : Nat → Bool) : W32 :=
  BitVec.ofNat 32 (packN 1 (fun j => if (if m.getLsbD j then f j else old.getLsbD j) then 1 else 0) 32)

end Sys2Proof.Machine
end

