-- ==== Sys2Proof/Machine/Integer.lean ====
section
/-! DEFINITION. S-slot integer arithmetic, division, compares, predicate, mask and scalar-vector transfers (R83 to R91). -/

namespace Sys2Proof.Machine

/-- Writes a function of one scalar register (R81). -/
def sem1 (f : W64 → W64) (d a : BitVec 6) (s : State) : Res := .ok (s.ws d.toNat (f (s.rs a.toNat)))

/-- Writes a function of two scalar registers (R81). -/
def sem2 (f : W64 → W64 → W64) (d a b : BitVec 6) (s : State) : Res :=
  .ok (s.ws d.toNat (f (s.rs a.toNat) (s.rs b.toNat)))

/-- Writes a function of a scalar register and a sign-extended imm12 (R62, R83). -/
def semI (f : W64 → W64 → W64) (d a : BitVec 6) (imm : BitVec 12) (s : State) : Res :=
  .ok (s.ws d.toNat (f (s.rs a.toNat) (imm.signExtend 64)))

/-- A shift count: bits [5:0] (R83). -/
def cnt (b : W64) : Nat := b.toNat % 64

/-- floor(i(x) × i(y) / 2^64) (R83). -/
def mulhS (x y : W64) : W64 := BitVec.ofInt 64 (x.toInt * y.toInt / 2 ^ 64)
/-- floor(u(x) × u(y) / 2^64) (R83). -/
def mulhU (x y : W64) : W64 := BitVec.ofNat 64 (x.toNat * y.toNat / 2 ^ 64)
/-- Leading zeros; 64 for 0 (R83). -/
def clz64 (x : W64) : W64 := BitVec.ofNat 64 (clzN x.toNat 64)
/-- Trailing zeros; 64 for 0 (R83). -/
def ctz64 (x : W64) : W64 := BitVec.ofNat 64 (ctzFrom x.toNat 0 64)
/-- The number of 1 bits (R83). -/
def popc64 (x : W64) : W64 := BitVec.ofNat 64 (popcount x.toNat 64)
/-- Bit k is bit 63 − k (R83). -/
def brev64 (x : W64) : W64 := BitVec.ofNat 64 (packN 1 (fun k => x.toNat / 2 ^ (63 - k)) 64)
/-- Bits [n:0], sign-extended (R83). -/
def sextTo (n : Nat) (x : W64) : W64 := BitVec.ofInt 64 (sgn (n + 1) x.toNat)
/-- Bits [n:0], zero-extended (R83). -/
def zextTo (n : Nat) (x : W64) : W64 := BitVec.ofNat 64 (x.toNat % 2 ^ (n + 1))
/-- BEXT (R84): bit positions from `k`, `j` bits gathered so far. -/
def bextFrom (x y k j : Nat) : Nat → Nat
  | 0 => 0
  | n + 1 =>
    if y / 2 ^ k % 2 = 1 then x / 2 ^ k % 2 * 2 ^ j + bextFrom x y (k + 1) (j + 1) n else bextFrom x y (k + 1) j n
/-- BDEP (R84): bit positions from `k`, `j` bits scattered so far. -/
def bdepFrom (x y k j : Nat) : Nat → Nat
  | 0 => 0
  | n + 1 =>
    if y / 2 ^ k % 2 = 1 then x / 2 ^ j % 2 * 2 ^ k + bdepFrom x y (k + 1) (j + 1) n else bdepFrom x y (k + 1) j n
/-- BEXT (R84). -/
def bext64 (x y : W64) : W64 := BitVec.ofNat 64 (bextFrom x.toNat y.toNat 0 0 64)
/-- BDEP (R84). -/
def bdep64 (x y : W64) : W64 := BitVec.ofNat 64 (bdepFrom x.toNat y.toNat 0 0 64)
/-- The lesser or greater, read signed (R83). -/
def minS (x y : W64) : W64 := if x.slt y then x else y
def maxS (x y : W64) : W64 := if x.slt y then y else x
/-- The lesser or greater, read unsigned (R83). -/
def minU (x y : W64) : W64 := if x.ult y then x else y
def maxU (x y : W64) : W64 := if x.ult y then y else x

def semAddi (d a : BitVec 6) (imm : BitVec 12) (s : State) : Res := semI (· + ·) d a imm s
def semAndi (d a : BitVec 6) (imm : BitVec 12) (s : State) : Res := semI (· &&& ·) d a imm s
def semOri (d a : BitVec 6) (imm : BitVec 12) (s : State) : Res := semI (· ||| ·) d a imm s
def semXori (d a : BitVec 6) (imm : BitVec 12) (s : State) : Res := semI (· ^^^ ·) d a imm s
def semShli (d a n : BitVec 6) (s : State) : Res := sem1 (fun x => x <<< n.toNat) d a s
def semShri (d a n : BitVec 6) (s : State) : Res := sem1 (fun x => x >>> n.toNat) d a s
def semSrai (d a n : BitVec 6) (s : State) : Res := sem1 (fun x => x.sshiftRight n.toNat) d a s
def semAdd (d a b : BitVec 6) (s : State) : Res := sem2 (· + ·) d a b s
def semSub (d a b : BitVec 6) (s : State) : Res := sem2 (· - ·) d a b s
def semMul (d a b : BitVec 6) (s : State) : Res := sem2 (· * ·) d a b s
def semMulh (d a b : BitVec 6) (s : State) : Res := sem2 mulhS d a b s
def semMulhn (d a b : BitVec 6) (s : State) : Res := sem2 mulhU d a b s
def semAnd (d a b : BitVec 6) (s : State) : Res := sem2 (· &&& ·) d a b s
def semOr (d a b : BitVec 6) (s : State) : Res := sem2 (· ||| ·) d a b s
def semXor (d a b : BitVec 6) (s : State) : Res := sem2 (· ^^^ ·) d a b s
def semAndn (d a b : BitVec 6) (s : State) : Res := sem2 (fun x y => x &&& ~~~y) d a b s
def semShl (d a b : BitVec 6) (s : State) : Res := sem2 (fun x y => x <<< cnt y) d a b s
def semShr (d a b : BitVec 6) (s : State) : Res := sem2 (fun x y => x >>> cnt y) d a b s
def semSra (d a b : BitVec 6) (s : State) : Res := sem2 (fun x y => x.sshiftRight (cnt y)) d a b s
def semRotr (d a b : BitVec 6) (s : State) : Res := sem2 (fun x y => x.rotateRight (cnt y)) d a b s
def semMin (d a b : BitVec 6) (s : State) : Res := sem2 minS d a b s
def semMax (d a b : BitVec 6) (s : State) : Res := sem2 maxS d a b s
def semMinn (d a b : BitVec 6) (s : State) : Res := sem2 minU d a b s
def semMaxn (d a b : BitVec 6) (s : State) : Res := sem2 maxU d a b s
def semClz (d a : BitVec 6) (s : State) : Res := sem1 clz64 d a s
def semCtz (d a : BitVec 6) (s : State) : Res := sem1 ctz64 d a s
def semPopc (d a : BitVec 6) (s : State) : Res := sem1 popc64 d a s
def semBrev (d a : BitVec 6) (s : State) : Res := sem1 brev64 d a s
def semBext (d a b : BitVec 6) (s : State) : Res := sem2 bext64 d a b s
def semBdep (d a b : BitVec 6) (s : State) : Res := sem2 bdep64 d a b s
def semSext (d a n : BitVec 6) (s : State) : Res := sem1 (sextTo n.toNat) d a s
def semZext (d a n : BitVec 6) (s : State) : Res := sem1 (zextTo n.toNat) d a s
def semSel (d a b : BitVec 6) (p : BitVec 3) (s : State) : Res :=
  sem2 (fun x y => if s.me.rp p.toNat then x else y) d a b s
/-- MOVL (R85). -/
def semMovl (d : BitVec 6) (imm : BitVec 32) (s : State) : Res := .ok (s.ws d.toNat (imm.signExtend 64))
/-- MOVHI (R85). -/
def semMovhi (d : BitVec 6) (imm : BitVec 32) (s : State) : Res :=
  .ok (s.ws d.toNat (imm ++ (s.rs d.toNat).extractLsb' 0 32))
/-- LEA (R86). -/
def semLea (d a : BitVec 6) (sg : BitVec 3) (imm : BitVec 8) (s : State) : Res :=
  .ok (s.ws d.toNat (BitVec.ofNat 64 (sgBase (s.me.rsg sg.toNat)) + s.rs a.toNat + imm.signExtend 64))

/-! ### Division -/

/-- The quotient and remainder of R87, read signed. -/
def divS (x y : W64) : W64 := if y = 0 then BitVec.allOnes 64 else BitVec.ofInt 64 (Int.tdiv x.toInt y.toInt)
def remS (x y : W64) : W64 := if y = 0 then x else BitVec.ofInt 64 (Int.tmod x.toInt y.toInt)
/-- The quotient and remainder of R87, read unsigned. -/
def divU (x y : W64) : W64 := if y = 0 then BitVec.allOnes 64 else BitVec.ofNat 64 (x.toNat / y.toNat)
def remU (x y : W64) : W64 := if y = 0 then x else BitVec.ofNat 64 (x.toNat % y.toNat)

/-- A divide enters the core's unit, and its slot is PARKED until the result is written (R88). The unit starts it in
this cycle when it is free, and 21 cycles later writes it. -/
def semDivide (f : W64 → W64 → W64) (d a b : BitVec 6) (s : State) : Res :=
  let q : DivOp := ⟨s.cur.2, d.toNat, f (s.rs a.toNat) (s.rs b.toNat)⟩
  let s1 := s.modMy fun x => { x with div := x.div ++ [q] }
  let s2 := if s.my.div.isEmpty && s.my.divEnd = none then
      (s1.modMy fun x => { x with divEnd := some (s.now + 21) }).after 21 (.divideComplete s.cur.1)
    else s1
  .hold none (s2.await .parked .divide)

def semDiv (d a b : BitVec 6) (s : State) : Res := semDivide divS d a b s
def semDivn (d a b : BitVec 6) (s : State) : Res := semDivide divU d a b s
def semRem (d a b : BitVec 6) (s : State) : Res := semDivide remS d a b s
def semRemn (d a b : BitVec 6) (s : State) : Res := semDivide remU d a b s

/-! ### Compares and transfers -/

/-- CMP (R89). -/
def semCmp (c p : BitVec 3) (a b : BitVec 6) (s : State) : Res :=
  .ok (s.wp p.toNat (condS c.toNat (s.rs a.toNat) (s.rs b.toNat)))
/-- CMPI (R89). -/
def semCmpi (c p : BitVec 3) (a : BitVec 6) (imm : BitVec 12) (s : State) : Res :=
  .ok (s.wp p.toNat (condS c.toNat (s.rs a.toNat) (imm.signExtend 64)))

/-- The predicates as PTOS gives them: bit 0 is 1 (R90). -/
def Slot.preds (t : Slot) : W64 := t.p.zeroExtend 64 ||| 1

def semPand (d a b : BitVec 3) (s : State) : Res := .ok (s.wp d.toNat (s.me.rp a.toNat && s.me.rp b.toNat))
def semPor (d a b : BitVec 3) (s : State) : Res := .ok (s.wp d.toNat (s.me.rp a.toNat || s.me.rp b.toNat))
def semPxor (d a b : BitVec 3) (s : State) : Res := .ok (s.wp d.toNat (s.me.rp a.toNat != s.me.rp b.toNat))
def semPtos (d : BitVec 6) (s : State) : Res := .ok (s.ws d.toNat s.me.preds)
/-- STOP: p1 to p7 from bits 7 to 1 (R90). -/
def semStop (a : BitVec 6) (s : State) : Res :=
  .ok (s.modMe fun t => { t with p := (t.p &&& 1) ||| ((s.rs a.toNat).zeroExtend 8 &&& 0xFE) })
def semMtos (d : BitVec 6) (a : BitVec 3) (s : State) : Res := .ok (s.ws d.toNat ((s.me.rm a.toNat).zeroExtend 64))
def semStom (d : BitVec 3) (a : BitVec 6) (s : State) : Res := .ok (s.wm d.toNat ((s.rs a.toNat).zeroExtend 32))
/-- VMOVS (R90); a source bound for reading pops one strip (R91). -/
def semVmovs (d : BitVec 6) (a : BitVec 5) (b : BitVec 6) (s : State) : Res :=
  withOperands s s [a.toNat] [] [] true none fun cur =>
    .ok (cur.ws d.toNat (BitVec.ofNat 64 (VReg.elem (srcVal s true a.toNat) 32 ((s.rs b.toNat).toNat % 32))))
/-- SMOVV (R90); a bound register traps HANDLE (R91). -/
def semSmovv (d : BitVec 5) (a b : BitVec 6) (s : State) : Res :=
  withOperands s s [] [] [d.toNat] true none fun cur =>
    let j := (s.rs b.toNat).toNat % 32
    .ok (cur.wv d.toNat (VReg.ofElems 32 fun e =>
      if e = j then (s.rs a.toNat).toNat else VReg.elem (s.me.rv d.toNat) 32 e))

/-! ### Events of the divide unit -/

/-- DIVIDE_START (R88): a free unit starts the next queued operation. -/
def evDivideStart (core : Nat) (s : State) : State :=
  if !(s.core core).div.isEmpty && (s.core core).divEnd = none then
    (s.modCore core fun x => { x with divEnd := some (s.now + 21) }).after 21 (.divideComplete core)
  else s

/-- DIVIDE_COMPLETE (R88): the result is written and the slot becomes READY; the unit's next operation starts in the
next cycle. -/
def evDivideComplete (core : Nat) (s : State) : State :=
  match (s.core core).div, (s.core core).divEnd with
  | q :: rest, some e =>
    if e ≤ s.now then
      let s := s.modCore core fun x => { x with div := rest, divEnd := none }
      let s := s.modSlot core q.slot fun t => t.ws q.d q.result
      let s := if rest.isEmpty then s else s.after 1 (.divideStart core)
      if (s.slot core q.slot).held = .divide then s.wake core q.slot else s
    else s
  | _, _ => s

/-! ### Meanings -/

/-- MOVL (R85). -/
def execMovl (d : BitVec 6) (imm : BitVec 32) (s : State) : Host.Outcome State Fault Refusal :=
  s.aloneS fun s => semMovl d imm s
/-- MOVHI (R85). -/
def execMovhi (d : BitVec 6) (imm : BitVec 32) (s : State) : Host.Outcome State Fault Refusal :=
  s.aloneS fun s => semMovhi d imm s
/-- LEA (R86). -/
def execLea (d a : BitVec 6) (sg : BitVec 3) (imm : BitVec 8) (s : State) : Host.Outcome State Fault Refusal :=
  s.aloneS fun s => semLea d a sg imm s
/-- PAND (R90). -/
def execPand (d a b : BitVec 3) (s : State) : Host.Outcome State Fault Refusal := s.aloneS fun s => semPand d a b s
/-- POR (R90). -/
def execPor (d a b : BitVec 3) (s : State) : Host.Outcome State Fault Refusal := s.aloneS fun s => semPor d a b s
/-- PXOR (R90). -/
def execPxor (d a b : BitVec 3) (s : State) : Host.Outcome State Fault Refusal := s.aloneS fun s => semPxor d a b s
/-- PTOS (R90). -/
def execPtos (d : BitVec 6) (s : State) : Host.Outcome State Fault Refusal := s.aloneS fun s => semPtos d s
/-- STOP (R90). -/
def execStop (a : BitVec 6) (s : State) : Host.Outcome State Fault Refusal := s.aloneS fun s => semStop a s
/-- MTOS (R90). -/
def execMtos (d : BitVec 6) (a : BitVec 3) (s : State) : Host.Outcome State Fault Refusal :=
  s.aloneS fun s => semMtos d a s
/-- STOM (R90). -/
def execStom (d : BitVec 3) (a : BitVec 6) (s : State) : Host.Outcome State Fault Refusal :=
  s.aloneS fun s => semStom d a s
/-- VMOVS (R90). -/
def execVmovs (d : BitVec 6) (a : BitVec 5) (b : BitVec 6) (s : State) : Host.Outcome State Fault Refusal :=
  s.aloneS fun s => semVmovs d a b s
/-- SMOVV (R90). -/
def execSmovv (d : BitVec 5) (a b : BitVec 6) (s : State) : Host.Outcome State Fault Refusal :=
  s.aloneS fun s => semSmovv d a b s
/-- CMP (R89). -/
def execCmp (c p : BitVec 3) (a b : BitVec 6) (s : State) : Host.Outcome State Fault Refusal :=
  s.aloneS fun s => semCmp c p a b s
/-- DIV (R87). -/
def execDiv (d a b : BitVec 6) (s : State) : Host.Outcome State Fault Refusal := s.aloneS fun s => semDiv d a b s
/-- DIVN (R87). -/
def execDivn (d a b : BitVec 6) (s : State) : Host.Outcome State Fault Refusal := s.aloneS fun s => semDivn d a b s
/-- REM (R87). -/
def execRem (d a b : BitVec 6) (s : State) : Host.Outcome State Fault Refusal := s.aloneS fun s => semRem d a b s
/-- REMN (R87). -/
def execRemn (d a b : BitVec 6) (s : State) : Host.Outcome State Fault Refusal := s.aloneS fun s => semRemn d a b s
/-- ADD (R83). -/
def execAdd (d a b : BitVec 6) (s : State) : Host.Outcome State Fault Refusal := s.aloneS fun s => semAdd d a b s
/-- SUB (R83). -/
def execSub (d a b : BitVec 6) (s : State) : Host.Outcome State Fault Refusal := s.aloneS fun s => semSub d a b s
/-- MUL (R83). -/
def execMul (d a b : BitVec 6) (s : State) : Host.Outcome State Fault Refusal := s.aloneS fun s => semMul d a b s
/-- MULH (R83). -/
def execMulh (d a b : BitVec 6) (s : State) : Host.Outcome State Fault Refusal := s.aloneS fun s => semMulh d a b s
/-- MULHN (R83). -/
def execMulhn (d a b : BitVec 6) (s : State) : Host.Outcome State Fault Refusal := s.aloneS fun s => semMulhn d a b s
/-- AND (R83). -/
def execAnd (d a b : BitVec 6) (s : State) : Host.Outcome State Fault Refusal := s.aloneS fun s => semAnd d a b s
/-- OR (R83). -/
def execOr (d a b : BitVec 6) (s : State) : Host.Outcome State Fault Refusal := s.aloneS fun s => semOr d a b s
/-- XOR (R83). -/
def execXor (d a b : BitVec 6) (s : State) : Host.Outcome State Fault Refusal := s.aloneS fun s => semXor d a b s
/-- ANDN (R83). -/
def execAndn (d a b : BitVec 6) (s : State) : Host.Outcome State Fault Refusal := s.aloneS fun s => semAndn d a b s
/-- SHL (R83). -/
def execShl (d a b : BitVec 6) (s : State) : Host.Outcome State Fault Refusal := s.aloneS fun s => semShl d a b s
/-- SHR (R83). -/
def execShr (d a b : BitVec 6) (s : State) : Host.Outcome State Fault Refusal := s.aloneS fun s => semShr d a b s
/-- SRA (R83). -/
def execSra (d a b : BitVec 6) (s : State) : Host.Outcome State Fault Refusal := s.aloneS fun s => semSra d a b s
/-- ROTR (R83). -/
def execRotr (d a b : BitVec 6) (s : State) : Host.Outcome State Fault Refusal := s.aloneS fun s => semRotr d a b s
/-- MIN (R83). -/
def execMin (d a b : BitVec 6) (s : State) : Host.Outcome State Fault Refusal := s.aloneS fun s => semMin d a b s
/-- MAX (R83). -/
def execMax (d a b : BitVec 6) (s : State) : Host.Outcome State Fault Refusal := s.aloneS fun s => semMax d a b s
/-- MINN (R83). -/
def execMinn (d a b : BitVec 6) (s : State) : Host.Outcome State Fault Refusal := s.aloneS fun s => semMinn d a b s
/-- MAXN (R83). -/
def execMaxn (d a b : BitVec 6) (s : State) : Host.Outcome State Fault Refusal := s.aloneS fun s => semMaxn d a b s
/-- CLZ (R83). -/
def execClz (d a : BitVec 6) (s : State) : Host.Outcome State Fault Refusal := s.aloneS fun s => semClz d a s
/-- CTZ (R83). -/
def execCtz (d a : BitVec 6) (s : State) : Host.Outcome State Fault Refusal := s.aloneS fun s => semCtz d a s
/-- POPC (R83). -/
def execPopc (d a : BitVec 6) (s : State) : Host.Outcome State Fault Refusal := s.aloneS fun s => semPopc d a s
/-- BREV (R83). -/
def execBrev (d a : BitVec 6) (s : State) : Host.Outcome State Fault Refusal := s.aloneS fun s => semBrev d a s
/-- BEXT (R84). -/
def execBext (d a b : BitVec 6) (s : State) : Host.Outcome State Fault Refusal := s.aloneS fun s => semBext d a b s
/-- BDEP (R84). -/
def execBdep (d a b : BitVec 6) (s : State) : Host.Outcome State Fault Refusal := s.aloneS fun s => semBdep d a b s
/-- SEXT (R83). -/
def execSext (d a n : BitVec 6) (s : State) : Host.Outcome State Fault Refusal := s.aloneS fun s => semSext d a n s
/-- ZEXT (R83). -/
def execZext (d a n : BitVec 6) (s : State) : Host.Outcome State Fault Refusal := s.aloneS fun s => semZext d a n s
/-- SEL (R83). -/
def execSel (d a b : BitVec 6) (p : BitVec 3) (s : State) : Host.Outcome State Fault Refusal :=
  s.aloneS fun s => semSel d a b p s
/-- CMPI (R89). -/
def execCmpi (c p : BitVec 3) (a : BitVec 6) (imm : BitVec 12) (s : State) : Host.Outcome State Fault Refusal :=
  s.aloneS fun s => semCmpi c p a imm s
/-- SRAI (R83). -/
def execSrai (d a n : BitVec 6) (s : State) : Host.Outcome State Fault Refusal := s.aloneS fun s => semSrai d a n s
/-- SHRI (R83). -/
def execShri (d a n : BitVec 6) (s : State) : Host.Outcome State Fault Refusal := s.aloneS fun s => semShri d a n s
/-- SHLI (R83). -/
def execShli (d a n : BitVec 6) (s : State) : Host.Outcome State Fault Refusal := s.aloneS fun s => semShli d a n s
/-- XORI (R83). -/
def execXori (d a : BitVec 6) (imm : BitVec 12) (s : State) : Host.Outcome State Fault Refusal :=
  s.aloneS fun s => semXori d a imm s
/-- ORI (R83). -/
def execOri (d a : BitVec 6) (imm : BitVec 12) (s : State) : Host.Outcome State Fault Refusal :=
  s.aloneS fun s => semOri d a imm s
/-- ANDI (R83). -/
def execAndi (d a : BitVec 6) (imm : BitVec 12) (s : State) : Host.Outcome State Fault Refusal :=
  s.aloneS fun s => semAndi d a imm s
/-- ADDI (R83). -/
def execAddi (d a : BitVec 6) (imm : BitVec 12) (s : State) : Host.Outcome State Fault Refusal :=
  s.aloneS fun s => semAddi d a imm s
/-- DIVIDE_START (R88). -/
def execDivideStart (core : Nat) (s : State) : Host.Outcome State Fault Refusal := .next (evDivideStart core s)
/-- DIVIDE_COMPLETE (R88). -/
def execDivideComplete (core : Nat) (s : State) : Host.Outcome State Fault Refusal := .next (evDivideComplete core s)

end Sys2Proof.Machine
end

