-- ==== Sys2Proof/Machine/Memory.lean ====
section
/-! DEFINITION. Memory instructions of the S slot: loads, stores, vector and indexed accesses, full/empty operations
(R92 to R98, R261 to R271), atomics (R272 to R274) and fences (R275). -/

namespace Sys2Proof.Machine

/-- The offset of format SM (R62, R92): exact, with the displacement scaled. -/
def State.smOff (s : State) (a : BitVec 6) (imm : BitVec 8) (scale : Nat) : Int :=
  ((s.rs a.toNat).toNat : Int) + imm.toInt * scale

/-- A scalar load (R93). -/
def semLoad (n : Nat) (signed : Bool) (d a : BitVec 6) (sg : BitVec 3) (rx : BitVec 1) (imm : BitVec 8) (s : State) :
    Res :=
  let off := s.smOff a imm n
  s.access sg.toNat off n n .load false (fun _ => true)
    (fun x =>
      if s.my.bad x n then .trap cECCFATAL (offDetail off)
      else .ok ((s.touch s.cur.1 x n).ws d.toNat (extendTo n signed (s.my.rd x n))))
    (fun h x => s.request (rx = 1) h x (.load n signed) (offDetail off) d.toNat 0 0)

def semLdb (d a : BitVec 6) (sg : BitVec 3) (rx : BitVec 1) (imm : BitVec 8) (s : State) : Res :=
  semLoad 1 false d a sg rx imm s
def semLdbs (d a : BitVec 6) (sg : BitVec 3) (rx : BitVec 1) (imm : BitVec 8) (s : State) : Res :=
  semLoad 1 true d a sg rx imm s
def semLdh (d a : BitVec 6) (sg : BitVec 3) (rx : BitVec 1) (imm : BitVec 8) (s : State) : Res :=
  semLoad 2 false d a sg rx imm s
def semLdhs (d a : BitVec 6) (sg : BitVec 3) (rx : BitVec 1) (imm : BitVec 8) (s : State) : Res :=
  semLoad 2 true d a sg rx imm s
def semLdw (d a : BitVec 6) (sg : BitVec 3) (rx : BitVec 1) (imm : BitVec 8) (s : State) : Res :=
  semLoad 4 false d a sg rx imm s
def semLdws (d a : BitVec 6) (sg : BitVec 3) (rx : BitVec 1) (imm : BitVec 8) (s : State) : Res :=
  semLoad 4 true d a sg rx imm s
def semLdd (d a : BitVec 6) (sg : BitVec 3) (rx : BitVec 1) (imm : BitVec 8) (s : State) : Res :=
  semLoad 8 false d a sg rx imm s

/-- A scalar store (R93): a store of fewer than 4 bytes reads and merges its word (R19, R20). -/
def semStore (n : Nat) (d a : BitVec 6) (sg : BitVec 3) (rx : BitVec 1) (imm : BitVec 8) (s : State) : Res :=
  let off := s.smOff a imm n
  let v := (s.rs d.toNat).toNat
  s.access sg.toNat off n n .store false (fun _ => true)
    (fun x =>
      if n < 4 && s.my.bad x n then .trap cECCFATAL (offDetail off)
      else .ok ((if n < 4 then s.touch s.cur.1 x n else s).modMy fun y => y.wr x n v))
    (fun h x => s.request (rx = 1) h x (.store n) (offDetail off) 0 (BitVec.ofNat 1024 v) 0)

def semStb (d a : BitVec 6) (sg : BitVec 3) (rx : BitVec 1) (imm : BitVec 8) (s : State) : Res :=
  semStore 1 d a sg rx imm s
def semSth (d a : BitVec 6) (sg : BitVec 3) (rx : BitVec 1) (imm : BitVec 8) (s : State) : Res :=
  semStore 2 d a sg rx imm s
def semStw (d a : BitVec 6) (sg : BitVec 3) (rx : BitVec 1) (imm : BitVec 8) (s : State) : Res :=
  semStore 4 d a sg rx imm s
def semStd (d a : BitVec 6) (sg : BitVec 3) (rx : BitVec 1) (imm : BitVec 8) (s : State) : Res :=
  semStore 8 d a sg rx imm s

/-! ### Vector accesses -/

/-- The address fault of an access, if it has one (R17, R263). -/
def State.segTrap (s : State) (sg : Nat) (off : Int) (size align : Nat) (kind : AccKind) (wide : Bool) :
    Option (Nat × W32) :=
  match s.seg sg off size align kind wide false with
  | .bad c => some (c, offDetail off)
  | _ => none

/-- VLD (R94). -/
def semVld (d : BitVec 5) (a : BitVec 6) (sg : BitVec 3) (rx : BitVec 1) (imm : BitVec 8) (s : State) : Res :=
  let off := s.smOff a imm 128
  withOperands s s [] [d.toNat] [] true (s.segTrap sg.toNat off 128 4 .load true) fun cur =>
    s.access sg.toNat off 128 4 .load true (fun _ => true)
      (fun x =>
        if s.my.bad x 128 then .trap cECCFATAL (offDetail off)
        else .ok (putV s (cur.touch s.cur.1 x 128) d.toNat (BitVec.ofNat 1024 (s.my.rd x 128)) 0xFFFFFFFF#32))
      (fun h x => cur.request (rx = 1) h x .vload (offDetail off) d.toNat 0 0)

/-- VST (R94): a read-bound v[d] is read as an ordinary register (R112's example), and a write-bound one traps (R91, R112). -/
def semVst (d : BitVec 5) (a : BitVec 6) (sg : BitVec 3) (rx : BitVec 1) (imm : BitVec 8) (s : State) : Res :=
  let off := s.smOff a imm 128
  let v := s.me.rv d.toNat
  if (s.bound s.cur.1 s.cur.2 d.toNat).any fun e => e.2.write then .trap cHANDLE (hDetail 1 d.toNat)
  else
    s.access sg.toNat off 128 4 .store true (fun _ => true)
      (fun x => .ok (s.modMy fun y => y.wr x 128 v.toNat))
      (fun h x => s.request (rx = 1) h x .vstore (offDetail off) 0 v 0)

/-- VLDB (R94). -/
def semVldb (d : BitVec 5) (a : BitVec 6) (sg : BitVec 3) (imm : BitVec 8) (s : State) : Res :=
  let off := s.smOff a imm 4
  withOperands s s [] [d.toNat] [] true (s.segTrap sg.toNat off 4 4 .load true) fun cur =>
    s.access sg.toNat off 4 4 .load true (fun _ => true)
      (fun x =>
        if s.my.bad x 4 then .trap cECCFATAL (offDetail off)
        else .ok (putV s (cur.touch s.cur.1 x 4) d.toNat (padStrip (s.my.rd x 4)) 0xFFFFFFFF#32))
      (fun h x => cur.request false h x .vbcast (offDetail off) d.toNat 0 0)

/-- The active lanes of a mask, lowest first. -/
def laneList (m : W32) : List Nat := (List.range 32).filter fun j => m.getLsbD j

/-- The local address of a lane of an indexed access, or its cause (R95, R261). -/
def State.laneSeg (s : State) (sg : Nat) (a : BitVec 6) (idx : VReg) (kind : AccKind) (j : Nat) : SegR :=
  s.seg sg (((s.rs a.toNat).toNat + 4 * VReg.elem idx 32 j : Nat) : Int) 4 4 kind false true

/-- The lowest cause among the lanes, with the lowest lane that has it (R95). -/
def laneTrap (lanes : List Nat) (f : Nat → SegR) : Option (Nat × W32) :=
  lanes.foldl (fun t j => match f j with
    | .bad c => minTrap t (some (c, BitVec.ofNat 32 j))
    | .remote _ _ => minTrap t (some (cSPACE, BitVec.ofNat 32 j))
    | .at _ => t) none

/-- d of the Banked class: the most distinct words that one bank serves (R96). -/
def bankLoad (xs : List Nat) : Nat :=
  let ws := (xs.map (· / 4)).eraseDups
  (ws.map fun w => (ws.filter fun v => v % 64 = w % 64).length).foldl max 0

/-- The interval to the slot's next issue after an indexed access (R96). -/
def State.banked (s : State) (xs : List Nat) : State := s.modMe fun t => { t with gap := max 8 (bankLoad xs + 7) }

/-- The trap of an indexed access's lanes, once its index vector is there. -/
def State.laneFault (s : State) (vi : Nat) (mask : W32) (f : Nat → SegR) : Option (Nat × W32) :=
  if srcReady s (mask != 0) vi then laneTrap (laneList mask) f else none

/-- VLDX (R95, R96). -/
def semVldx (d : BitVec 5) (a : BitVec 6) (sg : BitVec 3) (rx : BitVec 1) (vi : BitVec 5) (m : BitVec 3) (s : State) :
    Res :=
  let _ := rx
  let mask := s.me.rm m.toNat
  let lanes := laneList mask
  let at_ := s.laneSeg sg.toNat a (srcVal s (mask != 0) vi.toNat) .load
  withOperands s s [vi.toNat] [d.toNat] [] (mask != 0) (s.laneFault vi.toNat mask at_) fun cur =>
    match lanes.find? fun j => s.my.bad (at_ j).addr 4 with
    | some j => .trap cECCFATAL (BitVec.ofNat 32 j)
    | none =>
      let xs := lanes.map fun j => (at_ j).addr
      let cur := xs.foldl (fun q x => q.touch s.cur.1 x 4) cur
      .ok ((putV s cur d.toNat
        (mergeElems 32 mask (s.me.rv d.toNat) fun j => s.my.rd (at_ j).addr 4) mask).banked xs)

/-- VSTX (R95, R96): the highest active lane that writes a word wins. Every bundle issued from the next cycle on sees the new
values, where R24 allows either while the store is in progress: DESIGN CHOICE (log entry 122). -/
def semVstx (d : BitVec 5) (a : BitVec 6) (sg : BitVec 3) (rx : BitVec 1) (vi : BitVec 5) (m : BitVec 3) (s : State) :
    Res :=
  let _ := rx
  let mask := s.me.rm m.toNat
  let lanes := laneList mask
  let act := mask != 0
  let at_ := s.laneSeg sg.toNat a (srcVal s act vi.toNat) .store
  let v := srcVal s act d.toNat
  withOperands s s [vi.toNat, d.toNat] [] [] act (s.laneFault vi.toNat mask at_) fun cur =>
    let cur := cur.modMy fun x => lanes.foldl (fun x j => x.wr (at_ j).addr 4 (VReg.elem v 32 j)) x
    .ok (cur.banked (lanes.map fun j => (at_ j).addr))

/-! ### Full/empty operations -/

/-- LDWSYNC and LDWTAKE (R97, R98): an empty word parks the slot among its waiters. -/
def semSync (take : Bool) (d a : BitVec 6) (sg : BitVec 3) (imm : BitVec 8) (s : State) : Res :=
  let off := s.smOff a imm 4
  s.access sg.toNat off 4 4 .load false (fun g => !take || sgW g)
    (fun x =>
      if s.my.isFull x then
        if s.my.bad x 4 then .trap cECCFATAL (offDetail off)
        else
          let q := (s.touch s.cur.1 x 4).ws d.toNat (BitVec.ofNat 64 (s.my.rd x 4))
          .ok (if take then q.modMy fun y => y.setFe x false else q)
      else
        let q := s.modMy fun y => { y with feWait := y.feWait ++ [⟨x, take, s.cur.2, d.toNat, offDetail off, none⟩] }
        .hold none (q.await .parked (.fe x)))
    (fun h x => s.request false h x (.sync take) (offDetail off) d.toNat 0 0)

def semLdwsync (d a : BitVec 6) (sg : BitVec 3) (imm : BitVec 8) (s : State) : Res := semSync false d a sg imm s
def semLdwtake (d a : BitVec 6) (sg : BitVec 3) (imm : BitVec 8) (s : State) : Res := semSync true d a sg imm s

/-- STWFILL (R97). -/
def semStwfill (d a : BitVec 6) (sg : BitVec 3) (rx : BitVec 1) (imm : BitVec 8) (s : State) : Res :=
  let off := s.smOff a imm 4
  let v := (s.rs d.toNat).toNat
  s.access sg.toNat off 4 4 .store false (fun _ => true)
    (fun x => .ok (s.modMy fun y => (y.wr x 4 v).setFe x true))
    (fun h x => s.request (rx = 1) h x .fill (offDetail off) 0 (BitVec.ofNat 1024 v) 0)

/-- FESET and FECLR (R97). -/
def semFeput (full : Bool) (a : BitVec 6) (sg : BitVec 3) (imm : BitVec 8) (s : State) : Res :=
  let off := s.smOff a imm 4
  s.access sg.toNat off 4 4 .store false (fun _ => true)
    (fun x => .ok (s.modMy fun y => y.setFe x full))
    (fun h x => s.request false h x (if full then .feSet else .feClr) (offDetail off) 0 0 0)

def semFeset (a : BitVec 6) (sg : BitVec 3) (imm : BitVec 8) (s : State) : Res := semFeput true a sg imm s
def semFeclr (a : BitVec 6) (sg : BitVec 3) (imm : BitVec 8) (s : State) : Res := semFeput false a sg imm s

/-- FETEST (R97). -/
def semFetest (p : BitVec 3) (a : BitVec 6) (sg : BitVec 3) (imm : BitVec 8) (s : State) : Res :=
  let off := s.smOff a imm 4
  s.access sg.toNat off 4 4 .load false (fun _ => true)
    (fun x => .ok (s.wp p.toNat (s.my.isFull x)))
    (fun h x => s.request false h x .feTest (offDetail off) p.toNat 0 0)

/-! ### Atomics -/

/-- Performs an atomic on the local word, or sends it, once no release wait stands in its way; a relaxed one that acquires
parks its slot until its reply (R270, R273, R274). -/
def amoGo (op : Nat) (d a b : BitVec 6) (sg : BitVec 3) (c : BitVec 6) (scope : BitVec 3) (order : BitVec 2)
    (rx w : BitVec 1) (imm : BitVec 19) (s : State) : Res :=
  let n : Nat := if w = 1 then 8 else 4
  let off : Int := ((s.rs a.toNat).toNat : Int) + imm.toInt * n
  let y := (s.rs b.toNat).toNat % 2 ^ (8 * n)
  let new := s.rs c.toNat
  s.access sg.toNat off n n .load false (fun g => sgW g && sgA g)
    (fun x =>
      if s.my.bad x n then .trap cECCFATAL (offDetail off)
      else
        let old := s.my.rd x n
        let q := (s.touch s.cur.1 x n).modMy fun z => z.wr x n (amoNew op (8 * n) old y (new.toNat % 2 ^ (8 * n)))
        .ok (q.ws d.toNat (BitVec.ofNat 64 old)))
    (fun h x =>
      let acq := s.inScope s.cur.1 scope.toNat h && order.toNat % 2 = 1
      match s.request (rx = 1) h x (.amo op (w = 1)) (offDetail off) d.toNat (BitVec.ofNat 1024 y) new with
      | .ok q => if acq then .hold none (q.await .parked (.acquire (s.nonce + 1))) else .ok q
      | r => r)

/-- An atomic at issue (R273, R274, R333): AMOADD traps IDEMADD in an open region; a home outside the scope sets
SCOPEMISS; a release waits for the relaxed accesses of its scope. -/
def semAmo (i : Instr) (op : Nat) (d a b : BitVec 6) (sg : BitVec 3) (c : BitVec 6) (scope : BitVec 3)
    (order : BitVec 2) (rx w : BitVec 1) (imm : BitVec 19) (s : State) : Res :=
  let n : Nat := if w = 1 then 8 else 4
  let off : Int := ((s.rs a.toNat).toNat : Int) + imm.toInt * n
  let go := fun (home : Nat) =>
    if op = 0 && s.me.imv then Res.trap cIDEMADD s.me.markDetail
    else if !s.inScope s.cur.1 scope.toNat home then
      amoGo op d a b sg c scope order rx w imm (s.stick s.cur.1 s.cur.2 64)
    else if 2 ≤ order.toNat && s.relaxedIn s.cur.1 s.cur.2 scope.toNat then
      .hold none (s.await .parked (.release i scope.toNat))
    else amoGo op d a b sg c scope order rx w imm s
  s.access sg.toNat off n n .load false (fun g => sgW g && sgA g) (fun _ => go s.cur.1) (fun h _ => go h)

def semAmoadd (d a b : BitVec 6) (sg scope : BitVec 3) (order : BitVec 2) (rx w : BitVec 1) (imm : BitVec 19)
    (s : State) : Res :=
  semAmo (.amoadd d a b sg scope order rx w imm) 0 d a b sg 0 scope order rx w imm s
def semAmoand (d a b : BitVec 6) (sg scope : BitVec 3) (order : BitVec 2) (rx w : BitVec 1) (imm : BitVec 19)
    (s : State) : Res :=
  semAmo (.amoand d a b sg scope order rx w imm) 1 d a b sg 0 scope order rx w imm s
def semAmoor (d a b : BitVec 6) (sg scope : BitVec 3) (order : BitVec 2) (rx w : BitVec 1) (imm : BitVec 19)
    (s : State) : Res :=
  semAmo (.amoor d a b sg scope order rx w imm) 2 d a b sg 0 scope order rx w imm s
def semAmoxor (d a b : BitVec 6) (sg scope : BitVec 3) (order : BitVec 2) (rx w : BitVec 1) (imm : BitVec 19)
    (s : State) : Res :=
  semAmo (.amoxor d a b sg scope order rx w imm) 3 d a b sg 0 scope order rx w imm s
def semAmomin (d a b : BitVec 6) (sg scope : BitVec 3) (order : BitVec 2) (rx w : BitVec 1) (imm : BitVec 19)
    (s : State) : Res :=
  semAmo (.amomin d a b sg scope order rx w imm) 4 d a b sg 0 scope order rx w imm s
def semAmomax (d a b : BitVec 6) (sg scope : BitVec 3) (order : BitVec 2) (rx w : BitVec 1) (imm : BitVec 19)
    (s : State) : Res :=
  semAmo (.amomax d a b sg scope order rx w imm) 5 d a b sg 0 scope order rx w imm s
def semAmominn (d a b : BitVec 6) (sg scope : BitVec 3) (order : BitVec 2) (rx w : BitVec 1) (imm : BitVec 19)
    (s : State) : Res :=
  semAmo (.amominn d a b sg scope order rx w imm) 6 d a b sg 0 scope order rx w imm s
def semAmomaxn (d a b : BitVec 6) (sg scope : BitVec 3) (order : BitVec 2) (rx w : BitVec 1) (imm : BitVec 19)
    (s : State) : Res :=
  semAmo (.amomaxn d a b sg scope order rx w imm) 7 d a b sg 0 scope order rx w imm s
def semAmoswap (d a b : BitVec 6) (sg scope : BitVec 3) (order : BitVec 2) (rx w : BitVec 1) (imm : BitVec 19)
    (s : State) : Res :=
  semAmo (.amoswap d a b sg scope order rx w imm) 8 d a b sg 0 scope order rx w imm s
def semAmocas (d a b : BitVec 6) (sg : BitVec 3) (c : BitVec 6) (scope : BitVec 3) (order : BitVec 2) (rx w : BitVec 1)
    (imm : BitVec 19) (s : State) : Res :=
  semAmo (.amocas d a b sg c scope order rx w imm) 9 d a b sg c scope order rx w imm s

/-- The words of an access of the executing slot, where its bytes lie in the local store. -/
def State.nearWords (s : State) (sg : Nat) (off : Int) (n : Nat) : List Nat :=
  match s.seg sg off n 1 .load true false, s.seg sg off n 1 .store true false with
  | .at a, _ => wordsOf a n
  | _, .at a => wordsOf a n
  | _, _ => []

/-- The words of an atomic of the executing slot, where they lie in the local store (R273). -/
def State.atomicWords (s : State) (i : Instr) : List Nat :=
  let at_ := fun (sg : BitVec 3) (a : BitVec 6) (w : BitVec 1) (imm : BitVec 19) =>
    let n : Nat := if w = 1 then 8 else 4
    s.nearWords sg.toNat (((s.rs a.toNat).toNat : Int) + imm.toInt * n) n
  match i with
  | .amoadd _ a _ sg _ _ _ w imm | .amoand _ a _ sg _ _ _ w imm | .amoor _ a _ sg _ _ _ w imm
  | .amoxor _ a _ sg _ _ _ w imm | .amomin _ a _ sg _ _ _ w imm | .amomax _ a _ sg _ _ _ w imm
  | .amominn _ a _ sg _ _ _ w imm | .amomaxn _ a _ sg _ _ _ w imm | .amoswap _ a _ sg _ _ _ w imm
  | .amocas _ a _ sg _ _ _ _ w imm => at_ sg a w imm
  | _ => []

/-- The atomic that a release wait held, when it ends (R274); a local one takes its banks in that cycle (R25). -/
def releaseGo (i : Instr) (s : State) : Res :=
  match i with
  | .amoadd d a b sg scope order rx w imm => amoGo 0 d a b sg 0 scope order rx w imm s
  | .amoand d a b sg scope order rx w imm => amoGo 1 d a b sg 0 scope order rx w imm s
  | .amoor d a b sg scope order rx w imm => amoGo 2 d a b sg 0 scope order rx w imm s
  | .amoxor d a b sg scope order rx w imm => amoGo 3 d a b sg 0 scope order rx w imm s
  | .amomin d a b sg scope order rx w imm => amoGo 4 d a b sg 0 scope order rx w imm s
  | .amomax d a b sg scope order rx w imm => amoGo 5 d a b sg 0 scope order rx w imm s
  | .amominn d a b sg scope order rx w imm => amoGo 6 d a b sg 0 scope order rx w imm s
  | .amomaxn d a b sg scope order rx w imm => amoGo 7 d a b sg 0 scope order rx w imm s
  | .amoswap d a b sg scope order rx w imm => amoGo 8 d a b sg 0 scope order rx w imm s
  | .amocas d a b sg c scope order rx w imm => amoGo 9 d a b sg c scope order rx w imm s
  | _ => .ok s

/-! ### Fences -/

/-- FENCE and FENCEE (R275). -/
def semFences (engines : Bool) (scope : BitVec 3) (s : State) : Res :=
  if s.relaxedIn s.cur.1 s.cur.2 scope.toNat || (engines && s.enginesBusy s.cur.1 s.cur.2) then
    .hold none (s.await .parked (.fence scope.toNat engines))
  else .ok s

def semFence (scope : BitVec 3) (s : State) : Res := semFences false scope s
def semFencee (scope : BitVec 3) (s : State) : Res := semFences true scope s

/-- Whether the wait of a fence or a release has ended (R274, R275). -/
def State.fenceDone (s : State) (c i : Nat) : Bool :=
  match (s.slot c i).held with
  | .fence scope engines => !s.relaxedIn c i scope && !(engines && s.enginesBusy c i)
  | .release _ scope => !s.relaxedIn c i scope
  | _ => false

/-- FENCE_COMPLETE (R274, R275): the fence ends, or the atomic that waited is performed or sent. -/
def evFenceComplete (core slot : Nat) (s : State) : State :=
  if !s.fenceDone core slot then s
  else
    match (s.slot core slot).held with
    | .fence _ _ => s.wake core slot
    | .release i _ =>
      let keep := s.cur
      let q := match releaseGo i { s with cur := (core, slot) } with
        | .ok t => (t.takeBanks core (({ s with cur := (core, slot) } : State).atomicWords i)).wake core slot
        | .hold _ t => t
        | .again h => s.modSlot core slot fun t => { t with held := h }
        | .trap c d => s.stopAt core slot ⟨c, d, false, false, false⟩
        | _ => s
      { q with cur := keep }
    | _ => s

/-! ### SEND -/

/-- SEND (R268): an unbound handler or a rank outside the gang traps HANDLE. -/
def semSend (n a : BitVec 6) (rx : BitVec 1) (h : BitVec 4) (s : State) : Res :=
  let x := s.my
  let rank := (s.rs a.toNat).toNat
  if !(vget x.hand h.toNat 0).getLsbD 31 then .trap cHANDLE (hDetail 9 h.toNat)
  else if rank ≥ x.gsize then .trap cHANDLE (hDetail 7 rank)
  else
    let home := s.rankCore s.cur.1 rank
    let m : ActMsg := ⟨s.cur.1, s.cur.2, rx = 1, 0, h.toNat, s.rs n.toNat, s.rs (n.toNat + 1), s.rs (n.toNat + 2),
      s.tid s.cur.1 s.cur.2⟩
    let same := fun (e : Event) => match e with
      | .remoteRequestArrive c (.builtin q) => c = home && q.src = s.cur.1 && s.inOrder s.cur.1 home (.builtin q)
      | .remoteRequestArrive c (.active q) => c = home && q.src = s.cur.1 && s.inOrder s.cur.1 home (.active q)
      | _ => false
    if rx = 1 then
      if s.me.relaxed.length ≥ 8 then .again .relaxFull
      else
        let id := s.nonce + 1
        let s := { s with nonce := id }
        let s := s.modMe fun t => { t with relaxed := t.relaxed ++ [⟨id, home, none, 0, 0⟩] }
        .ok (s.sendTo s.cur.1 home same (.remoteRequestArrive home (.active { m with id := id })))
    else
      .hold none ((s.sendTo s.cur.1 home same (.remoteRequestArrive home (.active m))).await .parked .send)

/-! ### Meanings -/

/-- AMOADD (R273). -/
def execAmoadd (d a b : BitVec 6) (sg scope : BitVec 3) (order : BitVec 2) (rx w : BitVec 1) (imm : BitVec 19) (s : State) : Host.Outcome State Fault Refusal :=
  s.aloneS fun s => semAmoadd d a b sg scope order rx w imm s
/-- AMOAND (R273). -/
def execAmoand (d a b : BitVec 6) (sg scope : BitVec 3) (order : BitVec 2) (rx w : BitVec 1) (imm : BitVec 19) (s : State) : Host.Outcome State Fault Refusal :=
  s.aloneS fun s => semAmoand d a b sg scope order rx w imm s
/-- AMOOR (R273). -/
def execAmoor (d a b : BitVec 6) (sg scope : BitVec 3) (order : BitVec 2) (rx w : BitVec 1) (imm : BitVec 19) (s : State) : Host.Outcome State Fault Refusal :=
  s.aloneS fun s => semAmoor d a b sg scope order rx w imm s
/-- AMOXOR (R273). -/
def execAmoxor (d a b : BitVec 6) (sg scope : BitVec 3) (order : BitVec 2) (rx w : BitVec 1) (imm : BitVec 19) (s : State) : Host.Outcome State Fault Refusal :=
  s.aloneS fun s => semAmoxor d a b sg scope order rx w imm s
/-- AMOMIN (R273). -/
def execAmomin (d a b : BitVec 6) (sg scope : BitVec 3) (order : BitVec 2) (rx w : BitVec 1) (imm : BitVec 19) (s : State) : Host.Outcome State Fault Refusal :=
  s.aloneS fun s => semAmomin d a b sg scope order rx w imm s
/-- AMOMAX (R273). -/
def execAmomax (d a b : BitVec 6) (sg scope : BitVec 3) (order : BitVec 2) (rx w : BitVec 1) (imm : BitVec 19) (s : State) : Host.Outcome State Fault Refusal :=
  s.aloneS fun s => semAmomax d a b sg scope order rx w imm s
/-- AMOMINN (R273). -/
def execAmominn (d a b : BitVec 6) (sg scope : BitVec 3) (order : BitVec 2) (rx w : BitVec 1) (imm : BitVec 19) (s : State) : Host.Outcome State Fault Refusal :=
  s.aloneS fun s => semAmominn d a b sg scope order rx w imm s
/-- AMOMAXN (R273). -/
def execAmomaxn (d a b : BitVec 6) (sg scope : BitVec 3) (order : BitVec 2) (rx w : BitVec 1) (imm : BitVec 19) (s : State) : Host.Outcome State Fault Refusal :=
  s.aloneS fun s => semAmomaxn d a b sg scope order rx w imm s
/-- AMOSWAP (R273). -/
def execAmoswap (d a b : BitVec 6) (sg scope : BitVec 3) (order : BitVec 2) (rx w : BitVec 1) (imm : BitVec 19) (s : State) : Host.Outcome State Fault Refusal :=
  s.aloneS fun s => semAmoswap d a b sg scope order rx w imm s
/-- AMOCAS (R273). -/
def execAmocas (d a b : BitVec 6) (sg : BitVec 3) (c : BitVec 6) (scope : BitVec 3) (order : BitVec 2) (rx w : BitVec 1) (imm : BitVec 19) (s : State) : Host.Outcome State Fault Refusal :=
  s.aloneS fun s => semAmocas d a b sg c scope order rx w imm s
/-- SEND (R268). -/
def execSend (n a : BitVec 6) (rx : BitVec 1) (h : BitVec 4) (s : State) : Host.Outcome State Fault Refusal :=
  s.aloneS fun s => semSend n a rx h s
/-- VSTX (R95). -/
def execVstx (d : BitVec 5) (a : BitVec 6) (sg : BitVec 3) (rx : BitVec 1) (vi : BitVec 5) (m : BitVec 3) (s : State) : Host.Outcome State Fault Refusal :=
  s.aloneS fun s => semVstx d a sg rx vi m s
/-- VLDX (R95). -/
def execVldx (d : BitVec 5) (a : BitVec 6) (sg : BitVec 3) (rx : BitVec 1) (vi : BitVec 5) (m : BitVec 3) (s : State) : Host.Outcome State Fault Refusal :=
  s.aloneS fun s => semVldx d a sg rx vi m s
/-- VLDB (R94). -/
def execVldb (d : BitVec 5) (a : BitVec 6) (sg : BitVec 3) (imm : BitVec 8) (s : State) : Host.Outcome State Fault Refusal :=
  s.aloneS fun s => semVldb d a sg imm s
/-- VST (R94). -/
def execVst (d : BitVec 5) (a : BitVec 6) (sg : BitVec 3) (rx : BitVec 1) (imm : BitVec 8) (s : State) : Host.Outcome State Fault Refusal :=
  s.aloneS fun s => semVst d a sg rx imm s
/-- VLD (R94). -/
def execVld (d : BitVec 5) (a : BitVec 6) (sg : BitVec 3) (rx : BitVec 1) (imm : BitVec 8) (s : State) : Host.Outcome State Fault Refusal :=
  s.aloneS fun s => semVld d a sg rx imm s
/-- FETEST (R97). -/
def execFetest (p : BitVec 3) (a : BitVec 6) (sg : BitVec 3) (imm : BitVec 8) (s : State) : Host.Outcome State Fault Refusal :=
  s.aloneS fun s => semFetest p a sg imm s
/-- FECLR (R97). -/
def execFeclr (a : BitVec 6) (sg : BitVec 3) (imm : BitVec 8) (s : State) : Host.Outcome State Fault Refusal :=
  s.aloneS fun s => semFeclr a sg imm s
/-- FESET (R97). -/
def execFeset (a : BitVec 6) (sg : BitVec 3) (imm : BitVec 8) (s : State) : Host.Outcome State Fault Refusal :=
  s.aloneS fun s => semFeset a sg imm s
/-- STWFILL (R97). -/
def execStwfill (d a : BitVec 6) (sg : BitVec 3) (rx : BitVec 1) (imm : BitVec 8) (s : State) : Host.Outcome State Fault Refusal :=
  s.aloneS fun s => semStwfill d a sg rx imm s
/-- LDWTAKE (R97). -/
def execLdwtake (d a : BitVec 6) (sg : BitVec 3) (imm : BitVec 8) (s : State) : Host.Outcome State Fault Refusal :=
  s.aloneS fun s => semLdwtake d a sg imm s
/-- LDWSYNC (R97). -/
def execLdwsync (d a : BitVec 6) (sg : BitVec 3) (imm : BitVec 8) (s : State) : Host.Outcome State Fault Refusal :=
  s.aloneS fun s => semLdwsync d a sg imm s
/-- STD (R93). -/
def execStd (d a : BitVec 6) (sg : BitVec 3) (rx : BitVec 1) (imm : BitVec 8) (s : State) : Host.Outcome State Fault Refusal :=
  s.aloneS fun s => semStd d a sg rx imm s
/-- STW (R93). -/
def execStw (d a : BitVec 6) (sg : BitVec 3) (rx : BitVec 1) (imm : BitVec 8) (s : State) : Host.Outcome State Fault Refusal :=
  s.aloneS fun s => semStw d a sg rx imm s
/-- STH (R93). -/
def execSth (d a : BitVec 6) (sg : BitVec 3) (rx : BitVec 1) (imm : BitVec 8) (s : State) : Host.Outcome State Fault Refusal :=
  s.aloneS fun s => semSth d a sg rx imm s
/-- STB (R93). -/
def execStb (d a : BitVec 6) (sg : BitVec 3) (rx : BitVec 1) (imm : BitVec 8) (s : State) : Host.Outcome State Fault Refusal :=
  s.aloneS fun s => semStb d a sg rx imm s
/-- LDD (R93). -/
def execLdd (d a : BitVec 6) (sg : BitVec 3) (rx : BitVec 1) (imm : BitVec 8) (s : State) : Host.Outcome State Fault Refusal :=
  s.aloneS fun s => semLdd d a sg rx imm s
/-- LDWS (R93). -/
def execLdws (d a : BitVec 6) (sg : BitVec 3) (rx : BitVec 1) (imm : BitVec 8) (s : State) : Host.Outcome State Fault Refusal :=
  s.aloneS fun s => semLdws d a sg rx imm s
/-- LDW (R93). -/
def execLdw (d a : BitVec 6) (sg : BitVec 3) (rx : BitVec 1) (imm : BitVec 8) (s : State) : Host.Outcome State Fault Refusal :=
  s.aloneS fun s => semLdw d a sg rx imm s
/-- LDHS (R93). -/
def execLdhs (d a : BitVec 6) (sg : BitVec 3) (rx : BitVec 1) (imm : BitVec 8) (s : State) : Host.Outcome State Fault Refusal :=
  s.aloneS fun s => semLdhs d a sg rx imm s
/-- LDH (R93). -/
def execLdh (d a : BitVec 6) (sg : BitVec 3) (rx : BitVec 1) (imm : BitVec 8) (s : State) : Host.Outcome State Fault Refusal :=
  s.aloneS fun s => semLdh d a sg rx imm s
/-- LDBS (R93). -/
def execLdbs (d a : BitVec 6) (sg : BitVec 3) (rx : BitVec 1) (imm : BitVec 8) (s : State) : Host.Outcome State Fault Refusal :=
  s.aloneS fun s => semLdbs d a sg rx imm s
/-- LDB (R93). -/
def execLdb (d a : BitVec 6) (sg : BitVec 3) (rx : BitVec 1) (imm : BitVec 8) (s : State) : Host.Outcome State Fault Refusal :=
  s.aloneS fun s => semLdb d a sg rx imm s
/-- FENCEE (R275). -/
def execFencee (scope : BitVec 3) (s : State) : Host.Outcome State Fault Refusal :=
  s.aloneS fun s => semFencee scope s
/-- FENCE (R275). -/
def execFence (scope : BitVec 3) (s : State) : Host.Outcome State Fault Refusal := s.aloneS fun s => semFence scope s
/-- FENCE_COMPLETE (R275). -/
def execFenceComplete (core slot : Nat) (s : State) : Host.Outcome State Fault Refusal :=
  .next (evFenceComplete core slot s)

end Sys2Proof.Machine
end

