-- ==== Sys2Proof/Machine/Block.lean ====
section
/-! DEFINITION. The block formats: scale words, elements, quantisation and the exact block sum (R39 to R48). -/

namespace Sys2Proof.Machine

/-- A scale word read by R39: a malformed one reads as if N were 1. -/
structure Scale where
  e0 : Nat
  d : Nat
  z : Bool
  n : Bool
  deriving DecidableEq, Repr

/-- The fields of a scale word (R39). -/
def Scale.read (w : Nat) : Scale :=
  let e0 := fld w 8 8
  let d := fld w 4 4
  { e0 := e0, d := d, z := fld w 3 1 = 1, n := fld w 2 1 = 1 || 254 < e0 + d || fld w 0 2 != 0 }

/-- A block format's f: 5 for BX8 and 1 for BX4 (R40, R47). -/
def bxF (bx4 : Bool) : Nat := if bx4 then 1 else 5
/-- The largest magnitude of an element (R47). -/
def bxMax (bx4 : Bool) : Nat := if bx4 then 3 else 63
/-- The magnitude, sign and selector of an element (R40). -/
def bxMag (bx4 : Bool) (x : Nat) : Nat := if bx4 then fld x 0 2 else fld x 0 6
/-- The sign of an element (R40). -/
def bxSign (bx4 : Bool) (x : Nat) : Bool := (if bx4 then fld x 2 1 else fld x 6 1) = 1
/-- The selector of an element (R40). -/
def bxSel (bx4 : Bool) (x : Nat) : Bool := (if bx4 then fld x 3 1 else fld x 7 1) = 1

/-- The value of an element of a block (R39, R40). -/
def bxValue (bx4 : Bool) (sc : Scale) (x : Nat) : Fv :=
  if sc.n then .nan
  else if sc.z || bxMag bx4 x = 0 then .fin false 0 0
  else .fin (bxSign bx4 x) (bxMag bx4 x)
    (((sc.e0 + if bxSel bx4 x then sc.d else 0 : Nat) : Int) - 127 - bxF bx4)

/-- RNE of |x| / 2^q (R47). -/
def rneAt (x : Fv) (q : Int) : Nat :=
  match x with
  | .fin _ m e => (roundTo .rne false m e q).1
  | _ => 0

/-- The least exponent of `n` from `e` up whose rounding of M fits, or the last (R47). -/
def leastExp (m : Fv) (f mmax : Nat) : Nat → Nat → Nat
  | 0, e => e
  | n + 1, e => if rneAt m ((e : Int) - 127 - f) ≤ mmax then e else leastExp m f mmax n (e + 1)

/-- The greater magnitude of the finite values (R47). -/
def maxMag (a b : Fv) : Fv :=
  match a, b with
  | .fin _ m e, .fin _ n f => if (Fv.fin false m e).lt (.fin false n f) then .fin false n f else .fin false m e
  | a, _ => a

/-- One element of Quantise (R47): its code and its flags. -/
def quantElem (bx4 : Bool) (e0 e1 : Nat) (x : Fv) : Nat × Flg :=
  let f := bxF bx4
  let top := bxMax bx4
  let code := fun (sel : Bool) (neg : Bool) (q : Nat) =>
    (sel.toNat * 2 + neg.toNat) * (top + 1) + q
  match x with
  | .inf n => (code true n top, { bx := true })
  | _ =>
    let t0 := rneAt x ((e0 : Int) - 127 - f)
    let t1 := rneAt x ((e1 : Int) - 127 - f)
    let q := if t0 ≤ top then t0 else if t1 ≤ top then t1 else top
    let nz := match x with
      | .fin _ m _ => m != 0
      | _ => false
    (code (!(t0 ≤ top)) x.isNeg q, { bx := !(t0 ≤ top) && !(t1 ≤ top), ufl := nz && q = 0 })

/-- Quantise (R47) of the elements `xs`, in a group whose other values are `ext`: element codes, scale word and
flags of each element. An infinity among the other values sets no flag of its own: DESIGN CHOICE (log entry 136). -/
def quantise (bx4 : Bool) (qd : Nat) (xs ext : List Fv) : List (Nat × Flg) × Nat :=
  let all := xs ++ ext
  if all.any Fv.isNan then
    (xs.map fun _ => (0, { nan := true }), 0x0004)
  else
    let m := all.foldl maxMag (.fin false 0 0)
    let zero := match m with
      | .fin _ k _ => k = 0
      | _ => false
    if zero && !all.any Fv.isInf then (xs.map fun _ => (0, {}), 0x0008)
    else
      let e1 := leastExp m (bxF bx4) (bxMax bx4) 254 0
      let d := min qd e1
      (xs.map (quantElem bx4 (e1 - d) e1), (e1 - d) * 256 + d * 16)

/-- ExactBlockSum (R48) of elements `a` and `b`: NaN, or the exact sum, +0 when it is 0. -/
def exactBlockSum (bx4a : Bool) (sa : Scale) (a : Nat → Nat) (bx4b : Bool) (sb : Scale) (b : Nat → Nat) : Fv :=
  if sa.n || sb.n then .nan
  else if sa.z || sb.z then .fin false 0 0
  else
    let term := fun i =>
      let sh := (if bxSel bx4a (a i) then sa.d else 0) + (if bxSel bx4b (b i) then sb.d else 0)
      let mag : Nat := bxMag bx4a (a i) * bxMag bx4b (b i) * 2 ^ sh
      if bxSign bx4a (a i) != bxSign bx4b (b i) then -(mag : Int) else (mag : Int)
    .ofInt ((List.range 32).foldl (fun acc i => acc + term i) 0)
      ((sa.e0 : Int) + sb.e0 - 254 - bxF bx4a - bxF bx4b) false

end Sys2Proof.Machine
end

