-- ==== Sys2Proof/Machine/Special.lean ====
section
/-! DEFINITION. The six special functions (R118). A result that is not a dyadic number is held as an odd
multiple of a power of two far below any rounding position, so that Round sees the right neighbour and an
inexact value. The .f32 bits within the bound are the device's (log entry 5). -/

namespace Sys2Proof.Machine

/-- The special functions, in the order of their fn values (R118). -/
inductive SpFn where
  | rcp
  | rsq
  | exp2
  | log2
  | tanh
  | sig
  deriving DecidableEq, Repr

/-- The fn value (R118). -/
def SpFn.code : SpFn → Nat
  | .rcp => 0
  | .rsq => 1
  | .exp2 => 2
  | .log2 => 3
  | .tanh => 4
  | .sig => 5

/-- A quotient with 80 or more significant bits; the flag says that it is exact. -/
def ratio (neg : Bool) (num den : Nat) (e : Int) : Fv × Bool :=
  let k := 80 + den.log2
  let q := num * 2 ^ k / den
  if q * den = num * 2 ^ k then (.fin neg q (e - k), true) else (.fin neg (2 * q + 1) (e - k - 1), false)

/-- The integer square root of a number below 4^bits. -/
def isqrt (n : Nat) : Nat → Nat → Nat
  | 0, r => r
  | i + 1, r => isqrt n i (if (r + 2 ^ i) * (r + 2 ^ i) ≤ n then r + 2 ^ i else r)

/-- The fraction bits that the exponential works with. -/
def expP : Nat := 160

/-- ln 2, with `expP` fraction bits. -/
def ln2P : Nat := 0xb17217f7d1cf79abc9e3b39803f2f6af40f34326
/-- log2 e, with `expP` fraction bits. -/
def log2eP : Nat := 0x171547652b82fe1777d0ffda0d23a7d11d6aef551

/-- The exponential series of y / 2^expP, by Horner's scheme. -/
def expSeries (y : Nat) : Nat → Nat → Nat
  | 0, acc => acc
  | k + 1, acc => expSeries y k (2 ^ expP + y * acc / 2 ^ expP / (k + 1))

/-- 2^(t / 2^expP) as a mantissa with `expP` fraction bits and an exponent. -/
def exp2P (t : Int) : Nat × Int :=
  let n := t / (2 ^ expP : Nat)
  let f := (t % (2 ^ expP : Nat)).toNat
  (expSeries (f * ln2P / 2 ^ expP) 44 (2 ^ expP), n)

/-- A value with `expP` fraction bits, for magnitudes below 2^10. -/
def fixP (n : Bool) (m : Nat) (e : Int) : Int :=
  let x : Nat := if 0 ≤ e + expP then m * 2 ^ (e + expP).toNat else m / 2 ^ (-(e + expP)).toNat
  if n then -(x : Int) else x

/-- `bits` binary digits of log2 of y / 2^200, for 1 ≤ y / 2^200 < 2. -/
def logDigits : Nat → Nat → Nat → Nat
  | 0, _, acc => acc
  | k + 1, y, acc =>
    let z := y * y / 2 ^ 200
    if z ≥ 2 ^ 201 then logDigits k (z / 2) (2 * acc + 1) else logDigits k z (2 * acc)

/-- e^−|x| as a mantissa and an exponent; `k` multiplies x. -/
def expNeg (k m : Nat) (e : Int) : Nat × Int :=
  exp2P (-((fixP false (k * m) e).toNat * log2eP / 2 ^ expP : Nat))

/-- Whether |m × 2^e| is at least 2^k. -/
def magGe (m : Nat) (e k : Int) : Bool := m != 0 && e + m.log2 ≥ k

/-- The value of a special function at a finite non-zero operand, and whether it is exact. -/
def SpFn.value (fn : SpFn) (n : Bool) (m : Nat) (e : Int) : Fv × Bool :=
  match fn with
  | .rcp => ratio n 1 m (-e)
  | .rsq =>
    if n then (.nan, true)
    else
      let m' := if e % 2 = 0 then m else 2 * m
      let e' := if e % 2 = 0 then e else e - 1
      let k := 100 + m'.log2
      let r := isqrt (2 ^ (2 * k) / m') (k + 1) 0
      if r * r * m' = 2 ^ (2 * k) then (.fin false r (-(e' / 2) - k), true)
      else (.fin false (2 * r + 1) (-(e' / 2) - k - 1), false)
  | .exp2 =>
    if !n && magGe m e 10 then (.fin false 1 1024, true)
    else if n && magGe m e 10 then (.fin false 1 (-1024), false)
    else if (roundTo .rz n m e 0).2 then
      let r := exp2P (fixP n m e)
      (.fin false (2 * r.1 + 1) (r.2 - expP - 1), false)
    else (.fin false 1 (scaleTo n (roundTo .rz n m e 0).1 0 0), true)
  | .log2 =>
    if n then (.nan, true)
    else
      let top := e + m.log2
      if m = 2 ^ m.log2 then (.int top, true)
      else
        let l := logDigits 80 (m * 2 ^ 200 / 2 ^ m.log2) 0
        (.ofInt (2 * (top * 2 ^ 80 + l) + 1) (-81) false, false)
  | .tanh =>
    if !magGe m e (-20) then (.fin n (m * 2 ^ 45 - 1) (e - 45), false)
    else if magGe m e 6 then (.fin n (2 ^ 200 - 1) (-200), false)
    else
      let t := expNeg 2 m e
      let one := 2 ^ (expP - t.2).toNat
      ((ratio n (one - t.1) (one + t.1) 0).1, false)
  | .sig =>
    if !magGe m e (-40) then (.fin false (if n then 2 ^ 200 - 1 else 2 ^ 200 + 1) (-201), false)
    else if magGe m e 9 then (if n then .fin false 1 (-700) else .fin false (2 ^ 200 - 1) (-200), false)
    else
      let t := expNeg 1 m e
      let one := 2 ^ (expP - t.2).toNat
      ((ratio false (if n then t.1 else one) (one + t.1) 0).1, false)

/-- The special operands of R118: zeros, infinities and NaN. -/
def SpFn.edge (fn : SpFn) (x : Fv) : Option Fv :=
  match fn, x with
  | _, .nan => some .nan
  | .rcp, .inf n => some (.fin n 0 0)
  | .rsq, .inf n => some (if n then .nan else .fin false 0 0)
  | .exp2, .inf n => some (if n then .fin false 0 0 else .inf false)
  | .log2, .inf n => some (if n then .nan else .inf false)
  | .tanh, .inf n => some (.fin n 1 0)
  | .sig, .inf n => some (if n then .fin false 0 0 else .fin false 1 0)
  | .rcp, .fin n 0 _ => some (.inf n)
  | .rsq, .fin n 0 _ => some (.inf n)
  | .exp2, .fin _ 0 _ => some (.fin false 1 0)
  | .log2, .fin _ 0 _ => some (.inf true)
  | .tanh, .fin n 0 _ => some (.fin n 0 0)
  | .sig, .fin _ 0 _ => some (.fin false 1 (-1))
  | _, .fin _ _ _ => none

/-- The .f32 error bound of a function, as ulps of the result's binade, and the absolute bound where the
entry gives one (R118). -/
def SpFn.bound (fn : SpFn) (x : Fv) : Nat × Option Int :=
  match fn with
  | .rcp | .rsq => (1, none)
  | .exp2 => (2, none)
  | .log2 => (2, if x.lt (.fin false 1 (-1)) || (Fv.fin false 1 1).lt x then none else some (-22))
  | .tanh | .sig => (2, some (-24))

/-- Whether .f32 bits lie within the bound of the real value `y` (R118). -/
def SpFn.within (fn : SpFn) (x y : Fv) (bits : Nat) : Bool :=
  match Fmt.f32.val bits, y with
  | .fin n m e, .fin ny my ey =>
    let d := match Fv.add .rne (.fin n m e) (.fin (!ny) my ey) with
      | .fin _ md ed => Fv.fin false md ed
      | z => z
    let b := fn.bound x
    let ulp : Int := max (ey + my.log2) Fmt.f32.emin - 23
    let inUlp := !(Fv.fin false b.1 ulp).lt d
    match b.2 with
    | none => inUlp
    | some a => inUlp || !(Fv.fin false 1 a).lt d
  | _, _ => false

/-- The device's .f32 bits for a finite non-zero operand: the free value where it lies within the bound, the
rounded value otherwise; VTANH is odd (R118). -/
def SpFn.freeBits (fn : SpFn) (x y : Fv) (bits rounded : Nat) : Nat :=
  let odd := fn = .tanh && x.isNeg
  let c := (Config.special fn.code (BitVec.ofNat 32 (if odd then bits - 2 ^ 31 else bits))).toNat
  let c := if odd then (if c < 2 ^ 31 then c + 2 ^ 31 else c - 2 ^ 31) else c
  if fn.within x y c then c else rounded

/-- A special function of an element (R118): its bits and flags. -/
def SpFn.eval (fn : SpFn) (F : Fmt) (bits : Nat) : Nat × Flg :=
  let x := F.val bits
  match fn.edge x, x with
  | some y, _ => F.result .rne [x] y
  | none, .fin n m e =>
    let y := fn.value n m e
    let r := F.result .rne [x] y.1
    if F.fb = 23 && !y.2 && !(F.val r.1).isInf then (fn.freeBits x y.1 bits r.1, r.2) else r
  | none, _ => (F.qnan, { nan := true })

end Sys2Proof.Machine
end

