-- ==== Sys2Proof/Machine/VectorFloat.lean ====
section
/-! DEFINITION. V-slot floating arithmetic, compares, conversions and special functions (R113 to R118). -/

namespace Sys2Proof.Machine

/-- The format of an F-table code (R61). -/
def fFmt (t : Nat) : Fmt := if t = 4 then .f16 else if t = 5 then .bf16 else .f32
/-- The rounding mode of an F-table or rounding-table code (R61). -/
def fMode (t : Nat) : RMode := if t = 1 then .rz else if t = 2 then .rdn else if t = 3 then .rup else .rne
/-- The format of a ty2 code (R61). -/
def fFmt2 (t : Nat) : Fmt := if t = 1 then .f16 else if t = 2 then .bf16 else .f32

/-- The mask of the executing slot. -/
def State.mask (s : State) (m : BitVec 3) : W32 := s.me.rm m.toNat

/-- A rounded function of two vectors (R114). -/
def fBin (op : RMode → Fv → Fv → Fv) (d a b : BitVec 5) (m t : BitVec 3) (pre cur : State) : Res :=
  let F := fFmt t.toNat
  let md := fMode t.toNat
  let w := F.width
  let mk := pre.mask m
  let x := srcVal pre (anyActive mk w) a.toNat
  let y := srcVal pre (anyActive mk w) b.toNat
  elemwise pre cur [a.toNat, b.toNat] d.toNat mk w none fun e =>
    let p := F.val (VReg.elem x w e)
    let q := F.val (VReg.elem y w e)
    F.result md [p, q] (op md p q)

/-- A rounded function of a vector and a scalar (R113, R114). -/
def fBinS (op : RMode → Fv → Fv → Fv) (d a : BitVec 5) (sc : BitVec 6) (m t : BitVec 3) (pre cur : State) : Res :=
  let F := fFmt t.toNat
  let md := fMode t.toNat
  let w := F.width
  let mk := pre.mask m
  let x := srcVal pre (anyActive mk w) a.toNat
  let q := F.val ((pre.rs sc.toNat).toNat % 2 ^ w)
  elemwise pre cur [a.toNat] d.toNat mk w none fun e =>
    let p := F.val (VReg.elem x w e)
    F.result md [p, q] (op md p q)

/-- a − b (R114). -/
def fvSub (md : RMode) (a b : Fv) : Fv := a.add md b.neg
/-- a × b (R114). -/
def fvMul (_ : RMode) (a b : Fv) : Fv := a.mul b

def semVadd (d a b : BitVec 5) (m t : BitVec 3) (pre cur : State) : Res := fBin Fv.add d a b m t pre cur
def semVsub (d a b : BitVec 5) (m t : BitVec 3) (pre cur : State) : Res := fBin fvSub d a b m t pre cur
def semVmul (d a b : BitVec 5) (m t : BitVec 3) (pre cur : State) : Res := fBin fvMul d a b m t pre cur
def semVaddScalar (d a : BitVec 5) (sc : BitVec 6) (m t : BitVec 3) (pre cur : State) : Res :=
  fBinS Fv.add d a sc m t pre cur
def semVsubScalar (d a : BitVec 5) (sc : BitVec 6) (m t : BitVec 3) (pre cur : State) : Res :=
  fBinS fvSub d a sc m t pre cur
def semVmulScalar (d a : BitVec 5) (sc : BitVec 6) (m t : BitVec 3) (pre cur : State) : Res :=
  fBinS fvMul d a sc m t pre cur

/-- A function of the bits of each element of one or two vectors (R114, R115). -/
def fBits (f : Fmt → Nat → Nat → Nat × Flg) (srcs : List Nat) (d : BitVec 5) (m t : BitVec 3) (pre cur : State) : Res :=
  let F := fFmt t.toNat
  let w := F.width
  let mk := pre.mask m
  let act := anyActive mk w
  let x := srcVal pre act (srcs.getD 0 0)
  let y := srcVal pre act (srcs.getD 1 (srcs.getD 0 0))
  elemwise pre cur srcs d.toNat mk w none fun e => f F (VReg.elem x w e) (VReg.elem y w e)

def semVmin (d a b : BitVec 5) (m t : BitVec 3) (pre cur : State) : Res :=
  fBits (fun F x y => F.minMax false x y) [a.toNat, b.toNat] d m t pre cur
def semVmax (d a b : BitVec 5) (m t : BitVec 3) (pre cur : State) : Res :=
  fBits (fun F x y => F.minMax true x y) [a.toNat, b.toNat] d m t pre cur
/-- VABS (R115). -/
def semVabs (d a : BitVec 5) (m t : BitVec 3) (pre cur : State) : Res :=
  fBits (fun F x _ => (x % 2 ^ (F.width - 1), {})) [a.toNat] d m t pre cur
/-- VNEG (R115). -/
def semVneg (d a : BitVec 5) (m t : BitVec 3) (pre cur : State) : Res :=
  fBits (fun F x _ => ((x + 2 ^ (F.width - 1)) % 2 ^ F.width, {})) [a.toNat] d m t pre cur

/-- The class code of an element (R115). -/
def Fmt.classOf (F : Fmt) (x : Nat) : Nat :=
  match F.val x with
  | .nan => 2 ^ 8
  | .inf n => if n then 1 else 2 ^ 7
  | .fin n m _ =>
    if m = 0 then (if n then 2 ^ 3 else 2 ^ 4)
    else if m < 2 ^ F.fb then (if n then 2 ^ 2 else 2 ^ 5)
    else if n then 2 ^ 1 else 2 ^ 6

/-- VCLASS (R115). -/
def semVclass (d a : BitVec 5) (m t : BitVec 3) (pre cur : State) : Res :=
  fBits (fun F x _ => (F.classOf x, {})) [a.toNat] d m t pre cur

/-- The integral value of an element in its format (R115). -/
def Fmt.integral (F : Fmt) (md : RMode) (x : Nat) : Nat × Flg :=
  match F.val x with
  | .nan => (F.qnan, { nan := true })
  | .inf _ => (x, {})
  | .fin n m e =>
    if m = 0 || e ≥ 0 then (x, {})
    else (F.round .rne (.fin n (roundTo md n m e 0).1 0)).1 |> fun y => (y, {})

/-- VRNDI (R115). -/
def semVrndi (d a : BitVec 5) (m t : BitVec 3) (pre cur : State) : Res :=
  fBits (fun F x _ => F.integral (fMode t.toNat) x) [a.toNat] d m t pre cur

/-- A fused form (R114): the exact product, an operand of the sum, one rounding. -/
def fFused (np nc : Bool) (d a b c : BitVec 5) (m : BitVec 3) (t : BitVec 2) (pre cur : State) : Res :=
  let F := fFmt2 t.toNat
  let w := F.width
  let mk := pre.mask m
  let act := anyActive mk w
  let x := srcVal pre act a.toNat
  let y := srcVal pre act b.toNat
  let z := srcVal pre act c.toNat
  elemwise pre cur [a.toNat, b.toNat, c.toNat] d.toNat mk w none fun e =>
    let p := F.val (VReg.elem x w e)
    let q := F.val (VReg.elem y w e)
    let r := F.val (VReg.elem z w e)
    let pq := p.mul q
    F.result .rne [p, q, r] ((if np then pq.neg else pq).add .rne (if nc then r.neg else r))

def semVfma (d a b c : BitVec 5) (m : BitVec 3) (t : BitVec 2) (pre cur : State) : Res :=
  fFused false false d a b c m t pre cur
def semVfms (d a b c : BitVec 5) (m : BitVec 3) (t : BitVec 2) (pre cur : State) : Res :=
  fFused false true d a b c m t pre cur
def semVfnma (d a b c : BitVec 5) (m : BitVec 3) (t : BitVec 2) (pre cur : State) : Res :=
  fFused true false d a b c m t pre cur

/-! ### Compares -/

/-- A compare that writes the active bits of a mask; lane `j` holds when every element of it does (R116, R122). -/
def cmpMask (w : Nat) (f : Nat → Bool) (fl : Nat → Flg) (d : BitVec 3) (a b : BitVec 5) (m : BitVec 3)
    (pre cur : State) : Res :=
  let mk := pre.mask m
  let act := anyActive mk w
  withOperands pre cur [a.toNat, b.toNat] [] [] act none fun cur =>
    if act then
      let eff := laneMask mk w
      let res := fun j => if w = 64 then f (j / 2) else (steps (j * (32 / w)) 1 (32 / w)).all f
      let cur := cur.wm d.toNat (mergeMask eff (pre.me.rm d.toNat) res)
      .ok (cur.raise pre.cur.1 pre.cur.2 (((List.range (1024 / w)).filter fun e => active mk w e).map fl))
    else .ok cur

/-- VCMP (R116). -/
def fCmp (c : FCond) (d : BitVec 3) (a b : BitVec 5) (m t : BitVec 3) (pre cur : State) : Res :=
  let F := fFmt t.toNat
  let w := F.width
  let act := anyActive (pre.mask m) w
  let x := srcVal pre act a.toNat
  let y := srcVal pre act b.toNat
  cmpMask w (fun e => c.holds (F.val (VReg.elem x w e)) (F.val (VReg.elem y w e)))
    (fun e => { nan := (F.val (VReg.elem x w e)).isNan || (F.val (VReg.elem y w e)).isNan }) d a b m pre cur

def semVcmpEq (d : BitVec 3) (a b : BitVec 5) (m t : BitVec 3) (pre cur : State) : Res := fCmp .eq d a b m t pre cur
def semVcmpNe (d : BitVec 3) (a b : BitVec 5) (m t : BitVec 3) (pre cur : State) : Res := fCmp .ne d a b m t pre cur
def semVcmpLt (d : BitVec 3) (a b : BitVec 5) (m t : BitVec 3) (pre cur : State) : Res := fCmp .lt d a b m t pre cur
def semVcmpLe (d : BitVec 3) (a b : BitVec 5) (m t : BitVec 3) (pre cur : State) : Res := fCmp .le d a b m t pre cur
def semVcmpUn (d : BitVec 3) (a b : BitVec 5) (m t : BitVec 3) (pre cur : State) : Res := fCmp .un d a b m t pre cur
def semVcmpOr (d : BitVec 3) (a b : BitVec 5) (m t : BitVec 3) (pre cur : State) : Res := fCmp .or d a b m t pre cur

/-! ### Conversions -/

/-- Narrowing of two binary32 vectors (R117). -/
def fNarrow (F : Fmt) (d a b : BitVec 5) (m t : BitVec 3) (pre cur : State) : Res :=
  let mk := pre.mask m
  let act := anyActive mk 16
  let x := srcVal pre act a.toNat
  let y := srcVal pre act b.toNat
  elemwise pre cur [a.toNat, b.toNat] d.toNat mk 16 none fun e =>
    let p := Fmt.f32.val (if e < 32 then VReg.elem x 32 e else VReg.elem y 32 (e - 32))
    F.result (fMode t.toNat) [p] p

def semVcvtF16F32 (d a b : BitVec 5) (m t : BitVec 3) (pre cur : State) : Res := fNarrow .f16 d a b m t pre cur
def semVcvtBf16F32 (d a b : BitVec 5) (m t : BitVec 3) (pre cur : State) : Res := fNarrow .bf16 d a b m t pre cur

/-- A conversion that writes 32-bit lanes (R117). -/
def fLanes (f : VReg → Nat → Nat × Flg) (dec : Option (Nat × W32)) (d a : BitVec 5) (m : BitVec 3) (pre cur : State) :
    Res :=
  let mk := pre.mask m
  let x := srcVal pre (anyActive mk 32) a.toNat
  elemwise pre cur [a.toNat] d.toNat mk 32 dec (f x)

/-- Exact widening; a rounding code other than 0 traps ILLCOMBO (R72, R117). -/
def fWiden (F : Fmt) (d a : BitVec 5) (m t : BitVec 3) (pre cur : State) : Res :=
  fLanes (fun x j => let p := F.val (VReg.elem x 16 j); Fmt.f32.result .rne [p] p)
    (if t.toNat = 0 then none else some (cILLCOMBO, 0)) d a m pre cur

def semVcvtF32F16 (d a : BitVec 5) (m t : BitVec 3) (pre cur : State) : Res := fWiden .f16 d a m t pre cur
def semVcvtF32Bf16 (d a : BitVec 5) (m t : BitVec 3) (pre cur : State) : Res := fWiden .bf16 d a m t pre cur
def semVcvtI32F32 (d a : BitVec 5) (m t : BitVec 3) (pre cur : State) : Res :=
  fLanes (fun x j => Fv.toSat (fMode t.toNat) true 32 (Fmt.f32.val (VReg.elem x 32 j))) none d a m pre cur
def semVcvtN32F32 (d a : BitVec 5) (m t : BitVec 3) (pre cur : State) : Res :=
  fLanes (fun x j => Fv.toSat (fMode t.toNat) false 32 (Fmt.f32.val (VReg.elem x 32 j))) none d a m pre cur
def semVcvtF32I32 (d a : BitVec 5) (m t : BitVec 3) (pre cur : State) : Res :=
  fLanes (fun x j => Fmt.f32.result (fMode t.toNat) [] (Fv.int (sgn 32 (VReg.elem x 32 j)))) none d a m pre cur
def semVcvtF32N32 (d a : BitVec 5) (m t : BitVec 3) (pre cur : State) : Res :=
  fLanes (fun x j => Fmt.f32.result (fMode t.toNat) [] (Fv.int (VReg.elem x 32 j))) none d a m pre cur

/-! ### Special functions -/

/-- A special function (R118). -/
def fSpecial (fn : SpFn) (d a : BitVec 5) (m t : BitVec 3) (pre cur : State) : Res :=
  fBits (fun F x _ => fn.eval F x) [a.toNat] d m t pre cur

def semVrcp (d a : BitVec 5) (m t : BitVec 3) (pre cur : State) : Res := fSpecial .rcp d a m t pre cur
def semVrsq (d a : BitVec 5) (m t : BitVec 3) (pre cur : State) : Res := fSpecial .rsq d a m t pre cur
def semVexp2 (d a : BitVec 5) (m t : BitVec 3) (pre cur : State) : Res := fSpecial .exp2 d a m t pre cur
def semVlog2 (d a : BitVec 5) (m t : BitVec 3) (pre cur : State) : Res := fSpecial .log2 d a m t pre cur
def semVtanh (d a : BitVec 5) (m t : BitVec 3) (pre cur : State) : Res := fSpecial .tanh d a m t pre cur
def semVsig (d a : BitVec 5) (m t : BitVec 3) (pre cur : State) : Res := fSpecial .sig d a m t pre cur

/-! ### Meanings -/

/-- VADD (R114). -/
def execVadd (d a b : BitVec 5) (m t : BitVec 3) (s : State) : Host.Outcome State Fault Refusal :=
  s.aloneV (.vadd d a b m t) false fun cur => semVadd d a b m t s cur
/-- VSUB (R114). -/
def execVsub (d a b : BitVec 5) (m t : BitVec 3) (s : State) : Host.Outcome State Fault Refusal :=
  s.aloneV (.vsub d a b m t) false fun cur => semVsub d a b m t s cur
/-- VMUL (R114). -/
def execVmul (d a b : BitVec 5) (m t : BitVec 3) (s : State) : Host.Outcome State Fault Refusal :=
  s.aloneV (.vmul d a b m t) false fun cur => semVmul d a b m t s cur
/-- VMIN (R114). -/
def execVmin (d a b : BitVec 5) (m t : BitVec 3) (s : State) : Host.Outcome State Fault Refusal :=
  s.aloneV (.vmin d a b m t) false fun cur => semVmin d a b m t s cur
/-- VMAX (R114). -/
def execVmax (d a b : BitVec 5) (m t : BitVec 3) (s : State) : Host.Outcome State Fault Refusal :=
  s.aloneV (.vmax d a b m t) false fun cur => semVmax d a b m t s cur
/-- VABS (R115). -/
def execVabs (d a : BitVec 5) (m t : BitVec 3) (s : State) : Host.Outcome State Fault Refusal :=
  s.aloneV (.vabs d a m t) false fun cur => semVabs d a m t s cur
/-- VNEG (R115). -/
def execVneg (d a : BitVec 5) (m t : BitVec 3) (s : State) : Host.Outcome State Fault Refusal :=
  s.aloneV (.vneg d a m t) false fun cur => semVneg d a m t s cur
/-- VCLASS (R115). -/
def execVclass (d a : BitVec 5) (m t : BitVec 3) (s : State) : Host.Outcome State Fault Refusal :=
  s.aloneV (.vclass d a m t) false fun cur => semVclass d a m t s cur
/-- VRNDI (R115). -/
def execVrndi (d a : BitVec 5) (m t : BitVec 3) (s : State) : Host.Outcome State Fault Refusal :=
  s.aloneV (.vrndi d a m t) false fun cur => semVrndi d a m t s cur
/-- VADD_SCALAR (R113). -/
def execVaddScalar (d a : BitVec 5) (sc : BitVec 6) (m t : BitVec 3) (s : State) : Host.Outcome State Fault Refusal :=
  s.aloneV (.vaddScalar d a sc m t) false fun cur => semVaddScalar d a sc m t s cur
/-- VSUB_SCALAR (R113). -/
def execVsubScalar (d a : BitVec 5) (sc : BitVec 6) (m t : BitVec 3) (s : State) : Host.Outcome State Fault Refusal :=
  s.aloneV (.vsubScalar d a sc m t) false fun cur => semVsubScalar d a sc m t s cur
/-- VMUL_SCALAR (R113). -/
def execVmulScalar (d a : BitVec 5) (sc : BitVec 6) (m t : BitVec 3) (s : State) : Host.Outcome State Fault Refusal :=
  s.aloneV (.vmulScalar d a sc m t) false fun cur => semVmulScalar d a sc m t s cur
/-- VFMA (R114). -/
def execVfma (d a b c : BitVec 5) (m : BitVec 3) (t : BitVec 2) (s : State) : Host.Outcome State Fault Refusal :=
  s.aloneV (.vfma d a b c m t) false fun cur => semVfma d a b c m t s cur
/-- VFMS (R114). -/
def execVfms (d a b c : BitVec 5) (m : BitVec 3) (t : BitVec 2) (s : State) : Host.Outcome State Fault Refusal :=
  s.aloneV (.vfms d a b c m t) false fun cur => semVfms d a b c m t s cur
/-- VFNMA (R114). -/
def execVfnma (d a b c : BitVec 5) (m : BitVec 3) (t : BitVec 2) (s : State) : Host.Outcome State Fault Refusal :=
  s.aloneV (.vfnma d a b c m t) false fun cur => semVfnma d a b c m t s cur
/-- VCMP_EQ (R116). -/
def execVcmpEq (d : BitVec 3) (a b : BitVec 5) (m t : BitVec 3) (s : State) : Host.Outcome State Fault Refusal :=
  s.aloneV (.vcmpEq d a b m t) false fun cur => semVcmpEq d a b m t s cur
/-- VCMP_NE (R116). -/
def execVcmpNe (d : BitVec 3) (a b : BitVec 5) (m t : BitVec 3) (s : State) : Host.Outcome State Fault Refusal :=
  s.aloneV (.vcmpNe d a b m t) false fun cur => semVcmpNe d a b m t s cur
/-- VCMP_LT (R116). -/
def execVcmpLt (d : BitVec 3) (a b : BitVec 5) (m t : BitVec 3) (s : State) : Host.Outcome State Fault Refusal :=
  s.aloneV (.vcmpLt d a b m t) false fun cur => semVcmpLt d a b m t s cur
/-- VCMP_LE (R116). -/
def execVcmpLe (d : BitVec 3) (a b : BitVec 5) (m t : BitVec 3) (s : State) : Host.Outcome State Fault Refusal :=
  s.aloneV (.vcmpLe d a b m t) false fun cur => semVcmpLe d a b m t s cur
/-- VCMP_UN (R116). -/
def execVcmpUn (d : BitVec 3) (a b : BitVec 5) (m t : BitVec 3) (s : State) : Host.Outcome State Fault Refusal :=
  s.aloneV (.vcmpUn d a b m t) false fun cur => semVcmpUn d a b m t s cur
/-- VCMP_OR (R116). -/
def execVcmpOr (d : BitVec 3) (a b : BitVec 5) (m t : BitVec 3) (s : State) : Host.Outcome State Fault Refusal :=
  s.aloneV (.vcmpOr d a b m t) false fun cur => semVcmpOr d a b m t s cur
/-- VCVT_F16_F32 (R117). -/
def execVcvtF16F32 (d a b : BitVec 5) (m t : BitVec 3) (s : State) : Host.Outcome State Fault Refusal :=
  s.aloneV (.vcvtF16F32 d a b m t) false fun cur => semVcvtF16F32 d a b m t s cur
/-- VCVT_BF16_F32 (R117). -/
def execVcvtBf16F32 (d a b : BitVec 5) (m t : BitVec 3) (s : State) : Host.Outcome State Fault Refusal :=
  s.aloneV (.vcvtBf16F32 d a b m t) false fun cur => semVcvtBf16F32 d a b m t s cur
/-- VCVT_F32_F16 (R117). -/
def execVcvtF32F16 (d a : BitVec 5) (m t : BitVec 3) (s : State) : Host.Outcome State Fault Refusal :=
  s.aloneV (.vcvtF32F16 d a m t) false fun cur => semVcvtF32F16 d a m t s cur
/-- VCVT_F32_BF16 (R117). -/
def execVcvtF32Bf16 (d a : BitVec 5) (m t : BitVec 3) (s : State) : Host.Outcome State Fault Refusal :=
  s.aloneV (.vcvtF32Bf16 d a m t) false fun cur => semVcvtF32Bf16 d a m t s cur
/-- VCVT_I32_F32 (R117). -/
def execVcvtI32F32 (d a : BitVec 5) (m t : BitVec 3) (s : State) : Host.Outcome State Fault Refusal :=
  s.aloneV (.vcvtI32F32 d a m t) false fun cur => semVcvtI32F32 d a m t s cur
/-- VCVT_N32_F32 (R117). -/
def execVcvtN32F32 (d a : BitVec 5) (m t : BitVec 3) (s : State) : Host.Outcome State Fault Refusal :=
  s.aloneV (.vcvtN32F32 d a m t) false fun cur => semVcvtN32F32 d a m t s cur
/-- VCVT_F32_I32 (R117). -/
def execVcvtF32I32 (d a : BitVec 5) (m t : BitVec 3) (s : State) : Host.Outcome State Fault Refusal :=
  s.aloneV (.vcvtF32I32 d a m t) false fun cur => semVcvtF32I32 d a m t s cur
/-- VCVT_F32_N32 (R117). -/
def execVcvtF32N32 (d a : BitVec 5) (m t : BitVec 3) (s : State) : Host.Outcome State Fault Refusal :=
  s.aloneV (.vcvtF32N32 d a m t) false fun cur => semVcvtF32N32 d a m t s cur
/-- VRCP (R118). -/
def execVrcp (d a : BitVec 5) (m t : BitVec 3) (s : State) : Host.Outcome State Fault Refusal :=
  s.aloneV (.vrcp d a m t) false fun cur => semVrcp d a m t s cur
/-- VRSQ (R118). -/
def execVrsq (d a : BitVec 5) (m t : BitVec 3) (s : State) : Host.Outcome State Fault Refusal :=
  s.aloneV (.vrsq d a m t) false fun cur => semVrsq d a m t s cur
/-- VEXP2 (R118). -/
def execVexp2 (d a : BitVec 5) (m t : BitVec 3) (s : State) : Host.Outcome State Fault Refusal :=
  s.aloneV (.vexp2 d a m t) false fun cur => semVexp2 d a m t s cur
/-- VLOG2 (R118). -/
def execVlog2 (d a : BitVec 5) (m t : BitVec 3) (s : State) : Host.Outcome State Fault Refusal :=
  s.aloneV (.vlog2 d a m t) false fun cur => semVlog2 d a m t s cur
/-- VTANH (R118). -/
def execVtanh (d a : BitVec 5) (m t : BitVec 3) (s : State) : Host.Outcome State Fault Refusal :=
  s.aloneV (.vtanh d a m t) false fun cur => semVtanh d a m t s cur
/-- VSIG (R118). -/
def execVsig (d a : BitVec 5) (m t : BitVec 3) (s : State) : Host.Outcome State Fault Refusal :=
  s.aloneV (.vsig d a m t) false fun cur => semVsig d a m t s cur

end Sys2Proof.Machine
end

