-- ==== Sys2Proof/Machine/VectorInt.lean ====
section
/-! DEFINITION. V-slot integer arithmetic, shifts, saturation, accumulation, widening, compares and bit counts (R119 to
R123). -/

namespace Sys2Proof.Machine

/-- Whether an I-table code is signed (R61). -/
def iSigned (t : Nat) : Bool := t % 2 = 0

/-- An elementwise function of two vectors, over the signedness, width and element bits (R119). -/
def iBin (f : Bool → Nat → Nat → Nat → Nat × Flg) (d a b : BitVec 5) (m t : BitVec 3) (pre cur : State) : Res :=
  let w := intWidth t.toNat
  let sg := iSigned t.toNat
  let mk := pre.mask m
  let act := anyActive mk w
  let x := srcVal pre act a.toNat
  let y := srcVal pre act b.toNat
  elemwise pre cur [a.toNat, b.toNat] d.toNat mk w none fun e => f sg w (VReg.elem x w e) (VReg.elem y w e)

/-- The same with one vector and a fixed second operand (R119). -/
def iOne (f : Bool → Nat → Nat → Nat → Nat × Flg) (d a : BitVec 5) (y : Nat) (m t : BitVec 3) (pre cur : State) : Res :=
  let w := intWidth t.toNat
  let sg := iSigned t.toNat
  let mk := pre.mask m
  let x := srcVal pre (anyActive mk w) a.toNat
  elemwise pre cur [a.toNat] d.toNat mk w none fun e => f sg w (VReg.elem x w e) (y % 2 ^ w)

/-- A result kept to the element width (R32). -/
def iWrap (f : Int → Int → Int) (sg : Bool) (w x y : Nat) : Nat × Flg :=
  (wrap w (f (rdInt sg w x) (rdInt sg w y)), {})
/-- A saturated result (R32, R119). -/
def iSat (f : Int → Int → Int) (sg : Bool) (w x y : Nat) : Nat × Flg :=
  let r := satT sg w (f (rdInt sg w x) (rdInt sg w y))
  (wrap w r.1, { sat := r.2 })
def iAdd := iWrap (· + ·)
def iSub := iWrap (· - ·)
def iMul := iWrap (· * ·)
/-- VMULHI (R119). -/
def iMulh (sg : Bool) (w x y : Nat) : Nat × Flg := (wrap w (rdInt sg w x * rdInt sg w y / 2 ^ w), {})
def iMin := iWrap (fun x y => if y < x then y else x)
def iMax := iWrap (fun x y => if x < y then y else x)
/-- VABSDI (R119). -/
def iAbsd := iWrap (fun x y => ((x - y).natAbs : Int))
def iAnd (_ : Bool) (_ x y : Nat) : Nat × Flg := (x &&& y, {})
def iOr (_ : Bool) (_ x y : Nat) : Nat × Flg := (x ||| y, {})
def iXor (_ : Bool) (_ x y : Nat) : Nat × Flg := (x ^^^ y, {})
def iNot (_ : Bool) (w x _ : Nat) : Nat × Flg := (2 ^ w - 1 - x, {})
/-- Shifts; the count is taken modulo the width (R119). -/
def iShl (_ : Bool) (w x y : Nat) : Nat × Flg := (x * 2 ^ (y % w) % 2 ^ w, {})
def iShr (_ : Bool) (w x y : Nat) : Nat × Flg := (x / 2 ^ (y % w), {})
def iSra (_ : Bool) (w x y : Nat) : Nat × Flg := (wrap w (sgn w x / 2 ^ (y % w)), {})
def iRshr (sg : Bool) (w x y : Nat) : Nat × Flg := (wrap w (rshrRnd (rdInt sg w x) (y % w)), {})

def semVaddi (d a b : BitVec 5) (m t : BitVec 3) (pre cur : State) : Res := iBin iAdd d a b m t pre cur
def semVsubi (d a b : BitVec 5) (m t : BitVec 3) (pre cur : State) : Res := iBin iSub d a b m t pre cur
def semVmuli (d a b : BitVec 5) (m t : BitVec 3) (pre cur : State) : Res := iBin iMul d a b m t pre cur
def semVmulhi (d a b : BitVec 5) (m t : BitVec 3) (pre cur : State) : Res := iBin iMulh d a b m t pre cur
def semVmini (d a b : BitVec 5) (m t : BitVec 3) (pre cur : State) : Res := iBin iMin d a b m t pre cur
def semVmaxi (d a b : BitVec 5) (m t : BitVec 3) (pre cur : State) : Res := iBin iMax d a b m t pre cur
def semVabsdi (d a b : BitVec 5) (m t : BitVec 3) (pre cur : State) : Res := iBin iAbsd d a b m t pre cur
def semVand (d a b : BitVec 5) (m t : BitVec 3) (pre cur : State) : Res := iBin iAnd d a b m t pre cur
def semVor (d a b : BitVec 5) (m t : BitVec 3) (pre cur : State) : Res := iBin iOr d a b m t pre cur
def semVxor (d a b : BitVec 5) (m t : BitVec 3) (pre cur : State) : Res := iBin iXor d a b m t pre cur
def semVnot (d a : BitVec 5) (m t : BitVec 3) (pre cur : State) : Res := iOne iNot d a 0 m t pre cur
def semVshl (d a b : BitVec 5) (m t : BitVec 3) (pre cur : State) : Res := iBin iShl d a b m t pre cur
def semVshr (d a b : BitVec 5) (m t : BitVec 3) (pre cur : State) : Res := iBin iShr d a b m t pre cur
def semVsra (d a b : BitVec 5) (m t : BitVec 3) (pre cur : State) : Res := iBin iSra d a b m t pre cur
def semVrshr (d a b : BitVec 5) (m t : BitVec 3) (pre cur : State) : Res := iBin iRshr d a b m t pre cur
def semVaddiSat (d a b : BitVec 5) (m t : BitVec 3) (pre cur : State) : Res := iBin (iSat (· + ·)) d a b m t pre cur
def semVsubiSat (d a b : BitVec 5) (m t : BitVec 3) (pre cur : State) : Res := iBin (iSat (· - ·)) d a b m t pre cur
def semVaddiScalar (d a : BitVec 5) (sc : BitVec 6) (m t : BitVec 3) (pre cur : State) : Res :=
  iOne iAdd d a (pre.rs sc.toNat).toNat m t pre cur
def semVsubiScalar (d a : BitVec 5) (sc : BitVec 6) (m t : BitVec 3) (pre cur : State) : Res :=
  iOne iSub d a (pre.rs sc.toNat).toNat m t pre cur
def semVmuliScalar (d a : BitVec 5) (sc : BitVec 6) (m t : BitVec 3) (pre cur : State) : Res :=
  iOne iMul d a (pre.rs sc.toNat).toNat m t pre cur
def semVminiScalar (d a : BitVec 5) (sc : BitVec 6) (m t : BitVec 3) (pre cur : State) : Res :=
  iOne iMin d a (pre.rs sc.toNat).toNat m t pre cur
def semVmaxiScalar (d a : BitVec 5) (sc : BitVec 6) (m t : BitVec 3) (pre cur : State) : Res :=
  iOne iMax d a (pre.rs sc.toNat).toNat m t pre cur
def semVshlImm (d a : BitVec 5) (imm : BitVec 6) (m t : BitVec 3) (pre cur : State) : Res :=
  iOne iShl d a imm.toNat m t pre cur
def semVshrImm (d a : BitVec 5) (imm : BitVec 6) (m t : BitVec 3) (pre cur : State) : Res :=
  iOne iShr d a imm.toNat m t pre cur
def semVsraImm (d a : BitVec 5) (imm : BitVec 6) (m t : BitVec 3) (pre cur : State) : Res :=
  iOne iSra d a imm.toNat m t pre cur
def semVrshrImm (d a : BitVec 5) (imm : BitVec 6) (m t : BitVec 3) (pre cur : State) : Res :=
  iOne iRshr d a imm.toNat m t pre cur

/-! ### Accumulation -/

/-- VMAC2 and VDOT4 (R120): `n` products of `w`-bit elements a lane; another code traps ILLCOMBO (R72). -/
def iDot (sat : Bool) (w n code : Nat) (d a b : BitVec 5) (m t : BitVec 3) (pre cur : State) : Res :=
  let mk := pre.mask m
  let act := anyActive mk 32
  let sg := iSigned t.toNat
  let x := srcVal pre act a.toNat
  let y := srcVal pre act b.toNat
  let acc := pre.me.rv d.toNat
  let dec := if t.toNat / 2 = code then none else some (cILLCOMBO, 0)
  withOperands pre cur [a.toNat, b.toNat] [] [d.toNat] act dec fun cur =>
    let f := fun j =>
      let p := (List.range n).foldl (fun (s : Int) i =>
        s + rdInt sg w (VReg.elem x w (n * j + i)) * rdInt sg w (VReg.elem y w (n * j + i))) 0
      let v := rdInt sg 32 (VReg.elem acc 32 j) + p
      if sat then (let r := satT sg 32 v; (wrap 32 r.1, ({ sat := r.2 } : Flg))) else (wrap 32 v, {})
    let cur := cur.wv d.toNat (mergeElems 32 mk acc fun j => (f j).1)
    .ok (cur.raise pre.cur.1 pre.cur.2 (((List.range 32).filter fun j => active mk 32 j).map fun j => (f j).2))

def semVmac2 (d a b : BitVec 5) (m t : BitVec 3) (pre cur : State) : Res := iDot false 16 2 1 d a b m t pre cur
def semVmac2Sat (d a b : BitVec 5) (m t : BitVec 3) (pre cur : State) : Res := iDot true 16 2 1 d a b m t pre cur
def semVdot4 (d a b : BitVec 5) (m t : BitVec 3) (pre cur : State) : Res := iDot false 8 4 2 d a b m t pre cur
def semVdot4Sat (d a b : BitVec 5) (m t : BitVec 3) (pre cur : State) : Res := iDot true 8 4 2 d a b m t pre cur

/-! ### Narrowing and widening -/

/-- VSATN (R121). -/
def semVsatn (d a b : BitVec 5) (m t : BitVec 3) (pre cur : State) : Res :=
  let w := intWidth t.toNat
  let mk := pre.mask m
  let act := anyActive mk w
  let x := srcVal pre act a.toNat
  let y := srcVal pre act b.toNat
  let half := 512 / w
  elemwise pre cur [a.toNat, b.toNat] d.toNat mk w none fun e =>
    let v := sgn (2 * w) (if e < half then VReg.elem x (2 * w) e else VReg.elem y (2 * w) (e - half))
    let r := satT (iSigned t.toNat) w v
    (wrap w r.1, { sat := r.2 })

/-- VWIDEN (R121). -/
def iWiden (hi : Bool) (d a : BitVec 5) (m t : BitVec 3) (pre cur : State) : Res :=
  let w := intWidth t.toNat
  let mk := pre.mask m
  let x := srcVal pre (anyActive mk (2 * w)) a.toNat
  elemwise pre cur [a.toNat] d.toNat mk (2 * w) none fun e =>
    (wrap (2 * w) (rdInt (iSigned t.toNat) w (VReg.elem x w (if hi then e + 512 / w else e))), {})

def semVwidenLo (d a : BitVec 5) (m t : BitVec 3) (pre cur : State) : Res := iWiden false d a m t pre cur
def semVwidenHi (d a : BitVec 5) (m t : BitVec 3) (pre cur : State) : Res := iWiden true d a m t pre cur

/-! ### Compares and bit counts -/

/-- VCMPI (R122). -/
def iCmp (c : ICond) (d : BitVec 3) (a b : BitVec 5) (m t : BitVec 3) (pre cur : State) : Res :=
  let w := intWidth t.toNat
  let sg := iSigned t.toNat
  let act := anyActive (pre.mask m) w
  let x := srcVal pre act a.toNat
  let y := srcVal pre act b.toNat
  cmpMask w (fun e => c.holds (rdInt sg w (VReg.elem x w e)) (rdInt sg w (VReg.elem y w e))) (fun _ => {}) d a b m pre
    cur

def semVcmpiEq (d : BitVec 3) (a b : BitVec 5) (m t : BitVec 3) (pre cur : State) : Res := iCmp .eq d a b m t pre cur
def semVcmpiNe (d : BitVec 3) (a b : BitVec 5) (m t : BitVec 3) (pre cur : State) : Res := iCmp .ne d a b m t pre cur
def semVcmpiLt (d : BitVec 3) (a b : BitVec 5) (m t : BitVec 3) (pre cur : State) : Res := iCmp .lt d a b m t pre cur
def semVcmpiLe (d : BitVec 3) (a b : BitVec 5) (m t : BitVec 3) (pre cur : State) : Res := iCmp .le d a b m t pre cur

/-- VPOPC (R123). -/
def semVpopc (d a : BitVec 5) (m t : BitVec 3) (pre cur : State) : Res :=
  iOne (fun _ w x _ => (popcount x w, {})) d a 0 m t pre cur
/-- VCLZ (R123). -/
def semVclz (d a : BitVec 5) (m t : BitVec 3) (pre cur : State) : Res :=
  iOne (fun _ w x _ => (clzN x w, {})) d a 0 m t pre cur
/-- VPREPOP (R123). -/
def semVprepop (d a : BitVec 5) (m t : BitVec 3) (pre cur : State) : Res :=
  let _ := t
  let mk := pre.mask m
  fLanes (fun x j =>
    ((List.range j).foldl (fun s i => if mk.getLsbD i then s + popcount (VReg.elem x 32 i) 32 else s) 0, {}))
    none d a m pre cur

/-! ### Meanings -/

/-- VADDI (R119). -/
def execVaddi (d a b : BitVec 5) (m t : BitVec 3) (s : State) : Host.Outcome State Fault Refusal :=
  s.aloneV (.vaddi d a b m t) false fun cur => semVaddi d a b m t s cur
/-- VSUBI (R119). -/
def execVsubi (d a b : BitVec 5) (m t : BitVec 3) (s : State) : Host.Outcome State Fault Refusal :=
  s.aloneV (.vsubi d a b m t) false fun cur => semVsubi d a b m t s cur
/-- VMULI (R119). -/
def execVmuli (d a b : BitVec 5) (m t : BitVec 3) (s : State) : Host.Outcome State Fault Refusal :=
  s.aloneV (.vmuli d a b m t) false fun cur => semVmuli d a b m t s cur
/-- VMULHI (R119). -/
def execVmulhi (d a b : BitVec 5) (m t : BitVec 3) (s : State) : Host.Outcome State Fault Refusal :=
  s.aloneV (.vmulhi d a b m t) false fun cur => semVmulhi d a b m t s cur
/-- VMINI (R119). -/
def execVmini (d a b : BitVec 5) (m t : BitVec 3) (s : State) : Host.Outcome State Fault Refusal :=
  s.aloneV (.vmini d a b m t) false fun cur => semVmini d a b m t s cur
/-- VMAXI (R119). -/
def execVmaxi (d a b : BitVec 5) (m t : BitVec 3) (s : State) : Host.Outcome State Fault Refusal :=
  s.aloneV (.vmaxi d a b m t) false fun cur => semVmaxi d a b m t s cur
/-- VABSDI (R119). -/
def execVabsdi (d a b : BitVec 5) (m t : BitVec 3) (s : State) : Host.Outcome State Fault Refusal :=
  s.aloneV (.vabsdi d a b m t) false fun cur => semVabsdi d a b m t s cur
/-- VAND (R119). -/
def execVand (d a b : BitVec 5) (m t : BitVec 3) (s : State) : Host.Outcome State Fault Refusal :=
  s.aloneV (.vand d a b m t) false fun cur => semVand d a b m t s cur
/-- VOR (R119). -/
def execVor (d a b : BitVec 5) (m t : BitVec 3) (s : State) : Host.Outcome State Fault Refusal :=
  s.aloneV (.vor d a b m t) false fun cur => semVor d a b m t s cur
/-- VXOR (R119). -/
def execVxor (d a b : BitVec 5) (m t : BitVec 3) (s : State) : Host.Outcome State Fault Refusal :=
  s.aloneV (.vxor d a b m t) false fun cur => semVxor d a b m t s cur
/-- VNOT (R119). -/
def execVnot (d a : BitVec 5) (m t : BitVec 3) (s : State) : Host.Outcome State Fault Refusal :=
  s.aloneV (.vnot d a m t) false fun cur => semVnot d a m t s cur
/-- VSHL (R119). -/
def execVshl (d a b : BitVec 5) (m t : BitVec 3) (s : State) : Host.Outcome State Fault Refusal :=
  s.aloneV (.vshl d a b m t) false fun cur => semVshl d a b m t s cur
/-- VSHR (R119). -/
def execVshr (d a b : BitVec 5) (m t : BitVec 3) (s : State) : Host.Outcome State Fault Refusal :=
  s.aloneV (.vshr d a b m t) false fun cur => semVshr d a b m t s cur
/-- VSRA (R119). -/
def execVsra (d a b : BitVec 5) (m t : BitVec 3) (s : State) : Host.Outcome State Fault Refusal :=
  s.aloneV (.vsra d a b m t) false fun cur => semVsra d a b m t s cur
/-- VRSHR (R119). -/
def execVrshr (d a b : BitVec 5) (m t : BitVec 3) (s : State) : Host.Outcome State Fault Refusal :=
  s.aloneV (.vrshr d a b m t) false fun cur => semVrshr d a b m t s cur
/-- VADDI_SAT (R119). -/
def execVaddiSat (d a b : BitVec 5) (m t : BitVec 3) (s : State) : Host.Outcome State Fault Refusal :=
  s.aloneV (.vaddiSat d a b m t) false fun cur => semVaddiSat d a b m t s cur
/-- VSUBI_SAT (R119). -/
def execVsubiSat (d a b : BitVec 5) (m t : BitVec 3) (s : State) : Host.Outcome State Fault Refusal :=
  s.aloneV (.vsubiSat d a b m t) false fun cur => semVsubiSat d a b m t s cur
/-- VADDI_SCALAR (R119). -/
def execVaddiScalar (d a : BitVec 5) (sc : BitVec 6) (m t : BitVec 3) (s : State) : Host.Outcome State Fault Refusal :=
  s.aloneV (.vaddiScalar d a sc m t) false fun cur => semVaddiScalar d a sc m t s cur
/-- VSUBI_SCALAR (R119). -/
def execVsubiScalar (d a : BitVec 5) (sc : BitVec 6) (m t : BitVec 3) (s : State) : Host.Outcome State Fault Refusal :=
  s.aloneV (.vsubiScalar d a sc m t) false fun cur => semVsubiScalar d a sc m t s cur
/-- VMULI_SCALAR (R119). -/
def execVmuliScalar (d a : BitVec 5) (sc : BitVec 6) (m t : BitVec 3) (s : State) : Host.Outcome State Fault Refusal :=
  s.aloneV (.vmuliScalar d a sc m t) false fun cur => semVmuliScalar d a sc m t s cur
/-- VMINI_SCALAR (R119). -/
def execVminiScalar (d a : BitVec 5) (sc : BitVec 6) (m t : BitVec 3) (s : State) : Host.Outcome State Fault Refusal :=
  s.aloneV (.vminiScalar d a sc m t) false fun cur => semVminiScalar d a sc m t s cur
/-- VMAXI_SCALAR (R119). -/
def execVmaxiScalar (d a : BitVec 5) (sc : BitVec 6) (m t : BitVec 3) (s : State) : Host.Outcome State Fault Refusal :=
  s.aloneV (.vmaxiScalar d a sc m t) false fun cur => semVmaxiScalar d a sc m t s cur
/-- VSHL_IMM (R119). -/
def execVshlImm (d a : BitVec 5) (imm : BitVec 6) (m t : BitVec 3) (s : State) : Host.Outcome State Fault Refusal :=
  s.aloneV (.vshlImm d a imm m t) false fun cur => semVshlImm d a imm m t s cur
/-- VSHR_IMM (R119). -/
def execVshrImm (d a : BitVec 5) (imm : BitVec 6) (m t : BitVec 3) (s : State) : Host.Outcome State Fault Refusal :=
  s.aloneV (.vshrImm d a imm m t) false fun cur => semVshrImm d a imm m t s cur
/-- VSRA_IMM (R119). -/
def execVsraImm (d a : BitVec 5) (imm : BitVec 6) (m t : BitVec 3) (s : State) : Host.Outcome State Fault Refusal :=
  s.aloneV (.vsraImm d a imm m t) false fun cur => semVsraImm d a imm m t s cur
/-- VRSHR_IMM (R119). -/
def execVrshrImm (d a : BitVec 5) (imm : BitVec 6) (m t : BitVec 3) (s : State) : Host.Outcome State Fault Refusal :=
  s.aloneV (.vrshrImm d a imm m t) false fun cur => semVrshrImm d a imm m t s cur
/-- VMAC2 (R120). -/
def execVmac2 (d a b : BitVec 5) (m t : BitVec 3) (s : State) : Host.Outcome State Fault Refusal :=
  s.aloneV (.vmac2 d a b m t) false fun cur => semVmac2 d a b m t s cur
/-- VMAC2_SAT (R120). -/
def execVmac2Sat (d a b : BitVec 5) (m t : BitVec 3) (s : State) : Host.Outcome State Fault Refusal :=
  s.aloneV (.vmac2Sat d a b m t) false fun cur => semVmac2Sat d a b m t s cur
/-- VDOT4 (R120). -/
def execVdot4 (d a b : BitVec 5) (m t : BitVec 3) (s : State) : Host.Outcome State Fault Refusal :=
  s.aloneV (.vdot4 d a b m t) false fun cur => semVdot4 d a b m t s cur
/-- VDOT4_SAT (R120). -/
def execVdot4Sat (d a b : BitVec 5) (m t : BitVec 3) (s : State) : Host.Outcome State Fault Refusal :=
  s.aloneV (.vdot4Sat d a b m t) false fun cur => semVdot4Sat d a b m t s cur
/-- VSATN (R121). -/
def execVsatn (d a b : BitVec 5) (m t : BitVec 3) (s : State) : Host.Outcome State Fault Refusal :=
  s.aloneV (.vsatn d a b m t) false fun cur => semVsatn d a b m t s cur
/-- VWIDEN_LO (R121). -/
def execVwidenLo (d a : BitVec 5) (m t : BitVec 3) (s : State) : Host.Outcome State Fault Refusal :=
  s.aloneV (.vwidenLo d a m t) false fun cur => semVwidenLo d a m t s cur
/-- VWIDEN_HI (R121). -/
def execVwidenHi (d a : BitVec 5) (m t : BitVec 3) (s : State) : Host.Outcome State Fault Refusal :=
  s.aloneV (.vwidenHi d a m t) false fun cur => semVwidenHi d a m t s cur
/-- VCMPI_EQ (R122). -/
def execVcmpiEq (d : BitVec 3) (a b : BitVec 5) (m t : BitVec 3) (s : State) : Host.Outcome State Fault Refusal :=
  s.aloneV (.vcmpiEq d a b m t) false fun cur => semVcmpiEq d a b m t s cur
/-- VCMPI_NE (R122). -/
def execVcmpiNe (d : BitVec 3) (a b : BitVec 5) (m t : BitVec 3) (s : State) : Host.Outcome State Fault Refusal :=
  s.aloneV (.vcmpiNe d a b m t) false fun cur => semVcmpiNe d a b m t s cur
/-- VCMPI_LT (R122). -/
def execVcmpiLt (d : BitVec 3) (a b : BitVec 5) (m t : BitVec 3) (s : State) : Host.Outcome State Fault Refusal :=
  s.aloneV (.vcmpiLt d a b m t) false fun cur => semVcmpiLt d a b m t s cur
/-- VCMPI_LE (R122). -/
def execVcmpiLe (d : BitVec 3) (a b : BitVec 5) (m t : BitVec 3) (s : State) : Host.Outcome State Fault Refusal :=
  s.aloneV (.vcmpiLe d a b m t) false fun cur => semVcmpiLe d a b m t s cur
/-- VPOPC (R123). -/
def execVpopc (d a : BitVec 5) (m t : BitVec 3) (s : State) : Host.Outcome State Fault Refusal :=
  s.aloneV (.vpopc d a m t) false fun cur => semVpopc d a m t s cur
/-- VPREPOP (R123). -/
def execVprepop (d a : BitVec 5) (m t : BitVec 3) (s : State) : Host.Outcome State Fault Refusal :=
  s.aloneV (.vprepop d a m t) false fun cur => semVprepop d a m t s cur
/-- VCLZ (R123). -/
def execVclz (d a : BitVec 5) (m t : BitVec 3) (s : State) : Host.Outcome State Fault Refusal :=
  s.aloneV (.vclz d a m t) false fun cur => semVclz d a m t s cur

end Sys2Proof.Machine
end

