-- ==== Sys2Proof/Machine/VectorCross.lean ====
section
/-! DEFINITION. V-slot cross-lane operations, reductions and scans (R124 to R126), mask operations (R131) and VNOP (R132). -/

namespace Sys2Proof.Machine

/-- VNOP (R132). -/
def semVnop (pre cur : State) : Res :=
  let _ := pre
  .ok cur

/-- An instruction that writes all of `d` when a lane is active, and only moves its strips when none is (R70). Bound to a stream,
all 32 words are pushed, as R124 and R125 write every lane, under whatever mask (R110): DEDUCED (log entry 123). -/
def wholeWrite (pre cur : State) (srcs : List Nat) (d : Nat) (mk : W32) (v : VReg) (fs : List Flg) : Res :=
  withOperands pre cur srcs [d] [] (mk != 0) none fun cur =>
    if mk != 0 then .ok ((putV pre cur d v 0xFFFFFFFF#32).raise pre.cur.1 pre.cur.2 fs)
    else .ok (match pre.bound pre.cur.1 pre.cur.2 d with
      | some (u, y) => pushStream pre.cur.1 u y 0 0 cur
      | none => cur)

/-- VSLIDE (R124). -/
def semVslideUp (d a : BitVec 5) (imm : BitVec 6) (m : BitVec 3) (pre cur : State) : Res :=
  let n := imm.toNat
  fLanes (fun x j => (if n ≤ j then VReg.elem x 32 (j - n) else 0, {})) none d a m pre cur
def semVslideDn (d a : BitVec 5) (imm : BitVec 6) (m : BitVec 3) (pre cur : State) : Res :=
  let n := imm.toNat
  fLanes (fun x j => (if j + n ≤ 31 then VReg.elem x 32 (j + n) else 0, {})) none d a m pre cur
/-- VPERM (R124). -/
def semVperm (d a b : BitVec 5) (m : BitVec 3) (pre cur : State) : Res :=
  iBin' d a b m pre cur fun x y j => let i := VReg.elem y 32 j; if i < 32 then VReg.elem x 32 i else 0
where
  /-- A lane function of two whole vectors. -/
  iBin' (d a b : BitVec 5) (m : BitVec 3) (pre cur : State) (f : VReg → VReg → Nat → Nat) : Res :=
    let mk := pre.mask m
    let x := srcVal pre (anyActive mk 32) a.toNat
    let y := srcVal pre (anyActive mk 32) b.toNat
    elemwise pre cur [a.toNat, b.toNat] d.toNat mk 32 none fun j => (f x y j, {})
/-- VMOV (R124). -/
def semVmov (d a : BitVec 5) (m : BitVec 3) (pre cur : State) : Res :=
  fLanes (fun x j => (VReg.elem x 32 j, {})) none d a m pre cur
/-- VBCAST (R124). -/
def semVbcast (d : BitVec 5) (sc : BitVec 6) (m : BitVec 3) (pre cur : State) : Res :=
  let v := (pre.rs sc.toNat).toNat
  elemwise pre cur [] d.toNat (pre.mask m) 32 none fun _ => (v % 2 ^ 32, {})
/-- The number of active lanes below `j`. -/
def below (mk : W32) (j : Nat) : Nat := popcount mk.toNat j
/-- VIOTA (R124). -/
def semViota (d : BitVec 5) (m : BitVec 3) (pre cur : State) : Res :=
  elemwise pre cur [] d.toNat (pre.mask m) 32 none fun j => (below (pre.mask m) j, {})
/-- VCMPRS (R124). -/
def semVcmprs (d a : BitVec 5) (m : BitVec 3) (pre cur : State) : Res :=
  let mk := pre.mask m
  let x := srcVal pre (mk != 0) a.toNat
  let l := (laneBits mk).map fun j => VReg.elem x 32 j
  wholeWrite pre cur [a.toNat] d.toNat mk (VReg.ofElems 32 fun j => l.getD j 0) []
where
  /-- The active lanes, lowest first. -/
  laneBits (mk : W32) : List Nat := (List.range 32).filter fun j => mk.getLsbD j
/-- VEXPND (R124). -/
def semVexpnd (d a : BitVec 5) (m : BitVec 3) (pre cur : State) : Res :=
  fLanes (fun x j => (VReg.elem x 32 (below (pre.mask m) j), {})) none d a m pre cur
/-- VSELV (R124). -/
def semVselv (d a b : BitVec 5) (m : BitVec 3) (pre cur : State) : Res :=
  let mk := pre.mask m
  let x := srcVal pre (mk != 0) a.toNat
  let y := srcVal pre (mk != 0) b.toNat
  wholeWrite pre cur [a.toNat, b.toNat] d.toNat mk
    (VReg.ofElems 32 fun j => if mk.getLsbD j then VReg.elem x 32 j else VReg.elem y 32 j) []

/-! ### Reductions -/

/-- The active lanes' words. -/
def activeWords (mk : W32) (x : VReg) : List Nat :=
  ((List.range 32).filter fun j => mk.getLsbD j).map fun j => VReg.elem x 32 j

/-- A reduction written to every lane (R125). -/
def redWrite (f : List Nat → Nat × Flg) (d a : BitVec 5) (m : BitVec 3) (pre cur : State) : Res :=
  let mk := pre.mask m
  let r := f (activeWords mk (srcVal pre (mk != 0) a.toNat))
  wholeWrite pre cur [a.toNat] d.toNat mk (padStrip r.1) [r.2]

def semVredAddInt (d a : BitVec 5) (m t : BitVec 3) (pre cur : State) : Res :=
  let _ := t
  redWrite (fun l => (l.sum % 2 ^ 32, {})) d a m pre cur
/-- The least or greatest of words (R125). -/
def redPick (better : Int → Int → Bool) (sg : Bool) (l : List Nat) : Nat × Flg :=
  match l with
  | [] => (0, {})
  | x :: l => (l.foldl (fun r y => if better (rdInt sg 32 y) (rdInt sg 32 r) then y else r) x, {})
def semVredMinInt (d a : BitVec 5) (m t : BitVec 3) (pre cur : State) : Res :=
  redWrite (redPick (fun x y => x < y) (iSigned t.toNat)) d a m pre cur
def semVredMaxInt (d a : BitVec 5) (m t : BitVec 3) (pre cur : State) : Res :=
  redWrite (redPick (fun x y => y < x) (iSigned t.toNat)) d a m pre cur

/-- One rounded sum of binary32 words, with its flags. -/
def f32Add (md : RMode) (x y : Nat) : Nat × Flg :=
  let p := Fmt.f32.val x
  let q := Fmt.f32.val y
  Fmt.f32.result md [p, q] (p.add md q)

/-- A level of the tree of R50: neighbours are summed, and one alone passes unchanged. -/
def treeLevel (md : RMode) : List (Option (Nat × Flg)) → List (Option (Nat × Flg))
  | some x :: some y :: l =>
    let r := f32Add md x.1 y.1
    some (r.1, (x.2.or y.2).or r.2) :: treeLevel md l
  | some x :: none :: l => some x :: treeLevel md l
  | none :: some y :: l => some y :: treeLevel md l
  | none :: none :: l => none :: treeLevel md l
  | l => l

/-- The pairwise tree over the active lanes (R50). -/
def treeSum (md : RMode) (mk : W32) (x : VReg) : Nat × Flg :=
  let l0 := (List.range 32).map fun j => if mk.getLsbD j then some (VReg.elem x 32 j, ({} : Flg)) else none
  let l5 := treeLevel md (treeLevel md (treeLevel md (treeLevel md (treeLevel md l0))))
  match l5 with
  | some r :: _ => (r.1, { r.2 with nan := r.2.nan || (Fmt.f32.val r.1).isNan })
  | _ => (0, {})

def semVredAddFloat (d a : BitVec 5) (m t : BitVec 3) (pre cur : State) : Res :=
  let mk := pre.mask m
  let r := treeSum (fMode t.toNat) mk (srcVal pre (mk != 0) a.toNat)
  wholeWrite pre cur [a.toNat] d.toNat mk (padStrip r.1) [r.2]
/-- VMIN or VMAX over words; a NaN among them gives the canonical NaN (R125). -/
def redFloat (isMax : Bool) (l : List Nat) : Nat × Flg :=
  if l.any fun x => (Fmt.f32.val x).isNan then (Fmt.f32.qnan, { nan := true })
  else
    match l with
    | [] => (0, {})
    | x :: l => (l.foldl (fun r y => (Fmt.f32.minMax isMax r y).1) x, {})
def semVredMinFloat (d a : BitVec 5) (m t : BitVec 3) (pre cur : State) : Res :=
  let _ := t
  redWrite (redFloat false) d a m pre cur
def semVredMaxFloat (d a : BitVec 5) (m t : BitVec 3) (pre cur : State) : Res :=
  let _ := t
  redWrite (redFloat true) d a m pre cur

/-! ### Scans -/

/-- The inclusive scan of the active lanes from lane `j` on, with `r` the running value (R126): results by lane. The first active
lane is copied, and `first` gives its flags (R53). -/
def scanLanes (first : Nat → Flg) (f : Nat → Nat → Nat × Flg) (mk : W32) (x : VReg) (j : Nat) (r : Option Nat) :
    Nat → List (Nat × Nat × Flg)
  | 0 => []
  | n + 1 =>
    if mk.getLsbD j then
      let v := VReg.elem x 32 j
      let q := match r with
        | none => (v, first v)
        | some p => f p v
      (j, q.1, q.2) :: scanLanes first f mk x (j + 1) (some q.1) n
    else scanLanes first f mk x (j + 1) r n

/-- VSCANI (R126). -/
def scanWrite (first : Nat → Flg) (f : Nat → Nat → Nat × Flg) (d a : BitVec 5) (m : BitVec 3) (pre cur : State) : Res :=
  let mk := pre.mask m
  let l := scanLanes first f mk (srcVal pre (mk != 0) a.toNat) 0 none 32
  let at_ := fun j => (l.find? fun e => e.1 = j).getD (j, 0, {})
  elemwise pre cur [a.toNat] d.toNat mk 32 none fun j => ((at_ j).2.1, (at_ j).2.2)

def semVscaniAddInt (d a : BitVec 5) (m t : BitVec 3) (pre cur : State) : Res :=
  let _ := t
  scanWrite (fun _ => {}) (fun x y => ((x + y) % 2 ^ 32, {})) d a m pre cur
def semVscaniMaxInt (d a : BitVec 5) (m t : BitVec 3) (pre cur : State) : Res :=
  scanWrite (fun _ => {}) (fun x y => (iMax (iSigned t.toNat) 32 x y)) d a m pre cur
def semVscaniAddFloat (d a : BitVec 5) (m t : BitVec 3) (pre cur : State) : Res :=
  scanWrite (fun x => { nan := (Fmt.f32.val x).isNan }) (f32Add (fMode t.toNat)) d a m pre cur

/-! ### Masks -/

def semMand (d a b : BitVec 3) (pre cur : State) : Res := .ok (cur.wm d.toNat (pre.mask a &&& pre.mask b))
def semMor (d a b : BitVec 3) (pre cur : State) : Res := .ok (cur.wm d.toNat (pre.mask a ||| pre.mask b))
def semMxor (d a b : BitVec 3) (pre cur : State) : Res := .ok (cur.wm d.toNat (pre.mask a ^^^ pre.mask b))
def semMnot (d a : BitVec 3) (pre cur : State) : Res := .ok (cur.wm d.toNat (~~~(pre.mask a)))
/-- MSET (R131). -/
def semMset (d : BitVec 3) (n : BitVec 10) (pre cur : State) : Res :=
  let _ := pre
  .ok (cur.wm d.toNat (BitVec.ofNat 32 (2 ^ n.toNat - 1)))

/-! ### Meanings -/

/-- VNOP (R132). -/
def execVnop (s : State) : Host.Outcome State Fault Refusal := s.aloneV .vnop false fun cur => semVnop s cur
/-- VSLIDE_UP (R124). -/
def execVslideUp (d a : BitVec 5) (imm : BitVec 6) (m : BitVec 3) (s : State) : Host.Outcome State Fault Refusal :=
  s.aloneV (.vslideUp d a imm m) false fun cur => semVslideUp d a imm m s cur
/-- VSLIDE_DN (R124). -/
def execVslideDn (d a : BitVec 5) (imm : BitVec 6) (m : BitVec 3) (s : State) : Host.Outcome State Fault Refusal :=
  s.aloneV (.vslideDn d a imm m) false fun cur => semVslideDn d a imm m s cur
/-- VPERM (R124). -/
def execVperm (d a b : BitVec 5) (m : BitVec 3) (s : State) : Host.Outcome State Fault Refusal :=
  s.aloneV (.vperm d a b m) false fun cur => semVperm d a b m s cur
/-- VCMPRS (R124). -/
def execVcmprs (d a : BitVec 5) (m : BitVec 3) (s : State) : Host.Outcome State Fault Refusal :=
  s.aloneV (.vcmprs d a m) false fun cur => semVcmprs d a m s cur
/-- VEXPND (R124). -/
def execVexpnd (d a : BitVec 5) (m : BitVec 3) (s : State) : Host.Outcome State Fault Refusal :=
  s.aloneV (.vexpnd d a m) false fun cur => semVexpnd d a m s cur
/-- VIOTA (R124). -/
def execViota (d : BitVec 5) (m : BitVec 3) (s : State) : Host.Outcome State Fault Refusal :=
  s.aloneV (.viota d m) false fun cur => semViota d m s cur
/-- VSELV (R124). -/
def execVselv (d a b : BitVec 5) (m : BitVec 3) (s : State) : Host.Outcome State Fault Refusal :=
  s.aloneV (.vselv d a b m) false fun cur => semVselv d a b m s cur
/-- VMOV (R124). -/
def execVmov (d a : BitVec 5) (m : BitVec 3) (s : State) : Host.Outcome State Fault Refusal :=
  s.aloneV (.vmov d a m) false fun cur => semVmov d a m s cur
/-- VBCAST (R124). -/
def execVbcast (d : BitVec 5) (sc : BitVec 6) (m : BitVec 3) (s : State) : Host.Outcome State Fault Refusal :=
  s.aloneV (.vbcast d sc m) false fun cur => semVbcast d sc m s cur
/-- VRED_ADD_INT (R125). -/
def execVredAddInt (d a : BitVec 5) (m t : BitVec 3) (s : State) : Host.Outcome State Fault Refusal :=
  s.aloneV (.vredAddInt d a m t) false fun cur => semVredAddInt d a m t s cur
/-- VRED_MIN_INT (R125). -/
def execVredMinInt (d a : BitVec 5) (m t : BitVec 3) (s : State) : Host.Outcome State Fault Refusal :=
  s.aloneV (.vredMinInt d a m t) false fun cur => semVredMinInt d a m t s cur
/-- VRED_MAX_INT (R125). -/
def execVredMaxInt (d a : BitVec 5) (m t : BitVec 3) (s : State) : Host.Outcome State Fault Refusal :=
  s.aloneV (.vredMaxInt d a m t) false fun cur => semVredMaxInt d a m t s cur
/-- VRED_ADD_FLOAT (R125). -/
def execVredAddFloat (d a : BitVec 5) (m t : BitVec 3) (s : State) : Host.Outcome State Fault Refusal :=
  s.aloneV (.vredAddFloat d a m t) false fun cur => semVredAddFloat d a m t s cur
/-- VRED_MIN_FLOAT (R125). -/
def execVredMinFloat (d a : BitVec 5) (m t : BitVec 3) (s : State) : Host.Outcome State Fault Refusal :=
  s.aloneV (.vredMinFloat d a m t) false fun cur => semVredMinFloat d a m t s cur
/-- VRED_MAX_FLOAT (R125). -/
def execVredMaxFloat (d a : BitVec 5) (m t : BitVec 3) (s : State) : Host.Outcome State Fault Refusal :=
  s.aloneV (.vredMaxFloat d a m t) false fun cur => semVredMaxFloat d a m t s cur
/-- VSCANI_ADD_INT (R126). -/
def execVscaniAddInt (d a : BitVec 5) (m t : BitVec 3) (s : State) : Host.Outcome State Fault Refusal :=
  s.aloneV (.vscaniAddInt d a m t) false fun cur => semVscaniAddInt d a m t s cur
/-- VSCANI_MAX_INT (R126). -/
def execVscaniMaxInt (d a : BitVec 5) (m t : BitVec 3) (s : State) : Host.Outcome State Fault Refusal :=
  s.aloneV (.vscaniMaxInt d a m t) false fun cur => semVscaniMaxInt d a m t s cur
/-- VSCANI_ADD_FLOAT (R126). -/
def execVscaniAddFloat (d a : BitVec 5) (m t : BitVec 3) (s : State) : Host.Outcome State Fault Refusal :=
  s.aloneV (.vscaniAddFloat d a m t) false fun cur => semVscaniAddFloat d a m t s cur
/-- MAND (R131). -/
def execMand (d a b : BitVec 3) (s : State) : Host.Outcome State Fault Refusal :=
  s.aloneV (.mand d a b) false fun cur => semMand d a b s cur
/-- MOR (R131). -/
def execMor (d a b : BitVec 3) (s : State) : Host.Outcome State Fault Refusal :=
  s.aloneV (.mor d a b) false fun cur => semMor d a b s cur
/-- MXOR (R131). -/
def execMxor (d a b : BitVec 3) (s : State) : Host.Outcome State Fault Refusal :=
  s.aloneV (.mxor d a b) false fun cur => semMxor d a b s cur
/-- MNOT (R131). -/
def execMnot (d a : BitVec 3) (s : State) : Host.Outcome State Fault Refusal :=
  s.aloneV (.mnot d a) false fun cur => semMnot d a s cur
/-- MSET (R131). -/
def execMset (d : BitVec 3) (n : BitVec 10) (s : State) : Host.Outcome State Fault Refusal :=
  s.aloneV (.mset d n) false fun cur => semMset d n s cur

end Sys2Proof.Machine
end

