-- ==== Sys2Proof/Machine/Quant.lean ====
section
/-! DEFINITION. Quantisation (R127 to R129), the checks of scale-group placement (R44 to R46), and top-k selection
(R130). -/

namespace Sys2Proof.Machine

/-- GRP of a format register (R42). -/
def fxGrp (x : W32) : Nat := fld x.toNat 6 2
/-- FMT of a format register (R42). -/
def fxFmt (x : W32) : Nat := fld x.toNat 0 4
/-- SBASE, SSTR and BMAP of a placement register (R44). -/
def spBase (x : W64) : Nat := fld x.toNat 0 20
def spStr (x : W64) : Nat := fld x.toNat 20 12
def spBmap (x : W64) : Nat := fld x.toNat 40 20

/-- The first field of a placement that fails its alignment, as R45 words its ALIGN trap; `second`: it is SPB. -/
def spTrap (grp : Nat) (sp : W64) (second : Bool) : Option (Nat × W32) :=
  let detail := fun (name v : Nat) => some (cALIGN, BitVec.ofNat 32 (v + name * 2 ^ 28 + second.toNat * 2 ^ 30))
  if spBase sp % 2 != 0 then detail 0 (spBase sp)
  else if spStr sp % 2 != 0 then detail 1 (spStr sp)
  else if grp = 2 && spBmap sp % 4 != 0 then detail 2 (spBmap sp)
  else none

/-- The fault of a LOCAL-only check of sg0, if it has one (R397). -/
def State.seg0Trap (s : State) (off : Int) (size align : Nat) (kind : AccKind) : Option (Nat × W32) :=
  (s.seg0 off size align kind).offTrap off

/-- The bits of an element in a vector register: 8 or 4 (R41). -/
def bxWidth (bx4 : Bool) : Nat := if bx4 then 4 else 8

/-- VQNT (R128). -/
def semVqnt (d a b : BitVec 5) (m t : BitVec 3) (pre cur : State) : Res :=
  let bx4 := t.toNat = 1
  let mk := pre.mask m
  let act := mk != 0
  let va := srcVal pre act a.toNat
  let vb := srcVal pre act b.toNat
  let lane := fun k => VReg.elem vb 32 k
  let ctl := lane 4
  let second := fld ctl 1 1 = 1
  let fx := if second then pre.me.fxb else pre.me.fxa
  let sp := if second then pre.me.spb else pre.me.spa
  let grp := fxGrp fx
  let r := lane 0
  let blk := lane 1
  let woff : Int := ((spBmap sp + 4 * (blk / 32) : Nat) : Int)
  let soff : Int := ((spBase sp + r * spStr sp + (if grp = 2 then 2 * lane 2 else if grp = 1 then 0 else 2 * blk) : Nat) : Int)
  let ecc := fun (off : Int) (size : Nat) => match pre.seg0 off size size .store with
    | .at x => if pre.my.bad x size then some (cECCFATAL, offDetail off) else none
    | _ => none
  let bad : Option (Nat × W32) :=
    if !act || !srcReady pre act b.toNat then none
    else if grp = 3 then some (cILLEGAL, 0)
    else
      match spTrap grp sp second with
      | some e => some e
      | none =>
        if blk > 1023 then some (cSEGLIMIT, BitVec.ofNat 32 blk)
        else
          let w := if grp = 2 then minTrap (pre.seg0Trap woff 4 4 .store) (ecc woff 4) else none
          minTrap (minTrap w (pre.seg0Trap soff 2 2 .store)) (ecc soff 2)
  withOperands pre cur [a.toNat, b.toNat] [] [d.toNat] act bad fun cur =>
    if !act then .ok cur
    else
      let xs := (List.range 32).map fun i => if mk.getLsbD i then Fmt.f32.val (VReg.elem va 32 i) else .fin false 0 0
      let mext := Fmt.f32.val (lane 3)
      let ext : List Fv := (match mext with
          | .fin _ k e => [.fin false k e]
          | x => [x]) ++ (if fld ctl 2 1 = 1 then [.nan] else []) ++ (if fld ctl 3 1 = 1 then [.inf false] else [])
      let q := quantise bx4 (fld pre.me.fxc.toNat 4 4) xs ext
      let w := bxWidth bx4
      let lo := if bx4 then blk % 8 * 32 else blk % 4 * 32
      let old := pre.me.rv d.toNat
      let v := VReg.ofElems w fun e =>
        if lo ≤ e && e < lo + 32 then (q.1.getD (e - lo) (0, {})).1 else VReg.elem old w e
      let put := fun (s : State) (off : Int) (size val : Nat) => match pre.seg0 off size size .store with
        | .at x => (s.touch pre.cur.1 x size).modCore pre.cur.1 fun y => y.wr x size val
        | _ => s
      let cur := if grp = 2 then
          match pre.seg0 woff 4 4 .store with
          | .at x =>
            let old := cur.my.rd x 4
            let bit := 2 ^ (blk % 32)
            let off_ := old - (old / bit % 2) * bit
            (cur.touch pre.cur.1 x 4).modCore pre.cur.1 fun y => y.wr x 4 (off_ + ctl % 2 * bit)
          | _ => cur
        else cur
      let cur := put (cur.wv d.toNat v) soff 2 q.2
      .ok (cur.raise pre.cur.1 pre.cur.2 (q.1.map (·.2)))

/-- VDQNT (R129). -/
def semVdqnt (d a b : BitVec 5) (m t : BitVec 3) (pre cur : State) : Res :=
  let bx4 := t.toNat = 1
  let mk := pre.mask m
  let va := srcVal pre (mk != 0) a.toNat
  let vb := srcVal pre (mk != 0) b.toNat
  let sc := Scale.read (VReg.elem vb 32 0 % 2 ^ 16)
  let blk := VReg.elem vb 32 1
  let lo := if bx4 then blk % 8 * 32 else blk % 4 * 32
  elemwise pre cur [a.toNat, b.toNat] d.toNat mk 32 none fun i =>
    let x := bxValue bx4 sc (VReg.elem va (bxWidth bx4) (lo + i))
    Fmt.f32.result .rne [] x

/-! ### Top-k -/

/-- A candidate of VTOPK: its bits, its index, and whether it stands in the list already (R130). -/
structure TopEnt where
  bits : Nat
  idx : Nat
  listed : Bool
  deriving DecidableEq, Repr

/-- Whether a selection value is greater, or the same number (R130). -/
def selOrd (t x y : Nat) : Bool × Bool :=
  match t with
  | 0 => ((Fmt.f32.val y).lt (Fmt.f32.val x), (Fmt.f32.val x).eq (Fmt.f32.val y))
  | 1 => (sgn 32 y < sgn 32 x, x = y)
  | _ => (y < x, x = y)

/-- Whether an entry comes before another: greater value, then smaller index, then the list's own (R130). -/
def TopEnt.before (t : Nat) (p q : TopEnt) : Bool :=
  let o := selOrd t p.bits q.bits
  o.1 || (o.2 && (p.idx < q.idx || (p.idx = q.idx && p.listed && !q.listed)))

/-- Inserts an entry in order, after those that do not come later: entries equal in value, index and origin keep lane order, DESIGN
CHOICE (log entry 124). -/
def topInsert (t : Nat) (p : TopEnt) : List TopEnt → List TopEnt
  | [] => [p]
  | q :: l => if p.before t q then p :: q :: l else q :: topInsert t p l

/-- VTOPK (R130); `nz` skips zero candidates. A candidate of index 0xFFFFFFFF is skipped before its value is looked at, so that a
NaN there sets no flag: DESIGN CHOICE (log entry 125). -/
def topk (nz : Bool) (d a b : BitVec 5) (m t : BitVec 3) (pre cur : State) : Res :=
  let ty := t.toNat
  let mk := pre.mask m
  let va := srcVal pre (mk != 0) a.toNat
  let vb := srcVal pre (mk != 0) b.toNat
  let lv := pre.me.rv d.toNat
  let li := pre.me.rv (d.toNat + 1)
  let isNan := fun x => ty = 0 && (Fmt.f32.val x).isNan
  let isZero := fun x => if ty = 0 then x % 2 ^ 31 = 0 else x = 0
  withOperands pre cur [a.toNat, b.toNat] [] [d.toNat, d.toNat + 1] (mk != 0) none fun cur =>
    if mk = 0 then .ok cur
    else
      let filled := ((List.range 32).filter fun j => VReg.elem li 32 j != 0xFFFFFFFF).map fun j =>
        (⟨VReg.elem lv 32 j, VReg.elem li 32 j, true⟩ : TopEnt)
      let cand := ((List.range 32).filter fun j => mk.getLsbD j && VReg.elem vb 32 j != 0xFFFFFFFF).map fun j =>
        (⟨VReg.elem va 32 j, VReg.elem vb 32 j, false⟩ : TopEnt)
      let all := filled ++ cand
      let c := (all.filter fun p => !isNan p.bits && (p.listed || !(nz && isZero p.bits))).foldl
        (fun l p => topInsert ty p l) []
      let k := min ((pre.rs 54).toNat % 64) 32
      let n := min k c.length
      let low := if ty = 0 then 0xFF800000 else if ty = 1 then 0x80000000 else 0
      let e := fun p => if p < n then c.getD p ⟨low, 0xFFFFFFFF, false⟩ else ⟨low, 0xFFFFFFFF, false⟩
      let cur := cur.wv d.toNat (VReg.ofElems 32 fun p => (e p).bits)
      let cur := cur.wv (d.toNat + 1) (VReg.ofElems 32 fun p => (e p).idx)
      let cur := cur.ws 54 (BitVec.ofNat 64 n)
      .ok (cur.raise pre.cur.1 pre.cur.2 (if all.any fun p => isNan p.bits then [{ nan := true }] else []))

def semVtopk (d a b : BitVec 5) (m t : BitVec 3) (pre cur : State) : Res := topk false d a b m t pre cur
def semVtopkNz (d a b : BitVec 5) (m t : BitVec 3) (pre cur : State) : Res := topk true d a b m t pre cur

/-! ### Meanings -/

/-- VQNT (R128). -/
def execVqnt (d a b : BitVec 5) (m t : BitVec 3) (s : State) : Host.Outcome State Fault Refusal :=
  s.aloneV (.vqnt d a b m t) false fun cur => semVqnt d a b m t s cur
/-- VDQNT (R129). -/
def execVdqnt (d a b : BitVec 5) (m t : BitVec 3) (s : State) : Host.Outcome State Fault Refusal :=
  s.aloneV (.vdqnt d a b m t) false fun cur => semVdqnt d a b m t s cur
/-- VTOPK (R130). -/
def execVtopk (d a b : BitVec 5) (m t : BitVec 3) (s : State) : Host.Outcome State Fault Refusal :=
  s.aloneV (.vtopk d a b m t) true fun cur => semVtopk d a b m t s cur
/-- VTOPK_NZ (R130). -/
def execVtopkNz (d a b : BitVec 5) (m t : BitVec 3) (s : State) : Host.Outcome State Fault Refusal :=
  s.aloneV (.vtopkNz d a b m t) true fun cur => semVtopkNz d a b m t s cur

end Sys2Proof.Machine
end

