-- ==== Sys2Proof/Machine/Bank.lean ====
section
/-! DEFINITION. The banks that slot accesses take, which engine accesses leave to them (R18, R25, R111, R247; log entry 130). -/

namespace Sys2Proof.Machine

/-- The words of a block of sg0. -/
def State.blockWords (s : State) (off : Nat) (n : Nat) : List Nat := wordsOf (sgBase (s.me.rsg 0) + off) n

/-- The words of an indexed access with the cycle of each behind its issue: a bank serves one word a cycle (R96). -/
def bankTurns (xs : List Nat) : List (Nat × Nat) :=
  let ws := (xs.map (· / 4)).eraseDups
  ws.mapIdx fun k w => (((ws.take k).filter fun v => v % 64 = w % 64).length, w)

/-- The words of an indexed access's active lanes (R95, R96). -/
def State.laneWords (s : State) (a : BitVec 6) (sg vi m : Nat) (kind : AccKind) : List (Nat × Nat) :=
  let mask := s.me.rm m
  bankTurns ((laneList mask).map fun j => (s.laneSeg sg a (srcVal s (mask != 0) vi) kind j).addr)

/-- The words of the scale word and of the bitmap bit that VQNT writes, by its control vector (R44, R128). -/
def State.scaleWords (s : State) (v : VReg) : List Nat :=
  let lane := fun k => VReg.elem v 32 k
  let second := fld (lane 4) 1 1 = 1
  let sp := if second then s.me.spb else s.me.spa
  let grp := fxGrp (if second then s.me.fxb else s.me.fxa)
  s.blockWords (spBase sp + lane 0 * spStr sp + (if grp = 2 then 2 * lane 2 else if grp = 1 then 0 else 2 * lane 1)) 2
    ++ if grp = 2 then s.blockWords (spBmap sp + 4 * (lane 1 / 32)) 4 else []

/-- The words that an instruction of the executing slot accesses, with the cycle of each behind its issue (R92 to R98, R24,
R128): those its operands name, and of the instructions that read or write a block of sg0, the block's. -/
def State.slotWords (s : State) (i : Instr) : List (Nat × Nat) :=
  let r := fun (a : BitVec 6) => (s.rs a.toNat).toNat
  let now := fun (l : List Nat) => l.map fun w => (0, w)
  let at_ := fun (sg : BitVec 3) (a : BitVec 6) (imm : BitVec 8) (scale n : Nat) =>
    now (s.nearWords sg.toNat (s.smOff a imm scale) n)
  let blk := fun (a : BitVec 6) (n : Nat) => now (s.blockWords (r a) n)
  let push := fun (n : BitVec 6) =>
    let j := s.rs (n.toNat + 3)
    if jrJV j then now (s.blockWords (jrOff j) 4) else []
  let quarter := fun (n : BitVec 6) =>
    let j := s.me.curj
    if trRange (trOf (s.rs n.toNat) (s.rs (n.toNat + 1)) (s.rs (n.toNat + 2)) false 0 0 0) && jrJV j
        && s.rankCore s.cur.1 (jrRank j) = s.cur.1 then now (wordsOf (jrOff j) 4)
    else []
  let copy := fun (n : BitVec 6) =>
    let w0 := (s.rs n.toNat).toNat
    if fld w0 12 1 = 1 then now (s.blockWords (fld (s.rs (n.toNat + 3)).toNat 0 20) 64) else []
  match i with
  | .ldb _ a sg _ imm | .ldbs _ a sg _ imm | .stb _ a sg _ imm => at_ sg a imm 1 1
  | .ldh _ a sg _ imm | .ldhs _ a sg _ imm | .sth _ a sg _ imm => at_ sg a imm 2 2
  | .ldw _ a sg _ imm | .ldws _ a sg _ imm | .stw _ a sg _ imm => at_ sg a imm 4 4
  | .ldd _ a sg _ imm | .std _ a sg _ imm => at_ sg a imm 8 8
  | .ldwsync _ a sg imm | .ldwtake _ a sg imm | .fetest _ a sg imm => at_ sg a imm 4 4
  | .stwfill _ a sg _ imm => at_ sg a imm 4 4
  | .feset a sg imm | .feclr a sg imm => at_ sg a imm 4 4
  | .vld _ a sg _ imm | .vst _ a sg _ imm => at_ sg a imm 128 128
  | .vldb _ a sg imm => at_ sg a imm 4 4
  | .vldx _ a sg _ vi m => s.laneWords a sg.toNat vi.toNat m.toNat .load
  | .vstx _ a sg _ vi m => s.laneWords a sg.toNat vi.toNat m.toNat .store
  | .segld _ a | .segst _ a | .ringcfg _ a | .cxopen _ a _ => blk a 16
  | .istset a | .scntile a | .scnfix a => blk a 32
  | .cxsave _ a | .cxrest _ a | .hubcmd _ a => blk a 64
  | .ssave _ a | .srest _ a | .psend a => blk a 128
  | .wdq a _ | .join a => blk a 4
  | .scfg n _ _ _ => now (s.blockWords (fld (s.rs (n.toNat + 1)).toNat 0 20) 64)
  | .fork n _ | .forkd n _ | .dqpushr n _ _ => push n
  | .split n _ => quarter n
  | .cpy n | .cpyw n | .cpyt n | .mcast n _ => copy n
  | .vqnt _ _ b m _ =>
    let act := s.mask m != 0
    if act then now (s.scaleWords (srcVal s act b.toNat)) else []
  | _ => now (s.atomicWords i)

/-- The words that a strip's pop or push accesses (R110, R111, R222, R308): the pattern's strip, the staging area's, the
pipe's. -/
def stripWords (x : Core) (y : Stream) : List Nat :=
  match y.kind with
  | .pattern =>
    if patValid y.blk y.count then wordsOf (sgBase y.seg + patSrc y.blk y.base y.count).toNat 128 else []
  | .global => wordsOf (y.stgOf y.count) 128
  | .pipe =>
    let p := x.pipeOf y.num
    wordsOf (p.base + 128 * (if y.write then p.tail else p.head)) 128
  | _ => []

/-- The words that the streams of a core have popped or pushed between two of its states (R111). -/
def popWords (x y : Core) : List Nat :=
  (List.range 8).flatMap fun u =>
    let a := vget x.su u Stream.reset
    if a.count < (vget y.su u Stream.reset).count then stripWords x a else []

/-- The instruction whose access awaits the end of its slot's wait: an atomic that waits for its release, an SSAVE for its
stream's drain (R274, R314). -/
def Held.awaitsAccess : Held → Option Instr
  | .release i _ => some i
  | .unit (.ssave d a) _ => some (.ssave d a)
  | _ => Option.none

/-- Whether an instruction has the Strainer read the local store (R25, R174, R179, R180, R181). -/
def strains (i : Instr) : Bool :=
  match i with
  | .cxnext _ _ _ _ | .cxnextW _ _ _ _ | .cxsplit _ _ _ | .cxstat _ _ _ => true
  | _ => false

/-- The account of a bundle that executed between two states: its fetch at local address `fetch`, its instructions where it
took effect, but for one whose access awaits the end of a wait, and its strips. -/
def State.charge (pre post : State) (c : Nat) (fetch : Option Nat) (is : List Instr) : State :=
  let t := post.slot c pre.cur.2
  let ran := if t.last = some pre.now then is.filter fun i => t.held.awaitsAccess != some i else []
  let f := match fetch with
    | some a => wordsOf a 8
    | none => []
  let l := f ++ popWords (pre.core c) (post.core c)
  let strained := ran.any strains
  post.modCore c fun x => Core.claim { x with engaged := x.engaged || strained } pre.now (l.map (fun w => (0, w)) ++ ran.flatMap pre.slotWords)

/-- Whether slot accesses of this cycle take a bank that an access to these words needs (R25, R247). -/
def Core.bankBusy (x : Core) (now : Nat) (ws : List Nat) : Bool :=
  x.taken.any fun e => e.1 = now && ws.any fun w => w % 64 = e.2

end Sys2Proof.Machine
end

