-- ==== Sys2Proof/Machine/Scan.lean ====
section
/-! DEFINITION. The scan engine and the Flue (R239 to R258). -/

namespace Sys2Proof.Machine

/-! ### Operators (R241) -/

/-- compose of R241 on one lane: (a, b) of P and of Q; a code past the operators is the saturating sum of FCOMB (R55). -/
def compose1 (op pa pb qa qb : Nat) : Nat × Nat × Flg :=
  let F := Fmt.f32
  let P := F.val pb
  let Q := F.val qb
  match op with
  | 0 => (0, F.result .rne [P, Q] (P.add .rne Q))
  | 1 => (0, (pb + qb) % 2 ^ 32, {})
  | 2 => (0, F.minMax true pb qb)
  | 3 => (0, F.minMax false pb qb)
  | 4 => (0, if sgn 32 pb < sgn 32 qb then qb else pb, {})
  | 5 => (0, if sgn 32 qb < sgn 32 pb then qb else pb, {})
  | 6 => (0, F.result .rne [P, Q] (P.mul Q))
  | 7 =>
    let pA := F.val pa
    let qA := F.val qa
    let a := F.result .rne [qA, pA] (qA.mul pA)
    let b := F.result .rne [qA, P, Q] ((qA.mul P).add .rne Q)
    (a.1, b.1, a.2.or b.2)
  | _ => (0, min (pb + qb) 0xFFFFFFFF, {})

/-- compose of R241 on lane registers, with each lane's flags; the identity composes bit for bit. -/
def compose (op : Nat) (P Q : LaneVal) : LaneVal × List Flg :=
  if P.ident then (Q, [])
  else if Q.ident then (P, [])
  else
    let r := (List.range 32).map fun j =>
      compose1 op (VReg.elem P.a 32 j) (VReg.elem P.b 32 j) (VReg.elem Q.a 32 j) (VReg.elem Q.b 32 j)
    (⟨false, VReg.ofElems 32 fun j => (r.getD j (0, 0, {})).1, VReg.ofElems 32 fun j => (r.getD j (0, 0, {})).2.1⟩,
      r.map fun e => e.2.2)

/-- The STICKY bits of several elements. -/
def flagBits (l : List Flg) : W64 := l.foldl (fun b f => b ||| f.bits) 0

/-! ### Configuration -/

/-- Changes a core's scan engine. -/
def State.modScan (s : State) (c : Nat) (f : Scan → Scan) : State := s.modCore c fun x => { x with scan := f x.scan }

/-- A HANDLE trap of the engine (R242). -/
def scHandle (s : State) (reason : Nat) : Res := .trap cHANDLE (s.hFree reason)

/-- Goes on if the executing slot owns the engine (R239). -/
def State.scOwned (s : State) (k : Res) : Res := if s.my.scan.owner != some s.cur.2 then scHandle s 1 else k

/-- Acts at once when no tile is queued, and else when the last one has completed (R248). -/
def State.afterTiles (s : State) (i : Instr) (data : BitVec 256) (act : State → State) : Res :=
  if s.my.scan.tiles.isEmpty then .ok (act s) else .hold none (s.await .parked (.unit i data))

/-- The links forget rounds that they need not know of any more. -/
def State.dropRounds (s : State) (p : FlueRounds → Bool) : State :=
  { s with hub := { s.hub with links := s.hub.links.map fun l => { l with slow := l.slow.filter fun k => !p k } } }

/-- SCNGRP takes effect (R243): held messages of other groups are discarded. -/
def State.scanGroup (s : State) (c i : Nat) (chain : Bool) (data : BitVec 256) : State :=
  let F := fld data.toNat 0 64
  let C := fld data.toNat 64 64
  let s := s.dropRounds fun k => some k.gang = (s.core c).gang && k.first = F && k.count = C
  s.modScan c fun e =>
    { e with owner := some i, first := F, count := C, gv := true, chain := chain, opv := false, round := 0
             run := LaneVal.identity, cin := LaneVal.identity, tot := LaneVal.identity, flue := none
             held := e.held.filter fun m => m.first = F && m.count = C }

/-- SCNGRP.rel takes effect (R243). -/
def Scan.free (e : Scan) : Scan := { e with owner := none, gv := false, opv := false, flue := none }

/-- SCNOP takes effect (R244). -/
def Scan.setOp (e : Scan) (op : Nat) : Scan :=
  { e with op := op, opv := true, run := LaneVal.identity, cin := LaneVal.identity, tot := LaneVal.identity }

/-- SCNGRP (R239, R243). -/
def semScngrp (c : BitVec 1) (a b : BitVec 6) (s : State) : Res :=
  let i := s.cur.2
  let o := s.my.scan.owner
  if i ≥ 14 then scHandle s 3
  else if o != none && o != some i then scHandle s 1
  else
    let F := (s.rs a.toNat).toNat
    let C := (s.rs b.toNat).toNat
    if C = 0 || F + C > s.my.gsize || s.my.rank < F || s.my.rank ≥ F + C then .trap cHANDLE (hDetail 7 F)
    else
      let data : BitVec 256 := BitVec.ofNat 256 (F + C * 2 ^ 64)
      s.afterTiles (.scngrp c a b) data fun s => s.scanGroup s.cur.1 i (c = 1) data

/-- SCNGRP.rel (R239, R243). -/
def semScngrpRel (s : State) : Res :=
  if s.cur.2 ≥ 14 then scHandle s 3
  else s.scOwned (s.afterTiles .scngrpRel 0 fun s => s.modScan s.cur.1 Scan.free)

/-- SCNOP (R244). -/
def semScnop (a : BitVec 6) (s : State) : Res :=
  s.scOwned (
    let v := (s.rs a.toNat).toNat
    if v ≥ 8 then scHandle s 4
    else if !s.my.scan.gv then scHandle s 3
    else s.afterTiles (.scnop a) (BitVec.ofNat 256 v) fun s => s.modScan s.cur.1 fun e => e.setOp v)

/-! ### Tiles -/

/-- The offsets and row count of a tile descriptor (R245). -/
def tdX (w : Nat) : Nat := fld w 0 20
def tdA (w : Nat) : Nat := fld w 32 20
def tdY (w : Nat) : Nat := fld w 64 20
def tdP (w : Nat) : Nat := fld w 96 20
def tdRows (w : Nat) : Nat := fld w 128 12 + 1

/-- Whether a tile descriptor is malformed (R245). -/
def tdMalformed (w : Nat) (aff : Bool) : Bool :=
  fld w 20 12 != 0 || fld w 52 12 != 0 || fld w 84 12 != 0 || fld w 116 12 != 0 || fld w 140 116 != 0
    || (!aff && (tdA w != 0 || tdP w != 0))

/-- The first offset that is no multiple of 128, if any. -/
def misaligned (l : List Nat) : Option Nat := l.find? fun o => o % 128 != 0

/-- Goes on with a descriptor's words once it and the offsets that are used pass their checks (R245, R246). -/
def State.tileDesc (s : State) (a : BitVec 6) (used : Nat → List Nat) (k : Nat → State → Res) : Res :=
  let e := s.my.scan
  if !e.opv then scHandle s 3
  else
    let off : Int := (s.rs a.toNat).toNat
    (s.seg0 off 32 8 .load).get off fun y =>
      if s.my.bad y 32 then .trap cECCFATAL (offDetail off)
      else
        let w := s.my.rd y 32
        if tdMalformed w (e.op = 7) then scHandle s 4
        else
          match misaligned (used w) with
          | some o => .trap cALIGN (offDetail o)
          | none => k w (s.touch s.cur.1 y 32)

/-- The span of an array of a tile (R246). -/
def State.tileSpan (s : State) (w o : Nat) (kind : AccKind) (k : Nat → Res) : Res :=
  (s.seg0 (o : Int) (128 * tdRows w) 128 kind).get o k

/-- The addresses of a tile that waits for its place, as one number. -/
def tileData (x y a p n : Nat) : BitVec 256 :=
  BitVec.ofNat 256 (x + y * 2 ^ 20 + a * 2 ^ 40 + p * 2 ^ 60 + n * 2 ^ 80)

/-- Queues a tile; it starts in the next cycle, or after the tile before it (R246, R247). -/
def State.tileQueue (s : State) (c i : Nat) (d : BitVec 256) : State :=
  let w := d.toNat
  let t : Tile := ⟨fld w 0 20, fld w 20 20, fld w 40 20, fld w 60 20, fld w 80 13, 0, s.now + 1, (s.slot c i).imv, none⟩
  s.modScan c fun e => { e with tiles := e.tiles ++ [t] }

/-- SCNTILE (R246). -/
def semScntile (a : BitVec 6) (s : State) : Res :=
  s.scOwned (
    let aff := s.my.scan.op = 7
    s.tileDesc a (fun w => if aff then [tdX w, tdY w, tdA w, tdP w] else [tdX w, tdY w]) fun w s =>
      let go := fun (x y aa p : Nat) =>
        let d := tileData x y aa p (tdRows w)
        if s.my.scan.tiles.length ≥ 2 then Res.hold none (s.await .parked (.unit (.scntile a) d))
        else .ok (s.tileQueue s.cur.1 s.cur.2 d)
      s.tileSpan w (tdX w) .load fun x => s.tileSpan w (tdY w) .store fun y =>
        if aff then s.tileSpan w (tdA w) .load fun aa => s.tileSpan w (tdP w) .store fun p => go x y aa p
        else go x y 0 0)

/-- The 32 words of a row, and the lanes whose word has a double-bit error. -/
def Core.rowRead (x : Core) (a : Nat) : VReg × W32 :=
  (BitVec.ofNat 1024 (x.rd a 128),
    if x.err2.isEmpty then 0 else BitVec.ofNat 32 (packN 1 (fun j => (x.bad (a + 4 * j) 4).toNat) 32))

/-- Writes a row as an engine, but for the lanes of `bad` (R247, R332). -/
def Core.rowWrite (x : Core) (a : Nat) (v : VReg) (bad : W32) : Core :=
  if bad = 0 then x.engWr a 128 v.toNat
  else (List.range 32).foldl (fun x j => if bad.getLsbD j then x else x.engWr (a + 4 * j) 4 (VReg.elem v 32 j)) x

/-- The reports of words that the engine read with a double-bit error, and the stop of its owner (R258, R332). -/
def State.scanErrors (s : State) (c a : Nat) (bad : W32) : State :=
  if bad = 0 then s
  else
    let o := (s.core c).scan.owner
    let tid := s.tid c (o.getD 0)
    let lanes := (List.range 32).filter fun j => bad.getLsbD j
    let s := lanes.foldl (fun s j => s.eccRecord c 7 0 tid (a + 4 * j)) s
    match o with
    | none => s
    | some i =>
      let off : Int := (a + 4 * lanes.headD 0 : Nat) - (sgBase ((s.slot c i).rsg 0) : Int)
      s.requestStop c i ⟨cECCFATAL, offDetail off, false, false, false⟩

/-- Whether a row is delayed in this cycle (R247): a slot access takes a bank that one of its rows `rows` of a tile needs. -/
def State.rowDelayed (s : State) (c : Nat) (rows : List Nat) : Bool :=
  (s.core c).bankBusy s.now (rows.flatMap fun a => wordsOf a 128)

/-- The words of `v`, with free ones in the lanes of `bad`. -/
def freeLanes (nonce : Nat) (bad : W32) (v : VReg) : VReg :=
  VReg.ofElems 32 fun j => if bad.getLsbD j then Config.free (nonce + j) % 2 ^ 32 else VReg.elem v 32 j

/-- The flags of the lanes outside `bad` reach the engine's owner (R241). -/
def State.scanRaise (s : State) (c : Nat) (bad : W32) (fs : List Flg) : State :=
  match (s.core c).scan.owner with
  | some i => s.raise c i ((fs.mapIdx fun j f => if bad.getLsbD j then {} else f))
  | none => s

/-- The composition and the writes of a tile's row (R246): `x` and `a` its words. A lane that met a double-bit error
writes nothing, and its running value is free. -/
def State.tileRow (s : State) (c : Nat) (t : Tile) (x a : VReg) (bad : W32) : State :=
  let e := (s.core c).scan
  let r := compose e.op e.run ⟨false, if e.op = 7 then a else 0, x⟩
  let run : LaneVal := if bad = 0 then r.1 else
    ⟨false, freeLanes s.nonce bad r.1.a, freeLanes (s.nonce + 32) bad r.1.b⟩
  let s : State := if bad = 0 then s else { s with nonce := s.nonce + 64 }
  let s := s.modCore c fun y =>
    let y : Core := { y with scan := { y.scan with run := run } }
    let y := y.rowWrite (t.y + 128 * t.row) run.b bad
    if e.op = 7 then y.rowWrite (t.p + 128 * t.row) run.a bad else y
  s.scanRaise c bad r.2

/-- A queued tile has completed: the next one, or what waits for the last, goes on in the next cycle (R247, R254). -/
def State.tileOver (s : State) (c : Nat) : State :=
  let n := s.now + 1
  let e := (s.core c).scan
  match e.tiles with
  | [] => s
  | [_] =>
    let parked := fun (f : FlueOp) => (s.slot c f.slot).held = .flue
    s.modScan c fun e =>
      { e with
        tiles := []
        fix := e.fix.map fun t => { t with ready := n }
        image := e.image.map fun m => (m.1, m.2.1, n)
        flue := match e.flue with
          | some f => if f.part.isNone && parked f then
              some { f with part := some n, val := if f.kind = .xchSemi || f.kind = .xchFull then e.run else f.val }
            else some f
          | none => none }
  | _ :: t :: l => s.modScan c fun e => { e with tiles := { t with ready := n } :: l }

/-- Advances a tile or fix past the row it has written. -/
def Tile.next (t : Tile) (now : Nat) : Tile := { t with row := t.row + 1, ready := now + 1, got := none }

/-- SCAN_TILE_ROW (R246, R247): a step of the running tile: its row, or for AFFINE the row's reads or its writes. -/
def evScanTileRow (core : Nat) (s : State) : State :=
  match (s.core core).scan.tiles with
  | [] => s
  | t :: l =>
    if s.now < t.ready then s
    else
      let aff := (s.core core).scan.op = 7
      let first := t.got.isNone
      let use := fun (b : Bool) (a : Nat) => if b then [a + 128 * t.row] else []
      let rows := use first t.x ++ use (first && aff) t.a ++ use (!first || !aff) t.y ++ use (!first) t.p
      let put := fun (t : Tile) (s : State) => s.modScan core fun e => { e with tiles := t :: l }
      if s.rowDelayed core rows then put { t with ready := s.now + 1 } s
      else
        let fin := fun (s : State) =>
          if t.row + 1 ≥ t.rows then s.tileOver core else put (t.next s.now) s
        match t.got with
        | some (x, a, bad) => fin (s.tileRow core t x a bad)
        | none =>
          let rx := (s.core core).rowRead (t.x + 128 * t.row)
          let s := s.touch core (t.x + 128 * t.row) 128
          let ra := if aff then (s.core core).rowRead (t.a + 128 * t.row) else (0, 0)
          let s := if aff then s.touch core (t.a + 128 * t.row) 128 else s
          let s := if aff then put { t with ready := s.now + 1, got := some (rx.1, ra.1, rx.2 ||| ra.2) } s
            else fin (s.tileRow core t rx.1 0 rx.2)
          (s.scanErrors core (t.x + 128 * t.row) rx.2).scanErrors core (t.a + 128 * t.row) ra.2

/-! ### Applying the carry -/

/-- SCNFIX (R248, R251). -/
def semScnfix (a : BitVec 6) (s : State) : Res :=
  s.scOwned (
    let aff := s.my.scan.op = 7
    s.tileDesc a (fun w => if aff then [tdY w, tdP w] else [tdY w]) fun w s =>
      let go := fun (y p : Nat) =>
        let t : Tile := ⟨0, y, 0, p, tdRows w, 0, s.now + 1, false, none⟩
        Res.hold none ((s.modScan s.cur.1 fun e => { e with fix := some t }).await .parked .scnfix)
      s.tileSpan w (tdY w) .load fun _ => s.tileSpan w (tdY w) .store fun y =>
        if aff then s.tileSpan w (tdP w) .load fun p => go y p else go y 0)

/-- A word of a row with the carry applied (R251). -/
def fixWord (op : Nat) (cin : LaneVal) (j y p : Nat) : Nat × Flg :=
  let F := Fmt.f32
  if cin.ident then (y, {})
  else if op = 7 then
    let P := F.val p
    let b := F.val (VReg.elem cin.b 32 j)
    let Y := F.val y
    F.result .rne [P, b, Y] ((P.mul b).add .rne Y)
  else (compose1 op 0 (VReg.elem cin.b 32 j) 0 y).2

/-- The writes of a row of SCNFIX (R251). -/
def State.fixRow (s : State) (c : Nat) (t : Tile) (y p : VReg) (bad : W32) : State :=
  let e := (s.core c).scan
  let r := (List.range 32).map fun j => fixWord e.op e.cin j (VReg.elem y 32 j) (VReg.elem p 32 j)
  let s := s.modCore c fun x =>
    x.rowWrite (t.y + 128 * t.row) (VReg.ofElems 32 fun j => (r.getD j (0, {})).1) bad
  s.scanRaise c bad (r.map fun w => w.2)

/-- Ends the wait of the engine's owner in SCNFIX or SCNFIX.st (R251). -/
def State.scanWake (s : State) (c : Nat) : State :=
  slotNums.foldl (fun s i => if (s.slot c i).held = .scnfix then s.wake c i else s) s

/-- SCNFIX_ROW (R251): a step of the SCNFIX in progress; its slot is READY after the last row. -/
def evScnfixRow (core : Nat) (s : State) : State :=
  let e := (s.core core).scan
  match e.fix with
  | none => s
  | some t =>
    if !e.tiles.isEmpty || s.now < t.ready then s
    else
      let aff := e.op = 7
      let rows := (t.y + 128 * t.row) :: if aff && t.got.isNone then [t.p + 128 * t.row] else []
      let put := fun (t : Option Tile) (s : State) => s.modScan core fun e => { e with fix := t }
      if s.rowDelayed core rows then put (some { t with ready := s.now + 1 }) s
      else
        let fin := fun (s : State) =>
          if t.row + 1 ≥ t.rows then (put none s).scanWake core else put (some (t.next s.now)) s
        match t.got with
        | some (y, p, bad) => fin (s.fixRow core t y p bad)
        | none =>
          let ry := (s.core core).rowRead (t.y + 128 * t.row)
          let s := s.touch core (t.y + 128 * t.row) 128
          let rp := if aff then (s.core core).rowRead (t.p + 128 * t.row) else (0, 0)
          let s := if aff then s.touch core (t.p + 128 * t.row) 128 else s
          let s := if aff then put (some { t with ready := s.now + 1, got := some (ry.1, rp.1, ry.2 ||| rp.2) }) s
            else fin (s.fixRow core t ry.1 0 ry.2)
          (s.scanErrors core (t.y + 128 * t.row) ry.2).scanErrors core (t.p + 128 * t.row) rp.2

/-- Header dword 0 of the engine's image (R251). -/
def Scan.header (e : Scan) : Nat :=
  e.op + e.opv.toNat * 16 + e.gv.toNat * 32 + e.chain.toNat * 64 + e.run.ident.toNat * 2 ^ 8 + e.cin.ident.toNat * 2 ^ 9
    + e.tot.ident.toNat * 2 ^ 10 + e.round * 2 ^ 16 + e.first * 2 ^ 32 + e.count * 2 ^ 48

/-- The strips of a lane register in the image: b, then a (R251). -/
def stripsOf (aff : Bool) (v : LaneVal) : List Nat :=
  if v.ident then [0, 0] else [v.b.toNat, if aff then v.a.toNat else 0]

/-- Strip `k` of the engine's image (R251). -/
def Scan.strip (e : Scan) (k : Nat) : Nat :=
  let aff := e.op = 7
  (stripsOf aff e.run ++ stripsOf aff e.cin ++ stripsOf aff e.tot).getD k 0

/-- SCNFIX.st (R248, R251). -/
def semScnfixSt (a : BitVec 6) (s : State) : Res :=
  s.scOwned (
    let off : Int := (s.rs a.toNat).toNat
    (s.seg0 off 832 64 .store).get off fun x =>
      .hold none ((s.modScan s.cur.1 fun e => { e with image := some (x, 0, s.now + 1) }).await .parked .scnfix))

/-- SCAN_IMAGE_STRIP_WRITE (R251): the header, or the next strip. -/
def evScanImageStripWrite (core : Nat) (s : State) : State :=
  let e := (s.core core).scan
  match e.image with
  | none => s
  | some (x, k, n) =>
    if !e.tiles.isEmpty || s.now < n then s
    else
      let ws := if k = 0 then wordsOf x 64 else wordsOf (x + 128 * k - 64) 128
      if (s.core core).bankBusy s.now ws then s.modScan core fun e => { e with image := some (x, k, s.now + 1) }
      else
        let s := s.modCore core fun y =>
          if k = 0 then y.engWr x 64 e.header else y.engWr (x + 128 * k - 64) 128 (e.strip (k - 1))
        if k ≥ 6 then (s.modScan core fun e => { e with image := none }).scanWake core
        else s.modScan core fun e => { e with image := some (x, k + 1, s.now + 1) }

/-! ### The Flue: places, segments and messages -/

/-- The die of a rank of a core's gang. -/
def State.rankDie (s : State) (c r : Nat) : Nat := s.die (s.rankCore c r)

/-- Whether a rank is the first of its segment (R249). -/
def State.segFirst (s : State) (c first r : Nat) : Bool := r = first || s.rankDie c r != s.rankDie c (r - 1)

/-- Whether a rank is the last of its segment, `last` being the group's last (R249). -/
def State.segLast (s : State) (c last r : Nat) : Bool := r = last || s.rankDie c r != s.rankDie c (r + 1)

/-- The number of a rank's segment (R249). -/
def State.segNo (s : State) (c first r : Nat) : Nat :=
  ((steps (first + 1) 1 (r - first)).filter fun k => s.segFirst c first k).length

/-- The ranks of a segment from rank `r` on (R249). -/
def State.segFrom (s : State) (c last r : Nat) : List Nat :=
  let n := (steps r 1 (last + 1 - r)).takeWhile fun k => s.rankDie c k = s.rankDie c r
  n

/-- Whether a round lies past the one an engine has reached (R255): `q` is its ROUND. -/
def ahead (q r : Nat) : Nat := (r + 65536 - q) % 65536

/-- Whether an engine has reached a message's round (R255). -/
def Scan.reached (e : Scan) (m : FlueMsg) : Bool :=
  e.gv && (ahead e.round m.round ≥ 32768 || (ahead e.round m.round = 0 && e.flue.isSome))

/-- The messages sent to a core that take its places (R255). -/
def State.flueHeld (s : State) (c : Nat) : Nat :=
  let e := (s.core c).scan
  let flying := s.agenda.filter fun v => match v.2 with
    | .flueMessageArrive d m => d = c && (m.part = .carryL || m.part = .carryC) && !e.reached m
    | _ => false
  (e.held.filter fun m => !e.reached m).length + flying.length

/-- Whether a message finds a place at its receiver (R255). -/
def State.flueRoom (s : State) (c : Nat) (m : FlueMsg) : Bool :=
  (s.core c).scan.reached m || s.flueHeld c < 4

/-- Sends a carry to a member, or keeps it at its sender until the receiver has a place (R254, R255). -/
def State.flueSend (s : State) (src dest : Nat) (m : FlueMsg) : State :=
  if s.flueRoom dest m then s.post src dest 16 (.flueMessageArrive dest m)
  else s.modScan src fun e => { e with sends := e.sends ++ [⟨dest, m⟩] }

/-- Sends the first of a list of waiting messages that finds a place, and lists the others; nothing if none does. -/
def State.flueFlush (s : State) (c : Nat) : List FlueSend → Option (State × List FlueSend)
  | [] => none
  | w :: l =>
    if s.flueRoom w.dest w.msg then some (s.post c w.dest 16 (.flueMessageArrive w.dest w.msg), l)
    else (s.flueFlush c l).map fun r => (r.1, w :: r.2)

/-- FLUE_DEFERRED_SEND (R255): a message leaves its sender once its receiver has a place. -/
def evFlueDeferredSend (core : Nat) (s : State) : State :=
  match s.flueFlush core (s.core core).scan.sends with
  | some r => r.1.modScan core fun e => { e with sends := r.2 }
  | none => s

/-- The operator code that a message carries (R256). -/
def Scan.code (e : Scan) : Nat := if e.opv then e.op else 16

/-- compose for the values of a kind of operation (R249, R253). -/
def flueCompose (kind : FlueKind) (op : Nat) (P Q : LaneVal) : LaneVal × W64 :=
  let r := compose (if kind = .comb then 17 else op) P Q
  (r.1, flagBits r.2)

/-- Whether the kind is an exchange. -/
def isXch (k : FlueKind) : Bool := k = .xchSemi || k = .xchFull

/-- Whether a round lies before `upto`. -/
def FlueRounds.has (k : FlueRounds) (m : FlueMsg) : Bool :=
  k.gang = m.gang && k.first = m.first && k.count = m.count && (k.upto + 65535 - m.round) % 65536 < 32768

/-- Whether a message of the Flue takes a die's rerouted path: the link is not healed, or was not when a member first took
part in the message's round (R360, R362). -/
def State.flueSlow (s : State) (d : Nat) (m : FlueMsg) : Bool := s.rerouted d || (s.link d).slow.any fun k => k.has m

/-- The cycles from a segment of die `a` through the junction towards one of die `b` (R254). -/
def State.junctionWay (s : State) (a b : Nat) (m : FlueMsg) : Nat := if s.flueSlow a m || s.flueSlow b m then 144 else 80

/-- A junction sends the carry of the segment that begins at rank `r` onward (R249, R254). -/
def State.chainOut (s : State) (c r : Nat) (m : FlueMsg) : State :=
  s.post c (s.rankCore c r) (s.junctionWay (s.rankDie c (r - 1)) (s.rankDie c r) m) (.flueMessageArrive (s.rankCore c r) m)

/-- Whether two messages belong to one junction (R249). -/
def sameJunction (a b : FlueMsg) : Bool :=
  a.gang = b.gang && a.first = b.first && a.count = b.count && a.round = b.round && a.seg = b.seg

/-- A total T_j or a chain value C_j reaches its junction: with its partner it forms C_(j+1), and else it waits (R249).
`c` is a core of the gang and `r` the last rank of the segment. -/
def State.junction (s : State) (c r : Nat) (m : FlueMsg) : State :=
  match s.hub.junction.find? (fun n => sameJunction n m && n.part != m.part) with
  | none => { s with hub := { s.hub with junction := s.hub.junction.filter (fun n => !(sameJunction n m && n.part = m.part)) ++ [m] } }
  | some n =>
    let C := if m.part = .chainC then m else n
    let T := if m.part = .chainC then n else m
    let v := flueCompose T.kind T.op C.val T.val
    let s : State := { s with hub := { s.hub with junction := s.hub.junction.filter fun k => k != n } }
    s.chainOut c (r + 1) { T with part := .chainC, seg := m.seg + 1, val := v.1, flags := C.flags ||| T.flags ||| v.2 }

/-- A chain value at its junction goes to every rank of its segment, and on with the segment's total (R249, R254). -/
def State.chainArrive (s : State) (c : Nat) (m : FlueMsg) : State :=
  let last := m.first + m.count - 1
  let from_ := ((steps m.first 1 m.count).find? fun r => s.segFirst c m.first r && s.segNo c m.first r = m.seg).getD last
  let rs := s.segFrom c last from_
  let s := rs.foldl (fun s r => s.flueSend (s.rankCore c (from_ - 1)) (s.rankCore c r) { m with part := .carryC }) s
  let z := rs.getLastD from_
  if z = last then s else s.junction c z m

/-! ### The Flue: operations -/

/-- A message of the engine's round that has arrived for its operation. -/
def Scan.got (e : Scan) (f : FlueOp) (p : FluePart) : Option FlueMsg :=
  e.held.find? fun m => m.round = e.round && m.part = p && m.first = e.first && m.count = e.count && m.kind = f.kind
    && m.op = e.code

/-- Whether a message does not fit the operation of its round (R256). -/
def Scan.misfit (e : Scan) (kind : FlueKind) (m : FlueMsg) : Bool :=
  m.round = e.round && (m.first != e.first || m.count != e.count || m.kind != kind || m.op != e.code)

/-- FLUE_MESSAGE_ARRIVE (R249, R255, R256): at a junction, or at a member, where it is held; a misfit stops the owner that
waits in the operation of its round. A message of a round that is over is dropped. -/
def evFlueMessageArrive (core : Nat) (msg : FlueMsg) (s : State) : State :=
  if (s.core core).gang != some msg.gang then s
  else
    match msg.part with
    | .chainC | .partT => s.chainArrive core msg
    | _ =>
      s.arrive core (.flueMessageArrive core msg) fun s =>
        let e := (s.core core).scan
        let same := e.gv && msg.first = e.first && msg.count = e.count
        let twice := e.held.any fun m =>
          m.round = msg.round && m.part = msg.part && m.src = msg.src && m.first = msg.first && m.count = msg.count
        if (same && ahead e.round msg.round ≥ 32768) || twice then s
        else
          let s := s.modScan core fun e => { e with held := e.held ++ [msg] }
          match e.flue with
          | some f =>
            if e.gv && e.misfit f.kind msg && (s.slot core f.slot).held = .flue then
              s.requestStop core f.slot ⟨cHANDLE, s.hFree 8, false, false, false⟩
            else s
          | none => s

/-- What an operation takes from the ranks below it in its segment: nothing at the first rank, else L of the rank before
once it has arrived (R249). -/
def State.fluePrev (s : State) (c : Nat) (e : Scan) (f : FlueOp) : Option (LaneVal × W64) :=
  if s.segFirst c e.first (s.core c).rank then some (LaneVal.identity, 0)
  else (e.got f .carryL).map fun m => (m.val, m.flags)

/-- C_j at a member: its own TOT or the identity in segment 0, else once it has arrived (R249). -/
def State.flueChain (s : State) (c : Nat) (e : Scan) (f : FlueOp) : Option (LaneVal × W64) :=
  if s.segNo c e.first (s.core c).rank = 0 then
    some (if isXch f.kind && e.chain then e.tot else LaneVal.identity, 0)
  else (e.got f .carryC).map fun m => (m.val, m.flags)

/-- The latency of a full operation's completion at a member (R254). -/
def State.flueEndWay (s : State) (last d : Nat) (m : FlueMsg) : Nat :=
  if s.die d = s.die last then 24 else if s.flueSlow (s.die last) m || s.flueSlow (s.die d) m then 160 else 96

/-- A member passes its value on (R249): L to the next rank of its segment, or its segment's total towards the next. -/
def State.fluePass (s : State) (c : Nat) (f : FlueOp) (l : LaneVal × W64) : State :=
  let x := s.core c
  let e := x.scan
  let last := e.first + e.count - 1
  let v := flueCompose f.kind e.code l.1 f.val
  let m : FlueMsg := ⟨x.gang.getD 0, e.first, e.count, e.round, f.kind, e.code, .carryL, 0, x.rank, v.1, l.2 ||| v.2⟩
  let s := s.modScan c fun e => { e with flue := some { f with sent := true } }
  if x.rank = last then s
  else if !s.segLast c last x.rank then s.flueSend c (s.rankCore c (x.rank + 1)) m
  else
    let j := s.segNo c e.first x.rank
    if j = 0 then
      let C := ((s.flueChain c e f).getD (LaneVal.identity, 0)).1
      let w := flueCompose f.kind e.code C v.1
      s.chainOut c (x.rank + 1) { m with part := .chainC, seg := 1, val := w.1, flags := m.flags ||| w.2 }
    else s.junction c x.rank { m with part := .partT, seg := j }

/-- The group's last rank tells every member the total (R249, R254). -/
def State.flueTell (s : State) (c : Nat) (f : FlueOp) (l C : LaneVal × W64) : State :=
  let x := s.core c
  let e := x.scan
  let L := flueCompose f.kind e.code l.1 f.val
  let T := flueCompose f.kind e.code C.1 L.1
  let m : FlueMsg := ⟨x.gang.getD 0, e.first, e.count, e.round, f.kind, e.code, .total, 0, x.rank, T.1,
    l.2 ||| L.2 ||| C.2 ||| T.2⟩
  let s := s.modScan c fun e => { e with flue := some { f with told := true } }
  (steps e.first 1 e.count).foldl (fun s r =>
    let d := s.rankCore c r
    s.post c d (s.flueEndWay c d m) (.flueMessageArrive d m)) s

/-- An operation completes at its member (R250 to R253). -/
def State.flueDone (s : State) (c : Nat) (f : FlueOp) (l C : LaneVal × W64) (total : Option FlueMsg) : State :=
  let x := s.core c
  let e := x.scan
  let w := flueCompose f.kind e.code C.1 l.1
  let s := s.dropRounds fun k =>
    let past := (e.round + 65536 - k.upto) % 65536
    some k.gang = x.gang && k.first = e.first && k.count = e.count && 16384 ≤ past && past < 32768
  let bits := (C.2 ||| l.2 ||| w.2) ||| (total.map fun (m : FlueMsg) => m.flags).getD 0
  let s := s.modScan c fun e =>
    let e : Scan := { e with round := (e.round + 1) % 65536, flue := none, held := e.held.filter fun m => m.round != e.round }
    if !isXch f.kind then e
    else
      { e with cin := w.1, run := LaneVal.identity
               tot := if f.kind = .xchFull then (total.map fun (m : FlueMsg) => m.val).getD e.tot else e.tot }
  let s := match f.kind with
    | .bar => (s.modSlot c f.slot fun t => t.ws f.d (BitVec.ofNat 64 e.round)).modCore c fun y =>
        { y with istBar := y.istBar || y.istNext.isSome }
    | .comb => s.modCore c fun y => y.engWr f.addr 64 (((total.map fun (m : FlueMsg) => m.val.b).getD 0).toNat % 2 ^ 512)
    | _ => (s.modSlot c f.slot fun t => t.ws f.d (BitVec.ofNat 64 (x.rank - e.first))).stick c f.slot bits
  s.wake c f.slot

/-- The next thing an engine's operation does in this cycle, if any (R249, R250, R254): it passes its value on, tells the
totals, or completes. It completes only while its slot is parked in it, and once its message has left (R255, R257). -/
def State.flueStep (s : State) (c : Nat) : Option State :=
  let e := (s.core c).scan
  match e.flue with
  | none => none
  | some f =>
    if !(f.part.any (· ≤ s.now)) then none
    else
      match s.fluePrev c e f with
      | none => none
      | some l =>
        if !f.sent then some (s.fluePass c f l)
        else
          match s.flueChain c e f with
          | none => none
          | some C =>
            let semi := f.kind = .xchSemi
            let total := e.got f .total
            if !semi && (s.core c).rank + 1 = e.first + e.count && !f.told then some (s.flueTell c f l C)
            else if (semi || total.isSome) && (s.slot c f.slot).held = .flue
                && !(e.sends.any fun w => w.msg.part = .carryL && w.msg.round = e.round) then
              some (s.flueDone c f l C total)
            else none

/-- FLUE_OPERATION_COMPLETE (R249 to R254). -/
def evFlueOperationComplete (core : Nat) (s : State) : State := (s.flueStep core).getD s

/-- An SCNXCH, FBAR or FCOMB at issue (R248, R256, R257, R333); a replay goes on with the round that its engine kept. -/
def State.flueIssue (s : State) (kind : FlueKind) (d addr : Nat) (val : LaneVal) : Res :=
  let e := s.my.scan
  if e.held.any (e.misfit kind) || (match e.flue with
      | some f => f.kind != kind
      | none => false) then scHandle s 8
  else if s.me.imv then .trap cIDEMADD s.me.markDetail
  else
    let op : FlueOp := match e.flue with
      | some f => { f with slot := s.cur.2, d := d, addr := addr }
      | none => ⟨kind, s.cur.2, d, if e.tiles.isEmpty then some s.now else none, if isXch kind then e.run else val, addr,
          false, false⟩
    .hold none ((s.modScan s.cur.1 fun e => { e with flue := some op }).await .parked .flue)

/-- SCNXCH (R250). -/
def semScnxch (d : BitVec 6) (f : BitVec 1) (s : State) : Res :=
  s.scOwned (
    if !s.my.scan.opv then scHandle s 3
    else s.flueIssue (if f = 1 then .xchFull else .xchSemi) d.toNat 0 LaneVal.identity)

/-- FBAR (R252). -/
def semFbar (d : BitVec 6) (s : State) : Res :=
  s.scOwned (if !s.my.scan.gv then scHandle s 3 else s.flueIssue .bar d.toNat 0 LaneVal.identity)

/-- FCOMB (R55, R253); a replay completes with the counts of its first issue, and clears none a second time (R257). -/
def semFcomb (a : BitVec 6) (c : BitVec 1) (s : State) : Res :=
  s.scOwned (
    if !s.my.scan.gv then scHandle s 3
    else
      let off : Int := (s.rs a.toNat).toNat
      (s.seg0 off 64 64 .store).get off fun x =>
        let v : LaneVal := ⟨false, 0, VReg.ofElems 32 fun j => if j < 16 then (vget s.my.ev j 0).toNat else 0⟩
        let s := if c = 1 && s.my.scan.flue.isNone then s.modMy fun y => { y with ev := Vector.replicate 16 0 } else s
        s.flueIssue .comb 0 x v)

/-! ### Meanings -/

/-- SCNGRP (R243). -/
def execScngrp (c : BitVec 1) (a b : BitVec 6) (s : State) : Host.Outcome State Fault Refusal :=
  s.aloneS fun s => semScngrp c a b s
/-- SCNGRP_REL (R243). -/
def execScngrpRel (s : State) : Host.Outcome State Fault Refusal := s.aloneS fun s => semScngrpRel s
/-- SCNOP (R244). -/
def execScnop (a : BitVec 6) (s : State) : Host.Outcome State Fault Refusal := s.aloneS fun s => semScnop a s
/-- SCNTILE (R246). -/
def execScntile (a : BitVec 6) (s : State) : Host.Outcome State Fault Refusal := s.aloneS fun s => semScntile a s
/-- SCNXCH (R250). -/
def execScnxch (d : BitVec 6) (f : BitVec 1) (s : State) : Host.Outcome State Fault Refusal :=
  s.aloneS fun s => semScnxch d f s
/-- SCNFIX (R251). -/
def execScnfix (a : BitVec 6) (s : State) : Host.Outcome State Fault Refusal := s.aloneS fun s => semScnfix a s
/-- SCNFIX_ST (R251). -/
def execScnfixSt (a : BitVec 6) (s : State) : Host.Outcome State Fault Refusal := s.aloneS fun s => semScnfixSt a s
/-- FBAR (R252). -/
def execFbar (d : BitVec 6) (s : State) : Host.Outcome State Fault Refusal := s.aloneS fun s => semFbar d s
/-- FCOMB (R253). -/
def execFcomb (a : BitVec 6) (c : BitVec 1) (s : State) : Host.Outcome State Fault Refusal :=
  s.aloneS fun s => semFcomb a c s
/-- SCAN_TILE_ROW (R247). -/
def execScanTileRow (core : Nat) (s : State) : Host.Outcome State Fault Refusal := .next (evScanTileRow core s)
/-- SCNFIX_ROW (R251). -/
def execScnfixRow (core : Nat) (s : State) : Host.Outcome State Fault Refusal := .next (evScnfixRow core s)
/-- FLUE_MESSAGE_ARRIVE (R256). -/
def execFlueMessageArrive (core : Nat) (msg : FlueMsg) (s : State) : Host.Outcome State Fault Refusal :=
  .next (evFlueMessageArrive core msg s)
/-- FLUE_DEFERRED_SEND (R255). -/
def execFlueDeferredSend (core : Nat) (s : State) : Host.Outcome State Fault Refusal :=
  .next (evFlueDeferredSend core s)
/-- FLUE_OPERATION_COMPLETE (R254). -/
def execFlueOperationComplete (core : Nat) (s : State) : Host.Outcome State Fault Refusal :=
  .next (evFlueOperationComplete core s)
/-- SCAN_IMAGE_STRIP_WRITE (R251). -/
def execScanImageStripWrite (core : Nat) (s : State) : Host.Outcome State Fault Refusal :=
  .next (evScanImageStripWrite core s)

end Sys2Proof.Machine
end

