-- ==== Sys2Proof/Machine/Matrix.lean ====
section
/-! DEFINITION. The matrix unit: rings (R136 to R141), geometry (R142 to R144), the tile step (R145 to R152), and
zeroing, loading and draining accumulators (R153 to R156). -/

namespace Sys2Proof.Machine

/-! ### Accumulators, rings and what they name in a trap -/

/-- The HANDLE detail of this unit (R398): kind 0 accumulator, 1 ring, 2 repetition buffer. -/
def mDetail (kind reason idx : Nat) : W32 := BitVec.ofNat 32 (kind * 65536 + reason * 256 + idx)

/-- An accumulator (R134). -/
def Core.accOf (x : Core) (a : Nat) : Acc := vget x.acc a ⟨Vector.replicate 32 0, false, none⟩
/-- A ring (R137). -/
def Core.ringOf (x : Core) (q : Nat) : Ring := vget x.ring q ⟨none, 0, 0, 0, 0, 0, 0, 0, 0, 0⟩
/-- Sets an accumulator. -/
def Core.setAcc (x : Core) (a : Nat) (y : Acc) : Core := { x with acc := vset x.acc a y }
/-- Sets a ring. -/
def Core.setRing (x : Core) (q : Nat) (y : Ring) : Core := { x with ring := vset x.ring q y }

/-- A push (R137). -/
def Ring.push (r : Ring) : Ring := { r with tail := (r.tail + 1) % (r.nsm1 + 1), count := r.count + 1 }
/-- A pop (R137); with COUNT = 0 it does nothing. -/
def Ring.pop (r : Ring) : Ring :=
  if r.count = 0 then r
  else { r with head := (r.head + 1) % (r.nsm1 + 1), count := r.count - 1, kb := (r.kb + 1) % 65536 }

/-- Whether an unretired step that satisfies `p` is handed (R139, R153). -/
def Core.handed (x : Core) (p : MStep → Bool) : Bool :=
  let hit := fun (o : MxOp) => match o with
    | .step t => p t
    | _ => false
  (match x.mx.run with
    | some (o, _) => hit o
    | none => false) || x.mx.queue.any hit

/-- Whether the repetition sequence of a slot runs. -/
def Core.sequencing (x : Core) (i : Nat) : Bool := x.seqr.owner = some i && x.seqr.run

/-- The rings that a step pops at its retirement (R146, R148). -/
def MStep.pops (t : MStep) : List Nat :=
  if t.qa = t.qb then (if t.ha || t.hb then [] else [t.qa])
  else (if t.ha then [] else [t.qa]) ++ (if t.hb then [] else [t.qb])

/-- The retirement pop of ring `q` that falls in this cycle acts before a push of the same cycle (R137): it is made
now, and the retiring step makes it no more. -/
def Core.popFirst (x : Core) (now q : Nat) : Core :=
  match x.mx.run with
  | some (.step t, e) =>
    if e = now && x.mx.upsets = 0 && t.pops.contains q then
      let t' := if t.qa = t.qb then { t with ha := true, hb := true }
        else if t.qa = q then { t with ha := true } else { t with hb := true }
      { x.setRing q (x.ringOf q).pop with mx := { x.mx with run := some (.step t', e) } }
    else x
  | _ => x

/-! ### Ring instructions -/

/-- The fields of a ring descriptor, dword 1 high (R136). -/
def rdStride (d : BitVec 256) : Nat := fld d.toNat 44 20
def rdBase (d : BitVec 256) : Nat := fld d.toNat 20 20
def rdNsm1 (d : BitVec 256) : Nat := fld d.toNat 0 4
def rdKb (d : BitVec 256) : Nat := fld d.toNat 112 16
def rdRow0 (d : BitVec 256) : Nat := fld d.toNat 64 12
/-- The local base that the span check gave, carried above the descriptor. -/
def rdLocal (d : BitVec 256) : Nat := fld d.toNat 128 20

/-- Whether the waits of RINGCFG are over (R139). -/
def Core.ringIdle (x : Core) (q i : Nat) : Bool := !x.handed (fun t => t.qa = q || t.qb = q) && !x.sequencing i

/-- RINGCFG takes effect (R139). -/
def Core.ringSetup (x : Core) (q i : Nat) (d : BitVec 256) : Core :=
  x.setRing q ⟨some i, rdLocal d, rdBase d, rdStride d, rdNsm1 d, rdKb d, rdRow0 d, 0, 0, 0⟩

/-- RINGCFG.rel takes effect (R139). -/
def Core.ringFree (x : Core) (q : Nat) : Core := x.setRing q { x.ringOf q with owner := none }

/-- RINGCFG (R139). -/
def semRingcfg (d : BitVec 3) (a : BitVec 6) (s : State) : Res :=
  let q := d.toNat
  let i := s.cur.2
  let o := (s.my.ringOf q).owner
  if o != none && o != some i then .trap cHANDLE (mDetail 1 1 q)
  else
    let off : Int := (s.rs a.toNat).toNat
    (s.seg0 off 16 8 .load).get off fun x =>
      if s.my.bad x 16 then .trap cECCFATAL (offDetail off)
      else
        let w := s.my.rd x 16
        let dd : BitVec 256 := BitVec.ofNat 256 w
        if rdBase dd % 128 != 0 then .trap cALIGN (BitVec.ofNat 32 (rdBase dd))
        else if rdStride dd % 128 != 0 then .trap cALIGN (BitVec.ofNat 32 (rdStride dd))
        else
          (s.seg0 (rdBase dd) (rdNsm1 dd * rdStride dd + 2048) 128 .load).get (rdBase dd) fun y =>
            let data : BitVec 256 := BitVec.ofNat 256 (w + y * 2 ^ 128)
            let s := s.touch s.cur.1 x 16
            if o = some i && !s.my.ringIdle q i then
              .hold none (s.await .parked (.unit (.ringcfg d a) data))
            else .ok (s.modMy fun x => x.ringSetup q i data)

/-- RINGCFG.rel (R139). -/
def semRingcfgRel (d : BitVec 3) (s : State) : Res :=
  let q := d.toNat
  if (s.my.ringOf q).owner != some s.cur.2 then .trap cHANDLE (mDetail 1 1 q)
  else if s.my.ringIdle q s.cur.2 then .ok (s.modMy fun x => x.ringFree q)
  else .hold none (s.await .parked (.unit (.ringcfgRel d) 0))

/-- RINGADV (R137, R140, R333). -/
def semRingadv (d : BitVec 3) (s : State) : Res :=
  let q := d.toNat
  if (s.my.ringOf q).owner != some s.cur.2 then .trap cHANDLE (mDetail 1 1 q)
  else if s.me.imv then .trap cIDEMADD s.me.markDetail
  else
    let x := s.my.popFirst s.now q
    let r := x.ringOf q
    if r.count ≤ r.nsm1 then .ok (s.setCore s.cur.1 (x.setRing q r.push))
    else .hold none (s.await .parked (.ring (.ringadv d)))

/-- RINGADV.pop (R137, R140, R333). -/
def semRingadvPop (d : BitVec 3) (s : State) : Res :=
  let q := d.toNat
  let r := s.my.ringOf q
  if r.owner != some s.cur.2 then .trap cHANDLE (mDetail 1 1 q)
  else if s.me.imv then .trap cIDEMADD s.me.markDetail
  else if r.count ≥ 1 then .ok (s.modMy fun x => x.setRing q r.pop)
  else .hold none (s.await .parked (.ring (.ringadvPop d)))

/-- Whether a parked RINGADV may act (R137, R140). -/
def Core.ringReady (x : Core) (h : Held) : Bool :=
  match h with
  | .ring (.ringadv d) => (x.ringOf d.toNat).count ≤ (x.ringOf d.toNat).nsm1
  | .ring (.ringadvPop d) => (x.ringOf d.toNat).count ≥ 1
  | _ => false

/-- RING_WAIT_END (R137, R140): the parked push or pop acts, and its slot is READY in the next cycle. -/
def evRingWaitEnd (core slot : Nat) (s : State) : State :=
  let h := (s.slot core slot).held
  if (s.core core).ringReady h then
    match h with
    | .ring (.ringadv d) =>
      (s.modCore core fun x => x.setRing d.toNat (x.ringOf d.toNat).push).wake core slot
    | .ring (.ringadvPop d) =>
      (s.modCore core fun x => x.setRing d.toNat (x.ringOf d.toNat).pop).wake core slot
    | _ => s
  else s

/-- RINGSTAT (R141); supervisor level waives the ownership check (R323). -/
def semRingstat (d : BitVec 6) (a : BitVec 3) (which : BitVec 6) (s : State) : Res :=
  let q := a.toNat
  let r := s.my.ringOf q
  if r.owner != some s.cur.2 && !s.me.level then .trap cHANDLE (mDetail 1 1 q)
  else
    .ok (s.ws d.toNat (match which.toNat with
      | 0 => BitVec.ofNat 64 (r.kb * 2 ^ 48 + r.row0 * 2 ^ 36 + r.nsm1 * 2 ^ 20 + r.count * 256 + r.head * 16 + r.tail)
      | 1 => BitVec.ofNat 64 (r.base + r.tail * r.stride)
      | _ => BitVec.ofNat 64 (r.base + r.head * r.stride)))

/-! ### Geometry -/

/-- The valid extent of the current tile (R143). -/
def extent (g : W64) : Nat × Nat :=
  let one := fun (t n e : Nat) => if t ≥ n then 0 else if t = n - 1 then e + 1 else 32
  let rv := one (fld g.toNat 12 12) (fld g.toNat 36 12) (fld g.toNat 53 5)
  let cv := one (fld g.toNat 0 12) (fld g.toNat 24 12) (fld g.toNat 48 5)
  if rv = 0 || cv = 0 then (0, 0) else (rv, cv)

/-- GEOMSET (R144). -/
def semGeomset (a : BitVec 6) (s : State) : Res :=
  .ok (s.modMe fun t => { t with geom := s.rs a.toNat &&& 0x03FFFFFFFFFFFFFF#64 })

/-- GEOMMASK (R144): the row mask, or the column mask when `c` is 1. -/
def semGeommask (d : BitVec 3) (c : BitVec 1) (s : State) : Res :=
  let e := extent s.me.geom
  .ok (s.wm d.toNat (BitVec.ofNat 32 (2 ^ (if c = 1 then e.2 else e.1) - 1)))

/-! ### MMA at issue -/

/-- The step time of the combinations that the unit implements (R147). -/
def stepTime (fa fb : Nat) (int32 : Bool) : Option Nat :=
  match fa, fb, int32 with
  | 3, 3, false => some 8
  | 2, 2, false | 3, 2, false | 2, 3, false => some 16
  | 4, 4, true => some 16
  | 0, 0, false | 1, 1, false => some 32
  | _, _, _ => none

/-- ACC of FXC (R43). -/
def fxAcc (x : W32) : Nat := fld x.toNat 0 4

/-- Whether a format register's FMT is a block format (R42). -/
def fxBx (x : W32) : Bool := fxFmt x = 2 || fxFmt x = 3

/-- Reserved codes in the format context of an MMA (R45). -/
def Slot.mmaIllegal (t : Slot) : Bool :=
  fxFmt t.fxa > 4 || fxFmt t.fxb > 4 || fxAcc t.fxc > 1 || (fxBx t.fxa && fxGrp t.fxa = 3)
    || (fxBx t.fxb && fxGrp t.fxb = 3)

/-- The first fault of an MMA of slot `i` at issue (R45, R135, R146, R147, R398). -/
def Core.mmaTrap (x : Core) (i : Nat) (acc qa qb : Nat) (sat : Bool) : Option (Nat × W32) :=
  let t := x.slot i
  if (x.accOf acc).owner != some i then some (cHANDLE, mDetail 0 1 acc)
  else if (x.ringOf qa).owner != some i then some (cHANDLE, mDetail 1 1 qa)
  else if (x.ringOf qb).owner != some i then some (cHANDLE, mDetail 1 1 qb)
  else if t.mmaIllegal then some (cILLEGAL, 0)
  else if stepTime (fxFmt t.fxa) (fxFmt t.fxb) (fxAcc t.fxc = 1) = none || (sat && fxAcc t.fxc = 0)
      || (x.accOf acc).int32 != decide (fxAcc t.fxc = 1) then some (cILLCOMBO, 0)
  else
    match (if fxBx t.fxa then spTrap (fxGrp t.fxa) t.spa false else none) with
    | some e => some e
    | none => if fxBx t.fxb then spTrap (fxGrp t.fxb) t.spb true else none

/-- The step that an MMA of slot `i` hands to the unit (R148, R149). Beside GEOM, the slot's format context and SPA and SPB are
those of the cycle in which it is handed: DESIGN CHOICE (log entry 118). -/
def Core.mmaStep (x : Core) (seqr : Bool) (i : Nat) (geom : W64) (acc qa qb : Nat) (sat clr ha hb : Bool) (n k : Nat) :
    MStep :=
  let t := x.slot i
  ⟨seqr, i, acc, qa, qb, clr, sat, ha, hb, t.fxa, t.fxb, t.fxc, t.spa, t.spb, geom, n, k, 0, 0, [], [], [], [], 0, x.mx.handed⟩

/-- Hands an operation to the unit (R156). -/
def Core.handOp (x : Core) (o : MxOp) : Core :=
  { x with mx := { x.mx with queue := x.mx.queue ++ [o], handed := x.mx.handed + 1 } }

/-- MMA issued by a slot (R145 to R149, R333): its slot is PARKED until the step retires. -/
def semMma (acc qa qb : BitVec 3) (sat clr ha hb : BitVec 1) (pre cur : State) : Res :=
  let i := pre.cur.2
  match pre.my.mmaTrap i acc.toNat qa.toNat qb.toNat (sat = 1) with
  | some (c, d) => .trap c d
  | none =>
    if pre.me.imv then .trap cIDEMADD pre.me.markDetail
    else
      let t := pre.my.mmaStep false i pre.me.geom acc.toNat qa.toNat qb.toNat (sat = 1) (clr = 1) (ha = 1) (hb = 1) 0 0
      .hold none ((cur.modMy fun x => x.handOp (.step t)).await .parked .mma)

/-! ### Starting an operation -/

/-- Whether the rings of a step each hold a tile (R149). -/
def Core.stepReady (x : Core) (t : MStep) : Bool := (x.ringOf t.qa).count ≥ 1 && (x.ringOf t.qb).count ≥ 1

/-- The accumulator of an operation. -/
def MxOp.accum : MxOp → Nat
  | .step t => t.acc
  | .clear a => a
  | .move m => m.acc

/-- Whether an operation is a step of the sequencer; of a slot. -/
def MxOp.isSeq : MxOp → Bool
  | .step t => t.seqr
  | _ => false
def MxOp.isDirect : MxOp → Bool
  | .step t => !t.seqr
  | _ => false

/-- Whether operation `o` may start, the operations `before` having been handed earlier and not started: none of them
on its accumulator (R156); a step needs its rings, and no earlier step of its own kind or of the sequencer waits
(R149). -/
def Core.mayStart (x : Core) (before : List MxOp) (o : MxOp) : Bool :=
  !(before.any fun b => b.accum = o.accum) && (match o with
    | .step t => x.stepReady t && !before.any MxOp.isSeq && (t.seqr || !before.any MxOp.isDirect)
    | _ => true)

/-- The operations that may start, in handed order, each with the others of the queue. -/
def Core.candidates (x : Core) (before : List MxOp) : List MxOp → List (MxOp × List MxOp)
  | [] => []
  | o :: l =>
    (if x.mayStart before o then [(o, before ++ l)] else []) ++ x.candidates (before ++ [o]) l

/-- The operation that the free unit starts next: a sequencer's step before a direct one (R149, R161). R156 leaves open which
comes first of a step and a clear, load or drain of another accumulator; here the earliest handed: DESIGN CHOICE (log entry 137). -/
def Core.nextOp (x : Core) : Option (MxOp × List MxOp) :=
  match x.candidates [] x.mx.queue with
  | [] => none
  | c :: l =>
    if c.1.isDirect then (match l.find? fun e => e.1.isSeq with
      | some e => some e
      | none => some c)
    else some c

/-- Whether the unit can start an operation in cycle `now` (R149). -/
def Core.canStart (x : Core) (now : Nat) : Bool := x.mx.run.isNone && x.mx.free ≤ now && x.nextOp.isSome

/-- What a scale-word read comes to: its value, or cause, detail and, of a double-bit error, the word's address. -/
abbrev Scaled := Except (Nat × Int × Option Nat) Nat

/-- A read of a scale word or a bitmap word by the unit, through the owner's sg0 (R44, R152). -/
def Core.scaleRead (x : Core) (i : Nat) (off : Int) (size : Nat) : Scaled :=
  match segLocal ((x.slot i).rsg 0) off size size .load with
  | .at a => if x.bad a size then .error (cECCFATAL, off, some (a / 4 * 4)) else .ok (x.rd a size)
  | .remote _ _ => .error (cSPACE, off, none)
  | .bad c => .error (c, off, none)

/-- g(b) of R46: the 1 bits among bitmap bits 1 to b, over the words from `w` on. -/
def Core.groupOf (x : Core) (i bmap b w : Nat) : Nat → Scaled
  | 0 => .ok 0
  | n + 1 =>
    match x.scaleRead i ((bmap + 4 * w : Nat) : Int) 4 with
    | .error e => .error e
    | .ok v =>
      let top := min 31 (b - 32 * w)
      let v := if w = 0 then v / 2 * 2 else v
      match x.groupOf i bmap b (w + 1) n with
      | .error e => .error e
      | .ok g => .ok (popcount (v % 2 ^ (top + 1)) 32 + g)

/-- The scale words of `n` rows from row `r`, with column offset `col` (R46). -/
def Core.scaleRows (x : Core) (i : Nat) (sp : W64) (col r : Nat) : Nat → Except (Nat × Int × Option Nat) (List Nat)
  | 0 => .ok []
  | n + 1 =>
    match x.scaleRead i ((spBase sp + r * spStr sp + col : Nat) : Int) 2 with
    | .error e => .error e
    | .ok v =>
      match x.scaleRows i sp col (r + 1) n with
      | .error e => .error e
      | .ok l => .ok (v :: l)

/-- The scale words of an operand's lines at a step's start (R46, R138). -/
def Core.scales (x : Core) (i : Nat) (fx : W32) (sp : W64) (row0 b n : Nat) :
    Except (Nat × Int × Option Nat) (List Nat) :=
  if !fxBx fx || n = 0 then .ok []
  else
    let col : Scaled := match fxGrp fx with
      | 1 => .ok 0
      | 2 => match x.groupOf i (spBmap sp) b 0 (b / 32 + 1) with
        | .ok g => .ok (2 * g)
        | .error e => .error e
      | _ => .ok (2 * b)
    match col with
    | .error e => .error e
    | .ok c => x.scaleRows i sp c row0 n

/-- The bytes of a line (R138). -/
def lineBytes (fmt : Nat) : Nat := if fmt = 3 then 16 else if fmt = 2 || fmt = 4 then 32 else 64

/-- The words of `n` lines of a tile. -/
def Core.tileWords (x : Core) (a fmt n : Nat) : List W32 :=
  (steps a 4 (n * lineBytes fmt / 4)).map fun p => BitVec.ofNat 32 (x.rd p 4)

/-- The first word with a double-bit error among the lines a step uses (R150). -/
def Core.tileBad (x : Core) (a fmt n : Nat) : Option Nat :=
  if x.err2.isEmpty then none else (steps a 4 (n * lineBytes fmt / 4)).find? fun p => x.bad p 4

/-- What a step takes at its start: head tiles, their words and the scale words; or the fault that discards it, scale
words before tiles and A before B (R148, R150, R152). -/
def Core.takeTiles (x : Core) (t : MStep) : Except (Nat × Int × Option Nat) MStep :=
  let e := extent t.geom
  let ra := x.ringOf t.qa
  let rb := x.ringOf t.qb
  let a := ra.lbase + ra.head * ra.stride
  let b := rb.lbase + rb.head * rb.stride
  match x.scales t.slot t.fxa t.spa ra.row0 ra.kb e.1 with
  | .error f => .error f
  | .ok sa =>
    match x.scales t.slot t.fxb t.spb rb.row0 rb.kb e.2 with
    | .error f => .error f
    | .ok sb =>
      match x.tileBad a (fxFmt t.fxa) e.1, x.tileBad b (fxFmt t.fxb) e.2 with
      | some w, _ | none, some w => .error (cECCFATAL, w, some w)
      | none, none =>
        .ok { t with
          tileA := a, tileB := b, scA := sa, scB := sb
          lineA := x.tileWords a (fxFmt t.fxa) e.1, lineB := x.tileWords b (fxFmt t.fxb) e.2 }

/-- The time of a step (R147). -/
def MStep.time (t : MStep) : Nat := (stepTime (fxFmt t.fxa) (fxFmt t.fxb) (fxAcc t.fxc = 1)).getD 16

/-- A fault of the sequencer's syllable (t, k) ends the sequence; the first one is kept (R164). -/
def Core.seqFail (x : Core) (cause : Nat) (detail : W32) (n k : Nat) : Core :=
  { x with seqr := { x.seqr with
      count := min x.seqr.count n, done := min x.seqr.done n
      fault := match x.seqr.fault with
        | some f => some f
        | none => some ⟨cause, detail, n, k⟩ } }

/-- Whether a step that waits is discarded with a step handed before it (R150, R152). One of a sequence beside a direct step, and
one beside whose MMA an S syllable still waits, is handed again at once and so keeps its place: DESIGN CHOICE (log entry 117). -/
def State.discarded (s : State) (c : Nat) (t : MStep) (o : MxOp) : Bool :=
  match o with
  | .step u => t.no < u.no && (if u.seqr then t.seqr else (s.slot c u.slot).held = .mma)
  | _ => false

/-- The steps handed after a discarded one that have not started are discarded with it (R150, R152); a slot whose MMA goes
so issues its bundle afresh (log entry 117). -/
def State.discardLater (s : State) (c : Nat) (t : MStep) : State :=
  let gone := (s.core c).mx.queue.filter fun o => s.discarded c t o
  gone.foldl (fun s o => match o with
      | .step u => if u.seqr then s else s.rearm c u.slot
      | _ => s)
    (s.modCore c fun x => { x with mx := { x.mx with queue := x.mx.queue.filter fun o => !gone.contains o } })

/-- A step is discarded (R150, R152), and those handed after it: a direct one stops its slot at its bundle; the sequencer's
ends the sequence. -/
def State.discard (s : State) (c : Nat) (t : MStep) (cause : Nat) (detail : W32) : State :=
  let s := s.discardLater c t
  if t.seqr then s.modCore c fun x => x.seqFail cause detail t.t t.k
  else s.stopAt c t.slot (StopReq.min ⟨cause, detail, true, false, false⟩ (s.slot c t.slot).stop)

/-- The thread that owns an accumulator, for a record of R332. -/
def State.accTid (s : State) (c acc slot : Nat) : Nat := s.tid c (((s.core c).accOf acc).owner.getD slot)

/-- Single-bit errors in the words a step reads are corrected (R20, R394). -/
def State.touchTiles (s : State) (c : Nat) (t : MStep) : State :=
  let s := s.touch c t.tileA (4 * t.lineA.length)
  s.touch c t.tileB (4 * t.lineB.length)

/-- The cycles of an MLOAD or MDRAIN (R155); at least one. -/
def MMove.cycles (m : MMove) (es : Nat) : Nat := max 1 ((m.rows.length * m.cv * es + 255) / 256)

/-- The memory element's bytes of a conversion code (R154). -/
def mEs (code : Nat) : Nat := if code = 0 then 4 else if code = 3 then 1 else 2

/-- MMA_STEP_START (R148, R149, R152, R156): the free unit starts the next step, load or drain. -/
def evMmaStepStart (core : Nat) (s : State) : State :=
  let x := s.core core
  if !x.canStart s.now then s
  else
    match x.nextOp with
    | some (.step t, rest) =>
      let s := s.modCore core fun x => { x with mx := { x.mx with queue := rest } }
      match x.takeTiles t with
      | .ok t =>
        let e := s.now + t.time - 1
        let s := s.touchTiles core t
        (s.modCore core fun x => { x with mx := { x.mx with run := some (.step t, e) } }).after (t.time - 1)
          (.mmaStepRetire core)
      | .error (cause, off, word) =>
        let s := match word with
          | some w => s.eccRecord core 6 t.acc (s.accTid core t.acc t.slot) w
          | none => s
        s.discard core t cause (offDetail off)
    | some (.move m, rest) =>
      let d := m.cycles (mEs m.code) - 1
      (s.modCore core fun x => { x with mx := { x.mx with queue := rest, run := some (.move m, s.now + d) } }).after d
        (.matrixOpComplete core)
    | _ => s

/-- ACCUMULATOR_CLEAR (R153, R156): the unit's next operation is a clear, which takes one cycle. -/
def evAccumulatorClear (core : Nat) (s : State) : State :=
  let x := s.core core
  if !x.canStart s.now then s
  else
    match x.nextOp with
    | some (.clear a, rest) =>
      s.modCore core fun x =>
        { x.setAcc a { x.accOf a with rows := Vector.replicate 32 0 } with
          mx := { x.mx with queue := rest, free := s.now + 1 } }
    | _ => s

/-! ### Retirement -/

/-- A line of a tile from its captured words (R138). -/
def lineOf (ws : List W32) (fmt i : Nat) : Nat :=
  let n := lineBytes fmt / 4
  packN 32 (fun k => (ws.getD (i * n + k) 0).toNat) n

/-- Element k of a line of a format (R138, R41). -/
def lineElem (fmt line k : Nat) : Nat := line / 2 ^ (lineBytes fmt / 4 * k) % 2 ^ (lineBytes fmt / 4)

/-- One accumulator element of a step (R48, R49, R148): its new bits and its flags. -/
def MStep.elem (t : MStep) (la lb : Nat) (sa sb : Nat) (c : Nat) : Nat × Flg :=
  let fa := fxFmt t.fxa
  let fb := fxFmt t.fxb
  if fxBx t.fxa then
    let v := Fmt.f32.val c
    Fmt.f32.result .rne [v] (v.add .rne (exactBlockSum (fa = 3) (Scale.read sa) (lineElem fa la) (fb = 3) (Scale.read sb)
      (lineElem fb lb)))
  else if fa = 4 then
    let x := (List.range 32).foldl (fun (a : Int) k => a + sgn 8 (lineElem fa la k) * sgn 8 (lineElem fb lb k)) (sgn 32 c)
    if t.sat then
      let r := satI 32 x
      (wrap 32 r.1, { sat := r.2 })
    else (wrap 32 x, {})
  else
    let f := if fa = 0 then Fmt.bf16 else Fmt.f16
    (List.range 32).foldl (fun r k =>
      let v := Fmt.f32.val r.1
      let a := f.val (lineElem fa la k)
      let b := f.val (lineElem fb lb k)
      let q := Fmt.f32.result .rne [v, a, b] (v.add .rne (a.mul b))
      (q.1, r.2.or q.2)) (c, {})

/-- The rows of the accumulator after a step, and the flags of each computed element (R148). -/
def MStep.result (t : MStep) (acc : Acc) : Vector VReg 32 × List Flg :=
  let e := extent t.geom
  let val := fun i j =>
    t.elem (lineOf t.lineA (fxFmt t.fxa) i) (lineOf t.lineB (fxFmt t.fxb) j) (t.scA.getD i 0) (t.scB.getD j 0)
      (if t.clr then 0 else VReg.elem (vget acc.rows i 0) 32 j)
  let rows := acc.rows.mapIdx fun i v =>
    if i < e.1 then VReg.ofElems 32 fun j => if j < e.2 then (val i j).1 else VReg.elem v 32 j else v
  (rows, (List.range e.1).flatMap fun i => (List.range e.2).map fun j => (val i j).2)

/-- A tile's words as the step reads them: a word that a producer wrote during the step is its old or its new value
(R137), which of them a free value says. -/
def Core.mixWords (x : Core) (nonce a : Nat) (ws : List W32) : List W32 :=
  ws.mapIdx fun k old =>
    let new : W32 := BitVec.ofNat 32 (x.rd (a + 4 * k) 4)
    if old = new then old else if Config.free (nonce + k) % 2 = 0 then old else new

/-- MMA_STEP_RETIRE (R148 to R151, R394): a residue mismatch runs the step again, at most twice; else the accumulator is
written, the rings pop, and a directly issued MMA's slot is READY in the next cycle, unless the S syllable beside it still holds
the slot. -/
def evMmaStepRetire (core : Nat) (s : State) : State :=
  let x := s.core core
  match x.mx.run with
  | some (.step t, e) =>
    if s.now < e then s
    else if x.mx.upsets != 0 then
      let up := x.mx.upsets - 1
      if t.tries < 2 then
        ((s.modCore core fun x => { x.count 6 1 with
          mx := { x.mx with upsets := up, run := some (.step { t with tries := t.tries + 1 }, s.now + t.time) } }).corrected 1).after
            t.time (.mmaStepRetire core)
      else
        (s.modCore core fun x => { x with
          mx := { x.mx with upsets := up, run := none, free := s.now + 1 } }).discard core t cECCFATAL 0
    else
      let la := x.mixWords s.nonce t.tileA t.lineA
      let lb := x.mixWords (s.nonce + t.lineA.length) t.tileB t.lineB
      let s := { s with nonce := s.nonce + t.lineA.length + t.lineB.length }
      let acc := x.accOf t.acc
      let r := { t with lineA := la, lineB := lb }.result acc
      let s := s.modCore core fun x =>
        let x := { x.setAcc t.acc { acc with rows := r.1 } with mx := { x.mx with run := none, free := s.now + 1 } }
        t.pops.foldl (fun x q => x.setRing q (x.ringOf q).pop) x
      let s := s.raise core (acc.owner.getD t.slot) r.2
      if t.seqr then s else if (s.slot core t.slot).held = .mma then s.wake core t.slot else s.restop core t.slot
  | _ => s

/-! ### Zeroing, loading and draining -/

/-- MZERO (R153). -/
def semMzero (d : BitVec 3) (s : State) : Res :=
  let a := d.toNat
  let o := (s.my.accOf a).owner
  if o != none && o != some s.cur.2 then .trap cHANDLE (mDetail 0 1 a)
  else if fxAcc s.me.fxc > 1 then .trap cILLEGAL 0
  else
    .ok (s.modMy fun x =>
      (x.setAcc a { x.accOf a with int32 := fxAcc s.me.fxc = 1, owner := some s.cur.2 }).handOp (.clear a))

/-- Whether the waits of MZERO.rel are over (R153). -/
def Core.accIdle (x : Core) (a i : Nat) : Bool := !x.handed (fun t => t.acc = a) && !x.sequencing i

/-- MZERO.rel takes effect (R153). -/
def Core.accFree (x : Core) (a : Nat) : Core := x.setAcc a { x.accOf a with owner := none }

/-- MZERO.rel (R153). -/
def semMzeroRel (d : BitVec 3) (s : State) : Res :=
  let a := d.toNat
  if (s.my.accOf a).owner != some s.cur.2 then .trap cHANDLE (mDetail 0 1 a)
  else if s.my.accIdle a s.cur.2 then .ok (s.modMy fun x => x.accFree a)
  else .hold none (s.await .parked (.unit (.mzeroRel d) 0))

/-- Whether a conversion code suits a TYPE (R154). -/
def mSuits (code : Nat) (int32 : Bool) : Bool := code = 0 || (if int32 then 3 ≤ code else code ≤ 2)

/-- The local addresses of the rows of a move, or the first fault among them (R155). -/
def rowsFrom (sg : W128) (size es : Nat) (kind : AccKind) (stride off : Int) : Nat → Except (Nat × W32) (List Nat)
  | 0 => .ok []
  | n + 1 =>
    match segLocal sg off size es kind with
    | .at a => match rowsFrom sg size es kind stride (off + stride) n with
      | .ok l => .ok (a :: l)
      | .error e => .error e
    | .remote _ _ => .error (cSPACE, offDetail off)
    | .bad c => .error (c, offDetail off)

/-- MLOAD and MDRAIN at issue, after their checks of the accumulator (R154, R155). -/
def moveGo (load : Bool) (code a : Nat) (ra rb : BitVec 6) (int32 : Bool) (s : State) : Res :=
  let e := extent s.me.geom
  let es := mEs code
  let off : Int := (s.rs ra.toNat).toNat
  let stride := (s.rs rb.toNat).toNat
  match rowsFrom (s.me.rsg 0) (e.2 * es) es (if load then .load else .store) stride off e.1 with
  | .error (c, d) => .trap c d
  | .ok rows =>
    let m : MMove := ⟨load, s.cur.2, a, code, rows, off, stride, e.2⟩
    let s := s.modMy fun x =>
      let x := if load then x.setAcc a { x.accOf a with int32 := int32, owner := some s.cur.2 } else x
      x.handOp (.move m)
    .hold none (s.await .parked .matrix)

/-- MLOAD (R154, R155). -/
def semMload (c d : BitVec 3) (a b : BitVec 6) (s : State) : Res :=
  let o := (s.my.accOf d.toNat).owner
  if o != none && o != some s.cur.2 then .trap cHANDLE (mDetail 0 1 d.toNat)
  else if fxAcc s.me.fxc > 1 then .trap cILLEGAL 0
  else if !mSuits c.toNat (fxAcc s.me.fxc = 1) then .trap cILLCOMBO 0
  else moveGo true c.toNat d.toNat a b (fxAcc s.me.fxc = 1) s

/-- MDRAIN (R154, R155); supervisor level waives the ownership check (R323). -/
def semMdrain (c d : BitVec 3) (a b : BitVec 6) (s : State) : Res :=
  let x := s.my.accOf d.toNat
  if x.owner != some s.cur.2 && !s.me.level then .trap cHANDLE (mDetail 0 1 d.toNat)
  else if !mSuits c.toNat x.int32 then .trap cILLCOMBO 0
  else moveGo false c.toNat d.toNat a b x.int32 s

/-- The conversion of a loaded element, with its flags (R53, R154). -/
def loadConv (code v : Nat) : Nat × Flg :=
  match code with
  | 1 => Fmt.f32.result .rne [Fmt.bf16.val v] (Fmt.bf16.val v)
  | 2 => Fmt.f32.result .rne [Fmt.f16.val v] (Fmt.f16.val v)
  | 3 => (wrap 32 (sgn 8 v), {})
  | 4 => (wrap 32 (sgn 16 v), {})
  | _ => (v % 2 ^ 32, {})

/-- The conversion of a drained element, with its flags (R154, R155). -/
def drainConv (code v : Nat) : Nat × Flg :=
  let f := Fmt.f32.val v
  match code with
  | 1 => Fmt.bf16.result .rne [f] f
  | 2 => Fmt.f16.result .rne [f] f
  | 3 => let r := satI 8 (sgn 32 v); (wrap 8 r.1, { sat := r.2 })
  | 4 => let r := satI 16 (sgn 32 v); (wrap 16 r.1, { sat := r.2 })
  | _ => (v, {})

/-- The words that row `i` of a move meets with a double-bit error: of a load all it touches, of a drain those it
writes only in part (R155). -/
def Core.moveBad (x : Core) (m : MMove) (a : Nat) : List Nat :=
  if x.err2.isEmpty then []
  else
    let n := m.cv * mEs m.code
    (wordsOf a n).filter fun w => x.err2.contains w && (m.load || 4 * w < a || a + n < 4 * w + 4)

/-- Stores one row of a drain word by word, leaving the words of `bad`; every other word's FE is set full (R19,
R155). -/
def Core.drainRow (x : Core) (a n v : Nat) (bad : List Nat) : Core :=
  (wordsOf a n).foldl (fun x w =>
    if bad.contains w then x
    else
      let lo := max a (4 * w)
      let hi := min (a + n) (4 * w + 4)
      (x.wr lo (hi - lo) (v / 2 ^ (8 * (lo - a)))).setFe lo true) x

/-- The element that a load finds in column `j` of the row at `a`, with its flags; 0 where its word is bad (R155). -/
def Core.loadElem (x : Core) (m : MMove) (a j : Nat) : Nat × Flg :=
  let es := mEs m.code
  if j < m.cv && !(x.bad (a + j * es) es) then loadConv m.code (x.rd (a + j * es) es) else (0, {})

/-- The accumulator that a load leaves (R155). -/
def Core.loadRows (x : Core) (m : MMove) : Vector VReg 32 :=
  Vector.ofFn fun (i : Fin 32) =>
    match m.rows[i.val]? with
    | none => 0
    | some a => VReg.ofElems 32 fun j => (x.loadElem m a j).1

/-- MATRIX_OP_COMPLETE (R155): the load or drain takes effect; a double-bit error stops its slot in the next cycle. -/
def evMatrixOpComplete (core : Nat) (s : State) : State :=
  let x := s.core core
  match x.mx.run with
  | some (.move m, e) =>
    if s.now < e then s
    else
      let es := mEs m.code
      let n := m.cv * es
      let bads := m.rows.map fun a => x.moveBad m a
      let s := s.modCore core fun x => { x with mx := { x.mx with run := none, free := s.now + 1 } }
      let s := bads.flatten.foldl (fun s w => s.eccRecord core 6 m.acc (s.accTid core m.acc m.slot) (4 * w)) s
      let s :=
        if m.load then
          let rows := x.loadRows m
          let s := m.rows.foldl (fun s a => s.touch core a n)
            (s.modCore core fun x => x.setAcc m.acc { x.accOf m.acc with rows := rows })
          s.raise core ((x.accOf m.acc).owner.getD m.slot)
            (m.rows.flatMap fun a => (List.range m.cv).map fun j => (x.loadElem m a j).2)
        else
          let acc := x.accOf m.acc
          let out := fun i j => drainConv m.code (VReg.elem (vget acc.rows i 0) 32 j)
          let s := m.rows.zipIdx.foldl (fun s e =>
            let v := packN (8 * es) (fun j => (out e.2 j).1) m.cv
            (s.touch core e.1 n).modCore core fun x => x.drainRow e.1 n v (x.moveBad m e.1)) s
          s.raise core (acc.owner.getD m.slot)
            ((List.range m.rows.length).flatMap fun i => (List.range m.cv).map fun j => (out i j).2)
      let first := (bads.zipIdx.zip m.rows).findSome? fun e =>
        (e.1.1.head?).map fun w => m.off + e.1.2 * m.stride + ((4 * w : Nat) : Int) - (e.2 : Nat)
      let s := match first with
        | some off =>
          s.modSlot core m.slot fun t => { t with stop := some (StopReq.min ⟨cECCFATAL, offDetail off, false, false, false⟩ t.stop) }
        | none => s
      s.wake core m.slot
  | _ => s

/-! ### Meanings -/

/-- MMA (R148). -/
def execMma (acc qa qb : BitVec 3) (sat clr ha hb : BitVec 1) (s : State) : Host.Outcome State Fault Refusal :=
  s.aloneV (.mma acc qa qb sat clr ha hb) s.me.mmaIllegal fun cur => semMma acc qa qb sat clr ha hb s cur
/-- RINGCFG (R139). -/
def execRingcfg (d : BitVec 3) (a : BitVec 6) (s : State) : Host.Outcome State Fault Refusal :=
  s.aloneS fun s => semRingcfg d a s
/-- RINGCFG_REL (R139). -/
def execRingcfgRel (d : BitVec 3) (s : State) : Host.Outcome State Fault Refusal :=
  s.aloneS fun s => semRingcfgRel d s
/-- RINGADV (R140). -/
def execRingadv (d : BitVec 3) (s : State) : Host.Outcome State Fault Refusal := s.aloneS fun s => semRingadv d s
/-- RINGADV_POP (R140). -/
def execRingadvPop (d : BitVec 3) (s : State) : Host.Outcome State Fault Refusal :=
  s.aloneS fun s => semRingadvPop d s
/-- RINGSTAT (R141). -/
def execRingstat (d : BitVec 6) (a : BitVec 3) (which : BitVec 6) (s : State) : Host.Outcome State Fault Refusal :=
  s.aloneS fun s => semRingstat d a which s
/-- MZERO (R153). -/
def execMzero (d : BitVec 3) (s : State) : Host.Outcome State Fault Refusal := s.aloneS fun s => semMzero d s
/-- MZERO_REL (R153). -/
def execMzeroRel (d : BitVec 3) (s : State) : Host.Outcome State Fault Refusal := s.aloneS fun s => semMzeroRel d s
/-- MLOAD (R155). -/
def execMload (c d : BitVec 3) (a b : BitVec 6) (s : State) : Host.Outcome State Fault Refusal :=
  s.aloneS fun s => semMload c d a b s
/-- MDRAIN (R155). -/
def execMdrain (c d : BitVec 3) (a b : BitVec 6) (s : State) : Host.Outcome State Fault Refusal :=
  s.aloneS fun s => semMdrain c d a b s
/-- GEOMSET (R144). -/
def execGeomset (a : BitVec 6) (s : State) : Host.Outcome State Fault Refusal := s.aloneS fun s => semGeomset a s
/-- GEOMMASK (R144). -/
def execGeommask (d : BitVec 3) (c : BitVec 1) (s : State) : Host.Outcome State Fault Refusal :=
  s.aloneS fun s => semGeommask d c s
/-- RING_WAIT_END (R140). -/
def execRingWaitEnd (core slot : Nat) (s : State) : Host.Outcome State Fault Refusal :=
  .next (evRingWaitEnd core slot s)
/-- ACCUMULATOR_CLEAR (R153). -/
def execAccumulatorClear (core : Nat) (s : State) : Host.Outcome State Fault Refusal :=
  .next (evAccumulatorClear core s)
/-- MMA_STEP_START (R149). -/
def execMmaStepStart (core : Nat) (s : State) : Host.Outcome State Fault Refusal := .next (evMmaStepStart core s)
/-- MMA_STEP_RETIRE (R149). -/
def execMmaStepRetire (core : Nat) (s : State) : Host.Outcome State Fault Refusal := .next (evMmaStepRetire core s)
/-- MATRIX_OP_COMPLETE (R155). -/
def execMatrixOpComplete (core : Nat) (s : State) : Host.Outcome State Fault Refusal :=
  .next (evMatrixOpComplete core s)

end Sys2Proof.Machine
end

