-- ==== Sys2Proof/Machine/Vector.lean ====
section
/-! DEFINITION. The V syllables together: what each does beside an S syllable, and the strides that the sequencer adds
to its fields (R159). -/

namespace Sys2Proof.Machine

/-- What a V syllable does, with its operands read in `pre` and its effects made in `cur` (R22). -/
def semV (i : Instr) (pre cur : State) : Res :=
  match i with
  | .vnop => semVnop pre cur
  | .vadd d a b m t => semVadd d a b m t pre cur
  | .vsub d a b m t => semVsub d a b m t pre cur
  | .vmul d a b m t => semVmul d a b m t pre cur
  | .vmin d a b m t => semVmin d a b m t pre cur
  | .vmax d a b m t => semVmax d a b m t pre cur
  | .vabs d a m t => semVabs d a m t pre cur
  | .vneg d a m t => semVneg d a m t pre cur
  | .vclass d a m t => semVclass d a m t pre cur
  | .vrndi d a m t => semVrndi d a m t pre cur
  | .vaddScalar d a sc m t => semVaddScalar d a sc m t pre cur
  | .vsubScalar d a sc m t => semVsubScalar d a sc m t pre cur
  | .vmulScalar d a sc m t => semVmulScalar d a sc m t pre cur
  | .vfma d a b c m t => semVfma d a b c m t pre cur
  | .vfms d a b c m t => semVfms d a b c m t pre cur
  | .vfnma d a b c m t => semVfnma d a b c m t pre cur
  | .vcmpEq d a b m t => semVcmpEq d a b m t pre cur
  | .vcmpNe d a b m t => semVcmpNe d a b m t pre cur
  | .vcmpLt d a b m t => semVcmpLt d a b m t pre cur
  | .vcmpLe d a b m t => semVcmpLe d a b m t pre cur
  | .vcmpUn d a b m t => semVcmpUn d a b m t pre cur
  | .vcmpOr d a b m t => semVcmpOr d a b m t pre cur
  | .vcvtF16F32 d a b m t => semVcvtF16F32 d a b m t pre cur
  | .vcvtBf16F32 d a b m t => semVcvtBf16F32 d a b m t pre cur
  | .vcvtF32F16 d a m t => semVcvtF32F16 d a m t pre cur
  | .vcvtF32Bf16 d a m t => semVcvtF32Bf16 d a m t pre cur
  | .vcvtI32F32 d a m t => semVcvtI32F32 d a m t pre cur
  | .vcvtN32F32 d a m t => semVcvtN32F32 d a m t pre cur
  | .vcvtF32I32 d a m t => semVcvtF32I32 d a m t pre cur
  | .vcvtF32N32 d a m t => semVcvtF32N32 d a m t pre cur
  | .vrcp d a m t => semVrcp d a m t pre cur
  | .vrsq d a m t => semVrsq d a m t pre cur
  | .vexp2 d a m t => semVexp2 d a m t pre cur
  | .vlog2 d a m t => semVlog2 d a m t pre cur
  | .vtanh d a m t => semVtanh d a m t pre cur
  | .vsig d a m t => semVsig d a m t pre cur
  | .vaddi d a b m t => semVaddi d a b m t pre cur
  | .vsubi d a b m t => semVsubi d a b m t pre cur
  | .vmuli d a b m t => semVmuli d a b m t pre cur
  | .vmulhi d a b m t => semVmulhi d a b m t pre cur
  | .vmini d a b m t => semVmini d a b m t pre cur
  | .vmaxi d a b m t => semVmaxi d a b m t pre cur
  | .vabsdi d a b m t => semVabsdi d a b m t pre cur
  | .vand d a b m t => semVand d a b m t pre cur
  | .vor d a b m t => semVor d a b m t pre cur
  | .vxor d a b m t => semVxor d a b m t pre cur
  | .vnot d a m t => semVnot d a m t pre cur
  | .vshl d a b m t => semVshl d a b m t pre cur
  | .vshr d a b m t => semVshr d a b m t pre cur
  | .vsra d a b m t => semVsra d a b m t pre cur
  | .vrshr d a b m t => semVrshr d a b m t pre cur
  | .vaddiSat d a b m t => semVaddiSat d a b m t pre cur
  | .vsubiSat d a b m t => semVsubiSat d a b m t pre cur
  | .vaddiScalar d a sc m t => semVaddiScalar d a sc m t pre cur
  | .vsubiScalar d a sc m t => semVsubiScalar d a sc m t pre cur
  | .vmuliScalar d a sc m t => semVmuliScalar d a sc m t pre cur
  | .vminiScalar d a sc m t => semVminiScalar d a sc m t pre cur
  | .vmaxiScalar d a sc m t => semVmaxiScalar d a sc m t pre cur
  | .vshlImm d a imm m t => semVshlImm d a imm m t pre cur
  | .vshrImm d a imm m t => semVshrImm d a imm m t pre cur
  | .vsraImm d a imm m t => semVsraImm d a imm m t pre cur
  | .vrshrImm d a imm m t => semVrshrImm d a imm m t pre cur
  | .vmac2 d a b m t => semVmac2 d a b m t pre cur
  | .vmac2Sat d a b m t => semVmac2Sat d a b m t pre cur
  | .vdot4 d a b m t => semVdot4 d a b m t pre cur
  | .vdot4Sat d a b m t => semVdot4Sat d a b m t pre cur
  | .vsatn d a b m t => semVsatn d a b m t pre cur
  | .vwidenLo d a m t => semVwidenLo d a m t pre cur
  | .vwidenHi d a m t => semVwidenHi d a m t pre cur
  | .vcmpiEq d a b m t => semVcmpiEq d a b m t pre cur
  | .vcmpiNe d a b m t => semVcmpiNe d a b m t pre cur
  | .vcmpiLt d a b m t => semVcmpiLt d a b m t pre cur
  | .vcmpiLe d a b m t => semVcmpiLe d a b m t pre cur
  | .vpopc d a m t => semVpopc d a m t pre cur
  | .vprepop d a m t => semVprepop d a m t pre cur
  | .vclz d a m t => semVclz d a m t pre cur
  | .vslideUp d a imm m => semVslideUp d a imm m pre cur
  | .vslideDn d a imm m => semVslideDn d a imm m pre cur
  | .vperm d a b m => semVperm d a b m pre cur
  | .vcmprs d a m => semVcmprs d a m pre cur
  | .vexpnd d a m => semVexpnd d a m pre cur
  | .viota d m => semViota d m pre cur
  | .vselv d a b m => semVselv d a b m pre cur
  | .vmov d a m => semVmov d a m pre cur
  | .vbcast d sc m => semVbcast d sc m pre cur
  | .vredAddInt d a m t => semVredAddInt d a m t pre cur
  | .vredMinInt d a m t => semVredMinInt d a m t pre cur
  | .vredMaxInt d a m t => semVredMaxInt d a m t pre cur
  | .vredAddFloat d a m t => semVredAddFloat d a m t pre cur
  | .vredMinFloat d a m t => semVredMinFloat d a m t pre cur
  | .vredMaxFloat d a m t => semVredMaxFloat d a m t pre cur
  | .vscaniAddInt d a m t => semVscaniAddInt d a m t pre cur
  | .vscaniMaxInt d a m t => semVscaniMaxInt d a m t pre cur
  | .vscaniAddFloat d a m t => semVscaniAddFloat d a m t pre cur
  | .vqnt d a b m t => semVqnt d a b m t pre cur
  | .vdqnt d a b m t => semVdqnt d a b m t pre cur
  | .vtopk d a b m t => semVtopk d a b m t pre cur
  | .vtopkNz d a b m t => semVtopkNz d a b m t pre cur
  | .mand d a b => semMand d a b pre cur
  | .mor d a b => semMor d a b pre cur
  | .mxor d a b => semMxor d a b pre cur
  | .mnot d a => semMnot d a pre cur
  | .mset d n => semMset d n pre cur
  | .mma acc qa qb sat clr ha hb => semMma acc qa qb sat clr ha hb pre cur
  | _ => .trap cILLEGAL 0

/-- Whether a V syllable may not be captured as the format context stands (R158, R159). -/
def capIllegal (i : Instr) (s : State) : Bool :=
  match i with
  | .vtopk _ _ _ _ _ | .vtopkNz _ _ _ _ _ => true
  | .mma _ _ _ _ _ _ _ => s.me.mmaIllegal
  | _ => false

/-- Field `lo` of a stride word, `n` bits, times the iteration (R159). -/
def strideBy (x : W64) (lo n t : Nat) : BitVec n := BitVec.ofNat n (fld x.toNat lo n * t)

/-- A captured syllable in iteration `t_`: the strides are added to the fields that name a vector register or an
accumulator (R159). -/
def strideV (x : W64) (t_ : Nat) (i : Instr) : Instr :=
  match i with
  | .vadd d a b m t => .vadd (d + strideBy x 0 5 t_) (a + strideBy x 5 5 t_) (b + strideBy x 10 5 t_) m t
  | .vsub d a b m t => .vsub (d + strideBy x 0 5 t_) (a + strideBy x 5 5 t_) (b + strideBy x 10 5 t_) m t
  | .vmul d a b m t => .vmul (d + strideBy x 0 5 t_) (a + strideBy x 5 5 t_) (b + strideBy x 10 5 t_) m t
  | .vmin d a b m t => .vmin (d + strideBy x 0 5 t_) (a + strideBy x 5 5 t_) (b + strideBy x 10 5 t_) m t
  | .vmax d a b m t => .vmax (d + strideBy x 0 5 t_) (a + strideBy x 5 5 t_) (b + strideBy x 10 5 t_) m t
  | .vabs d a m t => .vabs (d + strideBy x 0 5 t_) (a + strideBy x 5 5 t_) m t
  | .vneg d a m t => .vneg (d + strideBy x 0 5 t_) (a + strideBy x 5 5 t_) m t
  | .vclass d a m t => .vclass (d + strideBy x 0 5 t_) (a + strideBy x 5 5 t_) m t
  | .vrndi d a m t => .vrndi (d + strideBy x 0 5 t_) (a + strideBy x 5 5 t_) m t
  | .vaddScalar d a sc m t => .vaddScalar (d + strideBy x 0 5 t_) (a + strideBy x 5 5 t_) sc m t
  | .vsubScalar d a sc m t => .vsubScalar (d + strideBy x 0 5 t_) (a + strideBy x 5 5 t_) sc m t
  | .vmulScalar d a sc m t => .vmulScalar (d + strideBy x 0 5 t_) (a + strideBy x 5 5 t_) sc m t
  | .vfma d a b c m t => .vfma (d + strideBy x 0 5 t_) (a + strideBy x 5 5 t_) (b + strideBy x 10 5 t_) c m t
  | .vfms d a b c m t => .vfms (d + strideBy x 0 5 t_) (a + strideBy x 5 5 t_) (b + strideBy x 10 5 t_) c m t
  | .vfnma d a b c m t => .vfnma (d + strideBy x 0 5 t_) (a + strideBy x 5 5 t_) (b + strideBy x 10 5 t_) c m t
  | .vcmpEq d a b m t => .vcmpEq d (a + strideBy x 5 5 t_) (b + strideBy x 10 5 t_) m t
  | .vcmpNe d a b m t => .vcmpNe d (a + strideBy x 5 5 t_) (b + strideBy x 10 5 t_) m t
  | .vcmpLt d a b m t => .vcmpLt d (a + strideBy x 5 5 t_) (b + strideBy x 10 5 t_) m t
  | .vcmpLe d a b m t => .vcmpLe d (a + strideBy x 5 5 t_) (b + strideBy x 10 5 t_) m t
  | .vcmpUn d a b m t => .vcmpUn d (a + strideBy x 5 5 t_) (b + strideBy x 10 5 t_) m t
  | .vcmpOr d a b m t => .vcmpOr d (a + strideBy x 5 5 t_) (b + strideBy x 10 5 t_) m t
  | .vcvtF16F32 d a b m t => .vcvtF16F32 (d + strideBy x 0 5 t_) (a + strideBy x 5 5 t_) (b + strideBy x 10 5 t_) m t
  | .vcvtBf16F32 d a b m t => .vcvtBf16F32 (d + strideBy x 0 5 t_) (a + strideBy x 5 5 t_) (b + strideBy x 10 5 t_) m t
  | .vcvtF32F16 d a m t => .vcvtF32F16 (d + strideBy x 0 5 t_) (a + strideBy x 5 5 t_) m t
  | .vcvtF32Bf16 d a m t => .vcvtF32Bf16 (d + strideBy x 0 5 t_) (a + strideBy x 5 5 t_) m t
  | .vcvtI32F32 d a m t => .vcvtI32F32 (d + strideBy x 0 5 t_) (a + strideBy x 5 5 t_) m t
  | .vcvtN32F32 d a m t => .vcvtN32F32 (d + strideBy x 0 5 t_) (a + strideBy x 5 5 t_) m t
  | .vcvtF32I32 d a m t => .vcvtF32I32 (d + strideBy x 0 5 t_) (a + strideBy x 5 5 t_) m t
  | .vcvtF32N32 d a m t => .vcvtF32N32 (d + strideBy x 0 5 t_) (a + strideBy x 5 5 t_) m t
  | .vrcp d a m t => .vrcp (d + strideBy x 0 5 t_) (a + strideBy x 5 5 t_) m t
  | .vrsq d a m t => .vrsq (d + strideBy x 0 5 t_) (a + strideBy x 5 5 t_) m t
  | .vexp2 d a m t => .vexp2 (d + strideBy x 0 5 t_) (a + strideBy x 5 5 t_) m t
  | .vlog2 d a m t => .vlog2 (d + strideBy x 0 5 t_) (a + strideBy x 5 5 t_) m t
  | .vtanh d a m t => .vtanh (d + strideBy x 0 5 t_) (a + strideBy x 5 5 t_) m t
  | .vsig d a m t => .vsig (d + strideBy x 0 5 t_) (a + strideBy x 5 5 t_) m t
  | .vaddi d a b m t => .vaddi (d + strideBy x 0 5 t_) (a + strideBy x 5 5 t_) (b + strideBy x 10 5 t_) m t
  | .vsubi d a b m t => .vsubi (d + strideBy x 0 5 t_) (a + strideBy x 5 5 t_) (b + strideBy x 10 5 t_) m t
  | .vmuli d a b m t => .vmuli (d + strideBy x 0 5 t_) (a + strideBy x 5 5 t_) (b + strideBy x 10 5 t_) m t
  | .vmulhi d a b m t => .vmulhi (d + strideBy x 0 5 t_) (a + strideBy x 5 5 t_) (b + strideBy x 10 5 t_) m t
  | .vmini d a b m t => .vmini (d + strideBy x 0 5 t_) (a + strideBy x 5 5 t_) (b + strideBy x 10 5 t_) m t
  | .vmaxi d a b m t => .vmaxi (d + strideBy x 0 5 t_) (a + strideBy x 5 5 t_) (b + strideBy x 10 5 t_) m t
  | .vabsdi d a b m t => .vabsdi (d + strideBy x 0 5 t_) (a + strideBy x 5 5 t_) (b + strideBy x 10 5 t_) m t
  | .vand d a b m t => .vand (d + strideBy x 0 5 t_) (a + strideBy x 5 5 t_) (b + strideBy x 10 5 t_) m t
  | .vor d a b m t => .vor (d + strideBy x 0 5 t_) (a + strideBy x 5 5 t_) (b + strideBy x 10 5 t_) m t
  | .vxor d a b m t => .vxor (d + strideBy x 0 5 t_) (a + strideBy x 5 5 t_) (b + strideBy x 10 5 t_) m t
  | .vnot d a m t => .vnot (d + strideBy x 0 5 t_) (a + strideBy x 5 5 t_) m t
  | .vshl d a b m t => .vshl (d + strideBy x 0 5 t_) (a + strideBy x 5 5 t_) (b + strideBy x 10 5 t_) m t
  | .vshr d a b m t => .vshr (d + strideBy x 0 5 t_) (a + strideBy x 5 5 t_) (b + strideBy x 10 5 t_) m t
  | .vsra d a b m t => .vsra (d + strideBy x 0 5 t_) (a + strideBy x 5 5 t_) (b + strideBy x 10 5 t_) m t
  | .vrshr d a b m t => .vrshr (d + strideBy x 0 5 t_) (a + strideBy x 5 5 t_) (b + strideBy x 10 5 t_) m t
  | .vaddiSat d a b m t => .vaddiSat (d + strideBy x 0 5 t_) (a + strideBy x 5 5 t_) (b + strideBy x 10 5 t_) m t
  | .vsubiSat d a b m t => .vsubiSat (d + strideBy x 0 5 t_) (a + strideBy x 5 5 t_) (b + strideBy x 10 5 t_) m t
  | .vaddiScalar d a sc m t => .vaddiScalar (d + strideBy x 0 5 t_) (a + strideBy x 5 5 t_) sc m t
  | .vsubiScalar d a sc m t => .vsubiScalar (d + strideBy x 0 5 t_) (a + strideBy x 5 5 t_) sc m t
  | .vmuliScalar d a sc m t => .vmuliScalar (d + strideBy x 0 5 t_) (a + strideBy x 5 5 t_) sc m t
  | .vminiScalar d a sc m t => .vminiScalar (d + strideBy x 0 5 t_) (a + strideBy x 5 5 t_) sc m t
  | .vmaxiScalar d a sc m t => .vmaxiScalar (d + strideBy x 0 5 t_) (a + strideBy x 5 5 t_) sc m t
  | .vshlImm d a imm m t => .vshlImm (d + strideBy x 0 5 t_) (a + strideBy x 5 5 t_) imm m t
  | .vshrImm d a imm m t => .vshrImm (d + strideBy x 0 5 t_) (a + strideBy x 5 5 t_) imm m t
  | .vsraImm d a imm m t => .vsraImm (d + strideBy x 0 5 t_) (a + strideBy x 5 5 t_) imm m t
  | .vrshrImm d a imm m t => .vrshrImm (d + strideBy x 0 5 t_) (a + strideBy x 5 5 t_) imm m t
  | .vmac2 d a b m t => .vmac2 (d + strideBy x 0 5 t_) (a + strideBy x 5 5 t_) (b + strideBy x 10 5 t_) m t
  | .vmac2Sat d a b m t => .vmac2Sat (d + strideBy x 0 5 t_) (a + strideBy x 5 5 t_) (b + strideBy x 10 5 t_) m t
  | .vdot4 d a b m t => .vdot4 (d + strideBy x 0 5 t_) (a + strideBy x 5 5 t_) (b + strideBy x 10 5 t_) m t
  | .vdot4Sat d a b m t => .vdot4Sat (d + strideBy x 0 5 t_) (a + strideBy x 5 5 t_) (b + strideBy x 10 5 t_) m t
  | .vsatn d a b m t => .vsatn (d + strideBy x 0 5 t_) (a + strideBy x 5 5 t_) (b + strideBy x 10 5 t_) m t
  | .vwidenLo d a m t => .vwidenLo (d + strideBy x 0 5 t_) (a + strideBy x 5 5 t_) m t
  | .vwidenHi d a m t => .vwidenHi (d + strideBy x 0 5 t_) (a + strideBy x 5 5 t_) m t
  | .vcmpiEq d a b m t => .vcmpiEq d (a + strideBy x 5 5 t_) (b + strideBy x 10 5 t_) m t
  | .vcmpiNe d a b m t => .vcmpiNe d (a + strideBy x 5 5 t_) (b + strideBy x 10 5 t_) m t
  | .vcmpiLt d a b m t => .vcmpiLt d (a + strideBy x 5 5 t_) (b + strideBy x 10 5 t_) m t
  | .vcmpiLe d a b m t => .vcmpiLe d (a + strideBy x 5 5 t_) (b + strideBy x 10 5 t_) m t
  | .vpopc d a m t => .vpopc (d + strideBy x 0 5 t_) (a + strideBy x 5 5 t_) m t
  | .vprepop d a m t => .vprepop (d + strideBy x 0 5 t_) (a + strideBy x 5 5 t_) m t
  | .vclz d a m t => .vclz (d + strideBy x 0 5 t_) (a + strideBy x 5 5 t_) m t
  | .vslideUp d a imm m => .vslideUp (d + strideBy x 0 5 t_) (a + strideBy x 5 5 t_) imm m
  | .vslideDn d a imm m => .vslideDn (d + strideBy x 0 5 t_) (a + strideBy x 5 5 t_) imm m
  | .vperm d a b m => .vperm (d + strideBy x 0 5 t_) (a + strideBy x 5 5 t_) (b + strideBy x 10 5 t_) m
  | .vcmprs d a m => .vcmprs (d + strideBy x 0 5 t_) (a + strideBy x 5 5 t_) m
  | .vexpnd d a m => .vexpnd (d + strideBy x 0 5 t_) (a + strideBy x 5 5 t_) m
  | .viota d m => .viota (d + strideBy x 0 5 t_) m
  | .vselv d a b m => .vselv (d + strideBy x 0 5 t_) (a + strideBy x 5 5 t_) (b + strideBy x 10 5 t_) m
  | .vmov d a m => .vmov (d + strideBy x 0 5 t_) (a + strideBy x 5 5 t_) m
  | .vbcast d sc m => .vbcast (d + strideBy x 0 5 t_) sc m
  | .vredAddInt d a m t => .vredAddInt (d + strideBy x 0 5 t_) (a + strideBy x 5 5 t_) m t
  | .vredMinInt d a m t => .vredMinInt (d + strideBy x 0 5 t_) (a + strideBy x 5 5 t_) m t
  | .vredMaxInt d a m t => .vredMaxInt (d + strideBy x 0 5 t_) (a + strideBy x 5 5 t_) m t
  | .vredAddFloat d a m t => .vredAddFloat (d + strideBy x 0 5 t_) (a + strideBy x 5 5 t_) m t
  | .vredMinFloat d a m t => .vredMinFloat (d + strideBy x 0 5 t_) (a + strideBy x 5 5 t_) m t
  | .vredMaxFloat d a m t => .vredMaxFloat (d + strideBy x 0 5 t_) (a + strideBy x 5 5 t_) m t
  | .vscaniAddInt d a m t => .vscaniAddInt (d + strideBy x 0 5 t_) (a + strideBy x 5 5 t_) m t
  | .vscaniMaxInt d a m t => .vscaniMaxInt (d + strideBy x 0 5 t_) (a + strideBy x 5 5 t_) m t
  | .vscaniAddFloat d a m t => .vscaniAddFloat (d + strideBy x 0 5 t_) (a + strideBy x 5 5 t_) m t
  | .vqnt d a b m t => .vqnt (d + strideBy x 0 5 t_) (a + strideBy x 5 5 t_) (b + strideBy x 10 5 t_) m t
  | .vdqnt d a b m t => .vdqnt (d + strideBy x 0 5 t_) (a + strideBy x 5 5 t_) (b + strideBy x 10 5 t_) m t
  | .vtopk d a b m t => .vtopk (d + strideBy x 0 5 t_) (a + strideBy x 5 5 t_) (b + strideBy x 10 5 t_) m t
  | .vtopkNz d a b m t => .vtopkNz (d + strideBy x 0 5 t_) (a + strideBy x 5 5 t_) (b + strideBy x 10 5 t_) m t
  | .mma acc qa qb sat clr ha hb => .mma (acc + strideBy x 15 3 t_) qa qb sat clr ha hb
  | i => i

end Sys2Proof.Machine
end

