-- ==== Sys2Proof/Machine/Sequencer.lean ====
section
/-! DEFINITION. The repetition sequencer: capture, runs, and the syllables it issues (R157 to R165). -/

namespace Sys2Proof.Machine

/-- REPCAP opens capture (R158). -/
def Core.capOpen (x : Core) (i n : Nat) : Core :=
  { x with seqr := { x.seqr with owner := some i, syl := [], want := n } }

/-- REPCAP.rel releases the buffer (R158). -/
def Core.capFree (x : Core) : Core :=
  { x with seqr := { x.seqr with owner := none, syl := [], want := 0, fault := none } }

/-- Count and stride word of a REPGO, as one number (R159). -/
def repData (a b : W64) : BitVec 256 := BitVec.ofNat 256 (a.toNat % 65536 + b.toNat * 65536)

/-- REPGO starts the sequence (R159, R160); a count of 0, or an empty buffer, ends it at once. -/
def Core.repStart (x : Core) (now i : Nat) (d : BitVec 256) : Core :=
  let n := fld d.toNat 0 16
  { x with seqr := { x.seqr with
      stride := BitVec.ofNat 64 (fld d.toNat 16 64), count := n, t := 0, k := 0, geom := (x.slot i).geom
      next := now + 1, run := n != 0 && !x.seqr.syl.isEmpty, done := if x.seqr.syl.isEmpty then n else 0 } }

/-- The HANDLE of a slot that does not own the buffer (R157, R398). -/
def repHandle : Res := .trap cHANDLE (mDetail 2 1 0)

/-- REPCAP (R157, R158, R164). -/
def semRepcap (n : BitVec 6) (s : State) : Res :=
  let q := s.my.seqr
  if q.owner != none && q.owner != some s.cur.2 then repHandle
  else
    s.seqFault.getD
      (if q.run then .hold none (s.await .parked (.unit (.repcap n) 0))
      else .ok (s.modMy fun x => x.capOpen s.cur.2 n.toNat))

/-- REPCAP.rel (R157, R158, R164). -/
def semRepcapRel (s : State) : Res :=
  let q := s.my.seqr
  if q.owner != some s.cur.2 then repHandle
  else
    s.seqFault.getD
      (if q.run then .hold none (s.await .parked (.unit .repcapRel 0)) else .ok (s.modMy Core.capFree))

/-- REPGO (R159, R164, R333). -/
def semRepgo (a b : BitVec 6) (s : State) : Res :=
  let q := s.my.seqr
  if q.owner != some s.cur.2 then repHandle
  else
    match s.seqFault with
    | some r => r
    | none =>
      if q.want != 0 then .trap cHANDLE (mDetail 2 3 0)
      else if s.me.imv then .trap cIDEMADD s.me.markDetail
      else
        let d := repData (s.rs a.toNat) (s.rs b.toNat)
        if q.run then .hold none (s.await .parked (.unit (.repgo a b) d))
        else .ok (s.modMy fun x => x.repStart s.now s.cur.2 d)

/-- REPWAIT (R163, R164). -/
def semRepwait (d : BitVec 6) (s : State) : Res :=
  let q := s.my.seqr
  if q.owner != some s.cur.2 then repHandle
  else
    s.seqFault.getD
      (if q.run then .hold none (s.await .parked (.unit (.repwait d) 0))
      else .ok (s.ws d.toNat (BitVec.ofNat 64 q.done)))

/-! ### Issue -/

/-- The syllable the sequencer issues next, its strides added (R159). -/
def Seqr.syllable (q : Seqr) : Instr := strideV q.stride q.t ((decodeV (q.syl.getD q.k 0).toNat).getD .vnop)

/-- What the sequencer's next syllable comes to, as if the owner had issued it (R160); an MMA is handed to the unit. -/
def State.seqRun (s : State) (c : Nat) : Res :=
  let q := (s.core c).seqr
  let i := q.owner.getD 0
  let s := { s with cur := (c, i) }
  match q.syllable with
  | .mma acc qa qb sat clr ha hb =>
    match s.my.mmaTrap i acc.toNat qa.toNat qb.toNat (sat = 1) with
    | some (cause, d) => .trap cause d
    | none =>
      .ok (s.modMy fun x => x.handOp (.step (x.mmaStep true i q.geom acc.toNat qa.toNat qb.toNat (sat = 1) (clr = 1)
        (ha = 1) (hb = 1) q.t q.k)))
  | v => semV v s s

/-- Whether a syllable is an MMA. -/
def isMma : Instr → Bool
  | .mma _ _ _ _ _ _ _ => true
  | _ => false

/-- Whether a result is a wait for strips. -/
def Res.waits : Res → Bool
  | .again _ => true
  | _ => false

/-- Whether the sequencer has a syllable to issue in this cycle (R160): no MMA while one of its steps waits for the
unit, and no pop or push that would park. A directly issued MMA that waits keeps no place from it (log entry 115). -/
def State.seqWants (s : State) (c : Nat) : Bool :=
  let x := s.core c
  let q := x.seqr
  q.run && q.t < q.count && q.next ≤ s.now && !x.banked && x.restart.isNone && !x.preempt
    && !(isMma q.syllable && x.mx.queue.any MxOp.isSeq) && !(s.seqRun c).waits

/-- The sequencer goes on to its next syllable (R159, R160). -/
def Seqr.advance (q : Seqr) (now : Nat) : Seqr :=
  if q.k + 1 = q.syl.length then { q with k := 0, t := q.t + 1, done := q.t + 1, next := now + 8 }
  else { q with k := q.k + 1, next := now + 8 }

/-- SEQUENCER_ISSUE (R160, R164): the next syllable takes effect, or faults and ends the sequence. Of an S syllable and a
sequencer syllable of one cycle, the sequencer's sees the other's writes (R162; log entry 116). -/
def evSequencerIssue (core : Nat) (s : State) : State :=
  if !s.seqWants core then s
  else
    let q := (s.core core).seqr
    match s.seqRun core with
    | .ok t =>
      let pre : State := { s with cur := (core, q.owner.getD 0) }
      let l := popWords (s.core core) (t.core core) ++ (pre.slotWords q.syllable).map (·.2)
      { t.modCore core fun x => { x.claim s.now (l.map fun w => (0, w)) with seqr := x.seqr.advance s.now } with cur := s.cur }
    | .trap c d => s.modCore core fun x => x.seqFail c d q.t q.k
    | _ => s

/-- Whether the sequence of a core ends (R160): its last syllable has completed, which one that is no MMA has in the cycle
of its issue (log entry 114), and every step it handed has retired. -/
def Core.seqOver (x : Core) : Bool := x.seqr.run && x.seqr.count ≤ x.seqr.t && !x.handed MStep.seqr

/-- SEQUENCE_END (R160, R163). -/
def evSequenceEnd (core : Nat) (s : State) : State :=
  if (s.core core).seqOver then s.modCore core fun x => { x with seqr := { x.seqr with run := false } } else s

/-! ### Meanings -/

/-- REPCAP (R158). -/
def execRepcap (n : BitVec 6) (s : State) : Host.Outcome State Fault Refusal := s.aloneS fun s => semRepcap n s
/-- REPCAP_REL (R158). -/
def execRepcapRel (s : State) : Host.Outcome State Fault Refusal := s.aloneS fun s => semRepcapRel s
/-- REPGO (R159). -/
def execRepgo (a b : BitVec 6) (s : State) : Host.Outcome State Fault Refusal := s.aloneS fun s => semRepgo a b s
/-- REPWAIT (R163). -/
def execRepwait (d : BitVec 6) (s : State) : Host.Outcome State Fault Refusal := s.aloneS fun s => semRepwait d s
/-- SEQUENCER_ISSUE (R160). -/
def execSequencerIssue (core : Nat) (s : State) : Host.Outcome State Fault Refusal := .next (evSequencerIssue core s)
/-- SEQUENCE_END (R160). -/
def execSequenceEnd (core : Nat) (s : State) : Host.Outcome State Fault Refusal := .next (evSequenceEnd core s)

end Sys2Proof.Machine
end

