-- ==== Sys2Proof/Machine/Strainer.lean ====
section
/-! DEFINITION. The Strainer: cursors over compressed index streams (R166 to R184). -/

namespace Sys2Proof.Machine

/-- A cursor (R168). -/
def Core.cxOf (x : Core) (c : Nat) : Cursor := vget x.cx c Cursor.reset
/-- Sets a cursor. -/
def Core.setCx (x : Core) (c : Nat) (y : Cursor) : Core := { x with cx := vset x.cx c y }

/-- A HANDLE trap of this unit (R171). -/
def cxHandle (reason c : Nat) : Nat × W32 := (cHANDLE, hDetail reason c)

/-- The bytes of an index unit: a halfword for DLT16, a word otherwise (R166). -/
def Side.unit (s : Side) : Nat := if s.enc = 2 then 2 else 4
/-- The bytes of a value (R171). -/
def vfSize (f : Nat) : Nat := if f = 1 then 4 else 2
/-- The most entries that a side can have (R171). -/
def Side.maxEnt (s : Side) : Nat := if s.enc = 0 then 32 * s.len else s.len

/-- A side from its descriptor, not yet placed (R167). -/
def Side.ofDesc (d0 d1 : Nat) : Side :=
  { Side.reset with
    valid := true, len := fld d0 32 32, enc := fld d0 28 4, idx := fld d0 0 20
    org := fld d1 32 32, vfmt := fld d1 20 4, val := fld d1 0 20 }

/-- Reserved codes and coordinates past the end (R167), reserved bits apart. -/
def Side.malformed (s : Side) : Bool :=
  s.enc > 2 || s.vfmt > 3 || (s.enc = 0 && s.len > 0 && s.org + 32 * s.len - 1 > 0xFFFFFFFF)

/-- The span checks of a side, which fix its local bases: the lower cause of its two spans, the index array's of two alike (R171,
R184). -/
def Side.place (s : Side) (sg : W128) : Except (Nat × W32) Side :=
  if s.len = 0 then .ok s
  else
    let i := segLocal sg s.idx (s.len * s.unit) s.unit .load
    let v := if s.vfmt = 0 then .at s.lval else segLocal sg s.val (s.maxEnt * vfSize s.vfmt) (vfSize s.vfmt) .load
    match minTrap (i.offTrap s.idx) (v.offTrap s.val) with
    | some e => .error e
    | none => .ok { s with lidx := i.addr, lval := v.addr }

/-- The trap that a check comes to. -/
def trapOf? {α : Type} (r : Except (Nat × W32) α) : Option (Nat × W32) :=
  match r with
  | .ok _ => none
  | .error e => some e

/-- Continues with a result, or traps. -/
def orTrap {α : Type} (r : Except (Nat × W32) α) (k : α → Res) : Res :=
  match r with
  | .ok x => k x
  | .error (c, d) => .trap c d

/-- CXOPEN (R171). -/
def semCxopen (d : BitVec 3) (a : BitVec 6) (side : BitVec 1) (s : State) : Res :=
  let c := d.toNat
  let x := s.my.cxOf c
  if x.owner != none && x.owner != some s.cur.2 then orTrap (.error (cxHandle 1 c)) Res.ok
  else
    let off : Int := (s.rs a.toNat).toNat
    (s.seg0 off 16 8 .load).get off fun y =>
      if s.my.bad y 16 then .trap cECCFATAL (offDetail off)
      else
        let d0 := s.my.rd y 8
        let d1 := s.my.rd (y + 8) 8
        let n := Side.ofDesc d0 d1
        if n.malformed || fld d0 20 8 != 0 || fld d1 24 8 != 0 then orTrap (.error (cxHandle 4 c)) Res.ok
        else if n.idx % n.unit != 0 then .trap cALIGN (offDetail n.idx)
        else if n.vfmt != 0 && n.val % vfSize n.vfmt != 0 then .trap cALIGN (offDetail n.val)
        else
          orTrap (n.place (s.me.rsg 0)) fun n =>
            let keep := fun (o : Side) => { n with pos := o.pos, ord := o.ord, prev := o.prev, started := o.started }
            .ok ((s.touch s.cur.1 y 16).modMy fun q => q.setCx c
              { (if side = 0 then { x with a := keep x.a } else { x with b := keep x.b }) with
                owner := some s.cur.2, st := .opened, op := 0 })

/-- CXOPEN.rel (R171). -/
def semCxopenRel (d : BitVec 3) (s : State) : Res :=
  let c := d.toNat
  let x := s.my.cxOf c
  if x.owner != some s.cur.2 then orTrap (.error (cxHandle 1 c)) Res.ok
  else
    .ok (s.modMy fun q => q.setCx c
      { x with owner := none, st := .closed, a := { x.a with valid := false }, b := { x.b with valid := false } })

/-- A side back at its beginning (R172). -/
def Side.rewind (s : Side) : Side := { s with pos := 0, ord := 0, prev := 0, started := false }

/-- CXAND, CXOR and CXDIFF (R172); of a CLOSED cursor HANDLE, whatever its sides (R169). -/
def cxStart (op : Nat) (d : BitVec 3) (a b : BitVec 6) (s : State) : Res :=
  let c := d.toNat
  let x := s.my.cxOf c
  if x.owner != some s.cur.2 then orTrap (.error (cxHandle 1 c)) Res.ok
  else if !x.a.valid || !x.b.valid then orTrap (.error (cxHandle 2 c)) Res.ok
  else if x.st = .closed then orTrap (.error (cxHandle 3 c)) Res.ok
  else
    let lo := (s.rs a.toNat).toNat % 2 ^ 32
    let hi := min (s.rs b.toNat).toNat (2 ^ 32)
    .ok (s.modMy fun q => q.setCx c
      { x with op := op, lo := lo, hi := hi, a := x.a.rewind, b := x.b.rewind, st := if hi ≤ lo then .ended else .run })

def semCxand (d : BitVec 3) (a b : BitVec 6) (s : State) : Res := cxStart 1 d a b s
def semCxor (d : BitVec 3) (a b : BitVec 6) (s : State) : Res := cxStart 2 d a b s
def semCxdiff (d : BitVec 3) (a b : BitVec 6) (s : State) : Res := cxStart 3 d a b s

/-! ### Windows -/

/-- The next entry of a side (R173), with the position after it; or why there is none to read. -/
inductive Nx where
  | ended
  | stop
  | coord (c np : Nat)
  deriving DecidableEq, Repr

/-- A read of a cursor, at the local base fixed at the opening; `off` is the sg0 offset of the array (R177). -/
def Core.cxRead (x : Core) (base off at_ n : Nat) : Except (Nat × W32) Nat :=
  if x.bad (base + at_) n then .error (cECCFATAL, offDetail (off + at_ : Nat)) else .ok (x.rd (base + at_) n)

/-- The next entry of a BMAP side from position `pos`, passing over empty visible words (R173): what it is, and the
position reached. -/
def Core.nextBmap (x : Core) (s : Side) (limit hi : Nat) (full : Bool) (pos : Nat) :
    Nat → Except (Nat × W32) (Nx × Nat)
  | 0 => .ok (.stop, pos)
  | n + 1 =>
    let w := pos / 32
    if s.len ≤ w || hi ≤ s.org + 32 * w then .ok (.ended, pos)
    else if limit < 4 * w + 4 then .ok (.stop, pos)
    else
      match x.cxRead s.lidx s.idx (4 * w) 4 with
      | .error e => .error e
      | .ok v =>
        let bit := ctzFrom v (pos % 32) (32 - pos % 32) + pos % 32
        if bit = 32 then x.nextBmap s limit hi full (32 * (w + 1)) n
        else
          let c := s.org + 32 * w + bit
          .ok (if hi ≤ c then .ended else if full then .stop else .coord c (32 * w + bit + 1), pos)

/-- The next entry of side `i` (0 A, 1 B) (R166, R173, R175): `limit` is the first index byte it may not read, `full`
that it has consumed 32 entries, so that an entry it can read is END or not visible, and checked by a later window. -/
def Core.nextEnt (x : Core) (i : Nat) (s : Side) (limit hi : Nat) (full : Bool) : Except (Nat × W32) (Nx × Nat) :=
  let unsorted : Except (Nat × W32) (Nx × Nat) :=
    if full then .ok (.stop, s.pos) else .error (cUNSORTED, BitVec.ofNat 32 (i * 2 ^ 31 + s.ord % 2 ^ 31))
  let found := fun (c np : Nat) => if hi ≤ c then Nx.ended else if full then .stop else .coord c np
  if s.enc = 0 then x.nextBmap s limit hi full s.pos 34
  else if s.len ≤ s.pos then .ok (.ended, s.pos)
  else if limit < s.unit * (s.pos + 1) then .ok (.stop, s.pos)
  else
    match x.cxRead s.lidx s.idx (s.unit * s.pos) s.unit with
    | .error e => .error e
    | .ok v =>
      if s.enc = 1 then
        if s.started && v ≤ s.prev then unsorted else .ok (found v (s.pos + 1), s.pos)
      else if s.pos = 0 then (if s.org + v > 0xFFFFFFFF then unsorted else .ok (found (s.org + v) 1, s.pos))
      else if v != 0 then
        if s.prev + v > 0xFFFFFFFF then unsorted else .ok (found (s.prev + v) (s.pos + 1), s.pos)
      else if limit < 2 * (s.pos + 3) then .ok (.stop, s.pos)
      else if s.len < s.pos + 3 then unsorted
      else
        match x.cxRead s.lidx s.idx (2 * s.pos + 2) 4 with
        | .error e => .error e
        | .ok c => if c ≤ s.prev then unsorted else .ok (found c (s.pos + 3), s.pos)

/-- A window under way (R173, R174): the sides, what each has consumed, the pairs emitted, newest first, the values
read for skipped entries and the special ones among them, and whether the cursor has ended. -/
structure Walk where
  a : Side
  b : Side
  ca : Nat
  cb : Nat
  out : List (Nat × Nat × Nat)
  vals : List Nat
  special : Nat
  ended : Bool

/-- consume(S) (R174). -/
def Side.consume (s : Side) (c np : Nat) : Side := { s with pos := np, prev := c, started := true, ord := s.ord + 1 }

/-- Whether a value is an infinity or a NaN (R176). -/
def vfSpecial (f v : Nat) : Bool :=
  let F := if f = 1 then Fmt.f32 else if f = 2 then .f16 else .bf16
  (F.val v).isInf || (F.val v).isNan

/-- The value read of a skipped entry under STRICT (R176). -/
def Core.skipRead (x : Core) (strict : Bool) (s : Side) (w : Walk) : Except (Nat × W32) Walk :=
  if !strict || s.vfmt = 0 then .ok w
  else
    let n := vfSize s.vfmt
    match x.cxRead s.lval s.val (s.ord * n) n with
    | .error e => .error e
    | .ok v =>
      .ok { w with
        vals := (s.lval + s.ord * n) :: w.vals
        special := w.special + (vfSpecial s.vfmt v).toNat }

/-- The parameters of a window (R173, R174): operation, range, first bytes that the sides may not read, and STRICT. -/
structure WalkP where
  op : Nat
  lo : Nat
  hi : Nat
  la : Nat
  lb : Nat
  strict : Bool

/-- The entries of both sides that come next, those below LO consumed first (R174); of two sides at fault in one window the first in
the order of the walk is named: DESIGN CHOICE (log entry 140). -/
def Core.walkNext (x : Core) (p : WalkP) (w : Walk) : Nat → Except (Nat × W32) (Walk × Nx × Nx)
  | 0 => .ok (w, .stop, .stop)
  | n + 1 =>
    match x.nextEnt 0 w.a p.la p.hi (32 ≤ w.ca) with
    | .error e => .error e
    | .ok (na, pa) =>
      let w := { w with a := { w.a with pos := pa } }
      let below := match na with
        | .coord c np => if c < p.lo then some (c, np) else none
        | _ => none
      match below with
      | some (c, np) => x.walkNext p { w with a := w.a.consume c np, ca := w.ca + 1 } n
      | none =>
        match x.nextEnt 1 w.b p.lb p.hi (32 ≤ w.cb) with
        | .error e => .error e
        | .ok (nb, pb) =>
          let w := { w with b := { w.b with pos := pb } }
          match nb with
          | .coord c np =>
            if c < p.lo then x.walkNext p { w with b := w.b.consume c np, cb := w.cb + 1 } n else .ok (w, na, nb)
          | _ => .ok (w, na, nb)

/-- Emits a pair (R174). -/
def Walk.emit (w : Walk) (c oa ob : Nat) : Walk := { w with out := (c, oa, ob) :: w.out }
/-- Consumes the next entry of side A, or of side B. -/
def Walk.eatA (w : Walk) (c np : Nat) : Walk := { w with a := w.a.consume c np, ca := w.ca + 1 }
def Walk.eatB (w : Walk) (c np : Nat) : Walk := { w with b := w.b.consume c np, cb := w.cb + 1 }

/-- ABSENT, which also fills the lanes without a pair (R174). -/
def cxAbsent : Nat := 0xFFFFFFFF

/-- One turn of a window's loop, once both sides' next entries are known and it goes on (R174). -/
def Core.walkStep (x : Core) (p : WalkP) (w : Walk) (na nb : Nx) : Except (Nat × W32) Walk :=
  let skipA := fun (w : Walk) (c np : Nat) => (x.skipRead p.strict w.a w).map fun w => w.eatA c np
  let skipB := fun (w : Walk) (c np : Nat) => (x.skipRead p.strict w.b w).map fun w => w.eatB c np
  match p.op, na, nb with
  | 1, .coord a pa, .coord b pb =>
    if a < b then skipA w a pa else if b < a then skipB w b pb
    else .ok (((w.emit a w.a.ord w.b.ord).eatA a pa).eatB b pb)
  | 2, .coord a pa, .coord b pb =>
    if a < b then .ok ((w.emit a w.a.ord cxAbsent).eatA a pa)
    else if b < a then .ok ((w.emit b cxAbsent w.b.ord).eatB b pb)
    else .ok (((w.emit a w.a.ord w.b.ord).eatA a pa).eatB b pb)
  | 2, .coord a pa, _ => .ok ((w.emit a w.a.ord cxAbsent).eatA a pa)
  | 2, _, .coord b pb => .ok ((w.emit b cxAbsent w.b.ord).eatB b pb)
  | 3, .coord a pa, .coord b pb =>
    if b < a then skipB w b pb
    else if b = a then
      match skipA w a pa with
      | .error e => .error e
      | .ok w => skipB w b pb
    else .ok ((w.emit a w.a.ord cxAbsent).eatA a pa)
  | 3, .coord a pa, _ => .ok ((w.emit a w.a.ord cxAbsent).eatA a pa)
  | _, _, _ => .ok w

/-- The loop of a window (R174); with OP none it emits nothing, and a side that is not VALID is walked at base 0: DESIGN CHOICE
(log entry 139). -/
def Core.walk (x : Core) (p : WalkP) (w : Walk) : Nat → Except (Nat × W32) Walk
  | 0 => .ok w
  | n + 1 =>
    match x.walkNext p w 66 with
    | .error e => .error e
    | .ok (w, na, nb) =>
      if (p.op = 1 && (na = .ended || nb = .ended)) || (p.op = 2 && na = .ended && nb = .ended)
          || (p.op = 3 && na = .ended) then .ok { w with ended := true }
      else if w.out.length = 32 || na = .stop || nb = .stop then .ok w
      else
        match x.walkStep p w na nb with
        | .error e => .error e
        | .ok w => x.walk p w n

/-- The byte at which a side's window starts, within its index array (R173); of a BMAP side it is that of the word that holds POS:
DESIGN CHOICE (log entry 138). -/
def Side.windowAt (s : Side) : Nat := if s.enc = 0 then s.pos / 32 * 4 else s.unit * s.pos

/-- The bytes of a side's index array. -/
def Side.bytes (s : Side) : Nat := s.len * s.unit

/-- Corrects what a window reads of a side's index array (R20, R177). -/
def State.touchSide (s : State) (c : Nat) (d : Side) : State :=
  s.touch c (d.lidx + d.windowAt) (min 128 (d.bytes - d.windowAt))

/-- The trap of a destination of CXNEXT that is bound as a stream (R178). -/
def State.boundTrap (s : State) (d n : Nat) : Option (Nat × W32) :=
  ((List.range n).find? fun k => (s.bound s.cur.1 s.cur.2 (d + k)).isSome).map fun k => (cHANDLE, hDetail 1 (d + k))

/-- The checks of both modes of CXNEXT before the window (R174, R178). Of several HANDLEs the cursor's DETAIL is given before a
bound destination's, and that before word mode's reason 5: DESIGN CHOICE (log entry 142). -/
def State.cxCheck (s : State) (d c : Nat) : Option (Nat × W32) :=
  let x := s.my.cxOf c
  if x.owner != some s.cur.2 then some (cxHandle 1 c)
  else if x.st = .opened || x.st = .closed then some (cxHandle 3 c)
  else s.boundTrap d 3

/-- Writes a window's three registers, its mask and its predicate (R174, R179). -/
def State.window (s : State) (d m p : Nat) (f : Nat → Nat × Nat × Nat) (n : Nat) (fin : Bool) : State :=
  let s := ((s.wv d (VReg.ofElems 32 fun j => (f j).1)).wv (d + 1) (VReg.ofElems 32 fun j => (f j).2.1)).wv (d + 2)
    (VReg.ofElems 32 fun j => (f j).2.2)
  (s.wm m (BitVec.ofNat 32 (2 ^ n - 1))).wp p fin

/-- CXNEXT in pair mode (R173 to R178). -/
def semCxnext (d : BitVec 6) (c p m : BitVec 3) (s : State) : Res :=
  match s.cxCheck d.toNat c.toNat with
  | some (e, dt) => .trap e dt
  | none =>
    let x := s.my.cxOf c.toNat
    let fill := (cxAbsent, cxAbsent, cxAbsent)
    if x.st = .ended then .ok (s.window d.toNat m.toNat p.toNat (fun _ => fill) 0 true)
    else
      let strict := s.me.fxc.getLsbD 8
      let pr : WalkP := ⟨x.op, x.lo, x.hi, x.a.windowAt + 128, x.b.windowAt + 128, strict⟩
      orTrap (s.my.walk pr ⟨x.a, x.b, 0, 0, [], [], 0, false⟩ 68) fun w =>
        let prs := w.out.reverse
        let t := (s.touchSide s.cur.1 x.a).touchSide s.cur.1 x.b
        let t := w.vals.foldl (fun t a => t.touch s.cur.1 a 2) t
        let t := t.modMy fun q => (q.setCx c.toNat
          { x with a := w.a, b := w.b, st := if w.ended then .ended else x.st }).count 7 w.special
        .ok (t.window d.toNat m.toNat p.toNat (fun j => prs.getD j fill) prs.length w.ended)

/-! ### Word mode -/

/-- q and H of the next word-mode window (R179). -/
def Cursor.wordQ (x : Cursor) : Nat × Nat :=
  let na := x.a.org + x.a.pos
  let nb := x.b.org + x.b.pos
  let ea := x.a.org + 32 * x.a.len
  let eb := x.b.org + 32 * x.b.len
  match x.op with
  | 1 => (max x.lo (max na nb), min x.hi (min ea eb))
  | 2 =>
    let h := min x.hi (max ea eb)
    let q := if na < ea && nb < eb then min na nb else if na < ea then na else if nb < eb then nb else h
    (if na < ea || nb < eb then max x.lo q else h, h)
  | _ => (max x.lo na, min x.hi ea)

/-- Word g − ORG/32 of a bitmap side, or 0 outside it (R179). -/
def Core.wordOf (x : Core) (s : Side) (g : Nat) : Except (Nat × W32) Nat :=
  if g < s.org / 32 || s.len ≤ g - s.org / 32 then .ok 0 else x.cxRead s.lidx s.idx (4 * (g - s.org / 32)) 4

/-- The set bits of a side at bit positions `lo` to `hi` − 1, over the words from `w` on (R179). -/
def Core.sideBits (x : Core) (s : Side) (lo hi w : Nat) : Nat → Except (Nat × W32) Nat
  | 0 => .ok 0
  | n + 1 =>
    match x.cxRead s.lidx s.idx (4 * w) 4 with
    | .error e => .error e
    | .ok v =>
      let l := lo - 32 * w
      let h := min (hi - 32 * w) 32
      match x.sideBits s lo hi (w + 1) n with
      | .error e => .error e
      | .ok k => .ok (popcount (v / 2 ^ l % 2 ^ (h - l)) 32 + k)

/-- The set bits of a side at bit positions `lo` to `hi` − 1. -/
def Core.countBits (x : Core) (s : Side) (lo hi : Nat) : Except (Nat × W32) Nat :=
  if hi ≤ lo then .ok 0 else x.sideBits s lo hi (lo / 32) ((hi + 31) / 32 - lo / 32)

/-- A side moved to the window's end (R179). -/
def Core.wordMove (x : Core) (s : Side) (fin : Nat) : Except (Nat × W32) Side :=
  let t := min (max s.pos (fin - s.org)) (32 * s.len)
  (x.countBits s s.pos t).map fun k => { s with ord := s.ord + k, pos := t }

/-- The words of `n` lanes from word `g` on (R179). -/
def Core.wordLanes (x : Core) (a b : Side) (g : Nat) : Nat → Except (Nat × W32) (List (Nat × Nat))
  | 0 => .ok []
  | n + 1 =>
    match x.wordOf a g with
    | .error e => .error e
    | .ok wa =>
      match x.wordOf b g with
      | .error e => .error e
      | .ok wb => (x.wordLanes a b (g + 1) n).map fun l => (wa, wb) :: l

/-- CXNEXT.w (R178, R179); OP none is taken as DIFF (log entry 139). -/
def semCxnextW (d : BitVec 6) (c p m : BitVec 3) (s : State) : Res :=
  match s.cxCheck d.toNat c.toNat with
  | some (e, dt) => .trap e dt
  | none =>
    let x := s.my.cxOf c.toNat
    if x.a.enc != 0 || x.b.enc != 0 || x.a.org % 32 != 0 || x.b.org % 32 != 0 then
      orTrap (.error (cxHandle 5 c.toNat)) Res.ok
    else
      let q := x.wordQ.1
      let h := x.wordQ.2
      if x.st = .ended || h ≤ q then
        .ok ((s.modMy fun y => y.setCx c.toNat { x with st := .ended }).window d.toNat m.toNat p.toNat
          (fun _ => (0, 0, 0)) 0 true)
      else
        let g := q / 32
        let n := min 32 ((h + 31) / 32 - g)
        let fin := 32 * (g + n)
        orTrap (s.my.wordLanes x.a x.b g n) fun l =>
          orTrap (s.my.wordMove x.a fin) fun a =>
            orTrap (s.my.wordMove x.b fin) fun b =>
              let keep := fun j => 2 ^ (min 32 (h - 32 * (g + j))) - 2 ^ (q - 32 * (g + j))
              let comb := fun (u v : Nat) => match x.op with
                | 1 => u &&& v
                | 2 => u ||| v
                | _ => u ^^^ (u &&& v)
              let lane := fun j => match l[j]? with
                | some (u, v) => (comb u v &&& keep j, u, v)
                | none => (0, 0, 0)
              let ended := h ≤ fin
              let t := ((s.touchSide s.cur.1 x.a).touchSide s.cur.1 x.b).modMy fun y => y.setCx c.toNat
                { x with a := a, b := b, st := if ended then .ended else x.st }
              .ok (t.window d.toNat m.toNat p.toNat lane n ended)

/-! ### Status, splitting and images -/

/-- The code of a cursor's state (R180). -/
def CxSt.code : CxSt → Nat
  | .closed => 0
  | .opened => 1
  | .run => 2
  | .ended => 3

/-- The state of a code (R183). -/
def CxSt.ofCode (n : Nat) : CxSt := match n with
  | 0 => .closed
  | 1 => .opened
  | 2 => .run
  | _ => .ended

/-- The status word (R180). -/
def Cursor.status (x : Cursor) : Nat :=
  x.b.enc * 4096 + x.a.enc * 256 + x.b.valid.toNat * 64 + x.a.valid.toNat * 32 + x.op * 8 + x.st.code

/-- The word base of a side (R180): of a BMAP side, the entries below the word of its position. It is counted in the store, and a
double-bit error there traps ECCFATAL: DESIGN CHOICE (log entry 141). -/
def Core.wordBase (x : Core) (s : Side) : Except (Nat × W32) Nat :=
  if s.enc = 0 then x.countBits s 0 (min (s.pos / 32 * 32) (32 * s.len)) else .ok s.ord

/-- Corrects what the word base of a side reads of its bitmap (R20). -/
def State.touchBase (s : State) (d : Side) : State :=
  if d.enc = 0 then s.touch s.cur.1 d.lidx (4 * min (d.pos / 32) d.len) else s

/-- CXSTAT (R180). -/
def semCxstat (d : BitVec 6) (a : BitVec 3) (which : BitVec 6) (s : State) : Res :=
  let x := s.my.cxOf a.toNat
  if x.owner != some s.cur.2 then orTrap (.error (cxHandle 1 a.toNat)) Res.ok
  else
    let put := fun (v : Nat) => Res.ok (s.ws d.toNat (BitVec.ofNat 64 v))
    let base := fun (e : Side) => orTrap (s.my.wordBase e) fun v => .ok ((s.touchBase e).ws d.toNat (BitVec.ofNat 64 v))
    match which.toNat with
    | 0 => put x.status
    | 1 => put x.a.ord
    | 2 => put x.b.ord
    | 3 => base x.a
    | 4 => base x.b
    | _ => put (if x.st = .run then x.wordQ.1 else 0xFFFFFFFF)

/-- CXSPLIT (R181). -/
def semCxsplit (d a p : BitVec 3) (s : State) : Res :=
  let xa := s.my.cxOf a.toNat
  let xd := s.my.cxOf d.toNat
  if xa.owner != some s.cur.2 then orTrap (.error (cxHandle 1 a.toNat)) Res.ok
  else if xd.owner != none && xd.owner != some s.cur.2 then orTrap (.error (cxHandle 1 d.toNat)) Res.ok
  else if !(xa.st = .run && xa.a.enc = 1 && 64 ≤ xa.a.len - xa.a.ord) then .ok (s.wp p.toNat false)
  else
    let mid := xa.a.ord + (xa.a.len - xa.a.ord) / 2
    orTrap (s.my.cxRead xa.a.lidx xa.a.idx (4 * mid) 4) fun c =>
      orTrap (s.my.cxRead xa.a.lidx xa.a.idx (4 * xa.a.ord) 4) fun c0 =>
        let s := (s.touch s.cur.1 (xa.a.lidx + 4 * mid) 4).touch s.cur.1 (xa.a.lidx + 4 * xa.a.ord) 4
        if c0 < c && xa.lo < c && c < xa.hi then
          .ok ((s.modMy fun x => (x.setCx d.toNat { xa with
            owner := some s.cur.2, lo := c, a := { xa.a with pos := mid, ord := mid, started := false } }).setCx a.toNat
              { xa with hi := c }).wp p.toNat true)
        else .ok (s.wp p.toNat false)

/-- The descriptor dwords of a side in an image (R183): dword 0 without its control bits; both 0 when it is invalid. -/
def Side.desc0 (s : Side) : Nat := if s.valid then s.len * 2 ^ 32 + s.enc * 2 ^ 28 + s.idx else 0
def Side.desc1 (s : Side) : Nat := if s.valid then s.org * 2 ^ 32 + s.vfmt * 2 ^ 20 + s.val else 0

/-- The image of a cursor (R183). -/
def Cursor.image (x : Cursor) : Nat :=
  let empty := x.hi ≤ x.lo
  let dw := fun (k v : Nat) => v * 2 ^ (64 * k)
  dw 0 (x.a.desc0 + x.a.valid.toNat * 2 ^ 27 + x.a.started.toNat * 2 ^ 26 + x.op * 2 ^ 24 + x.st.code * 2 ^ 22
      + (if empty then 2 ^ 20 else 0))
    + dw 1 x.a.desc1
    + dw 2 (x.b.desc0 + x.b.valid.toNat * 2 ^ 27 + x.b.started.toNat * 2 ^ 26 + x.owner.isSome.toNat * 2 ^ 25
      + x.owner.getD 0 * 2 ^ 21)
    + dw 3 x.b.desc1 + dw 4 (x.a.pos * 2 ^ 32 + x.a.ord) + dw 5 (x.b.pos * 2 ^ 32 + x.b.ord)
    + dw 6 (x.a.prev * 2 ^ 32 + x.b.prev) + dw 7 (if empty then 0 else x.lo * 2 ^ 32 + (x.hi - 1))

/-- CXSAVE (R182, R323). -/
def semCxsave (a : BitVec 3) (b : BitVec 6) (s : State) : Res :=
  let x := s.my.cxOf a.toNat
  if x.owner != some s.cur.2 && !s.me.level then orTrap (.error (cxHandle 1 a.toNat)) Res.ok
  else
    let off : Int := (s.rs b.toNat).toNat
    (s.seg0 off 64 8 .store).get off fun y => .ok (s.modMy fun q => q.wr y 64 x.image)

/-- A side of an image, not yet placed (R183). -/
def Side.ofImage (d0 d1 pos prev : Nat) : Side :=
  { Side.ofDesc (d0 - fld d0 20 8 * 2 ^ 20) d1 with
    valid := fld d0 27 1 = 1, started := fld d0 26 1 = 1, pos := fld pos 32 32, ord := fld pos 0 32, prev := prev }

/-- Whether a side of an image is malformed, where it is VALID, or stands past its end, VALID or not (R182; log entry 35). -/
def Side.imageBad (s : Side) (d1 : Nat) : Bool :=
  (s.valid && (s.malformed || fld d1 24 8 != 0)) || s.pos > (if s.enc = 0 then 32 * s.len else s.len)

/-- The span checks of an image's side, made only when it is VALID (R182). -/
def Side.placeValid (s : Side) (sg : W128) : Except (Nat × W32) Side := if s.valid then s.place sg else .ok s

/-- CXREST (R182, R183, R323): the lower cause of its spans' faults, side A's of two alike (R184). An image with STATE RUN and OP
none, or with a side that is not VALID, is loaded: DESIGN CHOICE (log entry 139). -/
def semCxrest (d : BitVec 3) (a : BitVec 6) (s : State) : Res :=
  let o := (s.my.cxOf d.toNat).owner
  if !s.me.level && o != none && o != some s.cur.2 then orTrap (.error (cxHandle 1 d.toNat)) Res.ok
  else
    let off : Int := (s.rs a.toNat).toNat
    (s.seg0 off 64 8 .load).get off fun y =>
      if s.my.bad y 64 then .trap cECCFATAL (offDetail off)
      else
        let w := fun k => s.my.rd (y + 8 * k) 8
        let sa := Side.ofImage (w 0) (w 1) (w 4) (fld (w 6) 32 32)
        let sb := Side.ofImage (w 2) (w 3) (w 5) (fld (w 6) 0 32)
        let empty := fld (w 0) 20 1 = 1
        if sa.imageBad (w 1) || sb.imageBad (w 3) || (empty && w 7 != 0) then
          orTrap (.error (cxHandle 4 d.toNat)) Res.ok
        else
          match sa.placeValid (s.me.rsg 0), sb.placeValid (s.me.rsg 0) with
          | .ok sa, .ok sb =>
            let own := if s.me.level then (if fld (w 2) 25 1 = 1 then some (fld (w 2) 21 4) else none) else some s.cur.2
            .ok ((s.touch s.cur.1 y 64).modMy fun q => q.setCx d.toNat
              ⟨sa, sb, fld (w 0) 24 2, if empty then 0 else fld (w 7) 32 32, if empty then 0 else fld (w 7) 0 32 + 1,
                CxSt.ofCode (fld (w 0) 22 2), own⟩)
          | ra, rb =>
            let e := (minTrap (trapOf? ra) (trapOf? rb)).getD (0, 0)
            .trap e.1 e.2

/-! ### Meanings -/

/-- CXOPEN (R171). -/
def execCxopen (d : BitVec 3) (a : BitVec 6) (side : BitVec 1) (s : State) : Host.Outcome State Fault Refusal :=
  s.aloneS fun s => semCxopen d a side s
/-- CXOPEN_REL (R171). -/
def execCxopenRel (d : BitVec 3) (s : State) : Host.Outcome State Fault Refusal := s.aloneS fun s => semCxopenRel d s
/-- CXAND (R172). -/
def execCxand (d : BitVec 3) (a b : BitVec 6) (s : State) : Host.Outcome State Fault Refusal :=
  s.aloneS fun s => semCxand d a b s
/-- CXOR (R172). -/
def execCxor (d : BitVec 3) (a b : BitVec 6) (s : State) : Host.Outcome State Fault Refusal :=
  s.aloneS fun s => semCxor d a b s
/-- CXDIFF (R172). -/
def execCxdiff (d : BitVec 3) (a b : BitVec 6) (s : State) : Host.Outcome State Fault Refusal :=
  s.aloneS fun s => semCxdiff d a b s
/-- CXNEXT (R174). -/
def execCxnext (d : BitVec 6) (c p m : BitVec 3) (s : State) : Host.Outcome State Fault Refusal :=
  s.aloneS fun s => semCxnext d c p m s
/-- CXNEXT_W (R179). -/
def execCxnextW (d : BitVec 6) (c p m : BitVec 3) (s : State) : Host.Outcome State Fault Refusal :=
  s.aloneS fun s => semCxnextW d c p m s
/-- CXSPLIT (R181). -/
def execCxsplit (d a p : BitVec 3) (s : State) : Host.Outcome State Fault Refusal :=
  s.aloneS fun s => semCxsplit d a p s
/-- CXSAVE (R182). -/
def execCxsave (a : BitVec 3) (b : BitVec 6) (s : State) : Host.Outcome State Fault Refusal :=
  s.aloneS fun s => semCxsave a b s
/-- CXREST (R182). -/
def execCxrest (d : BitVec 3) (a : BitVec 6) (s : State) : Host.Outcome State Fault Refusal :=
  s.aloneS fun s => semCxrest d a s
/-- CXSTAT (R180). -/
def execCxstat (d : BitVec 6) (a : BitVec 3) (which : BitVec 6) (s : State) : Host.Outcome State Fault Refusal :=
  s.aloneS fun s => semCxstat d a which s

end Sys2Proof.Machine
end

