-- ==== Sys2Proof/Machine/Mailbox.lean ====
section
/-! DEFINITION. The arrival of mailbox messages and user-level interrupts (R301, R304, R305, R338). -/

namespace Sys2Proof.Machine

/-- Whether a message is to be delivered as an interrupt where that is possible (R301). -/
def msgU (m : Msg) : Bool := m.m0.getLsbD 8

/-- Whether a slot can take an interrupt (R305). -/
def Slot.able (t : Slot) (i : Nat) : Bool :=
  i ≤ 13 && t.ue && !t.ua && t.mst != .joined &&
    match t.st, t.held with
    | .ready, _ => true
    | .waiting, .waitmsg _ => true
    | .waiting, .sleep _ _ => true
    | .waiting, .join _ => true
    | .waiting, .dqpop _ => true
    | _, _ => false

/-- The registers of a slot that takes an interrupt (R305): a wait is abandoned, its bundle the interrupted PC. -/
def Slot.interrupt (t : Slot) (m0 m1 : W64) : Slot :=
  { t with
    ua := true, level := false, st := .ready, held := .none, pc := codePc t.ulivec
    sh := vset (vset (vset t.sh 0 m0) 1 m1) 2 t.pc }

/-- Delivers an interrupt to a slot, which may issue from the next cycle on (R305); a wait that it ends counts from the
cycle's end on (R55). -/
def State.interrupt (s : State) (c i : Nat) (m0 m1 : W64) : State :=
  let waited := (s.slot c i).st = .waiting
  let s := s.modSlot c i fun t => { t.interrupt m0 m1 with bar := some (t.bar.getD 0) }
  if waited then s.modCore c fun x => { x with woken := x.woken + 1 } else s

/-- The place that a delivered message's command held is free (R285, R304). -/
def State.msgDone (s : State) (m : Msg) : State :=
  match m.src with
  | none => s
  | some (c, id) => s.modCore c fun x => { x with cq := x.cq.map fun l => l.filter fun q => q.id != id }

/-- A message enters a mailbox; it ends SLEEP, WAITMSG without .cr, and the search of a DQPOP (R227, R304). -/
def State.mailEnter (s : State) (c i : Nat) (m : Msg) : State :=
  let s := (s.modSlot c i fun t => { t with mail := t.mail ++ [{ m with src := none }] }).msgDone m
  match (s.slot c i).held with
  | .sleep d _ => s.endSleep c i d
  | .waitmsg false => s.wake c i
  | .dqpop q => s.deliverNone c i q.k
  | _ => s

/-- What becomes of a message at its slot (R304, R305); a pending TIMER interrupt comes before it (R338). -/
def State.mailIn (s : State) (c i : Nat) (m : Msg) : State :=
  let t := s.slot c i
  if t.st = .idle then s.msgDone m
  else if msgU m && t.able i && !t.timerInt && !(t.mail.any msgU) then (s.interrupt c i m.m0 m.m1).msgDone m
  else if t.mail.length < 16 && t.mailHeld.isEmpty then s.mailEnter c i m
  else s.modSlot c i fun t => { t with mailHeld := t.mailHeld ++ [m] }

/-- MESSAGE_ARRIVE (R200, R304). -/
def evMessageArrive (core slot : Nat) (msg : Msg) (s : State) : State :=
  s.arrive core (.messageArrive core slot msg) fun s => s.mailIn core slot msg

/-- Whether a held message of a slot may enter (R304). -/
def Slot.heldDue (t : Slot) : Bool := !t.mailHeld.isEmpty && (t.st = .idle || t.mail.length < 16)

/-- MAILBOX_HELD_ENTRY (R304): the oldest message held for a full mailbox enters. -/
def evMailboxHeldEntry (core slot : Nat) (s : State) : State :=
  let t := s.slot core slot
  if t.heldDue then
    match t.mailHeld with
    | [] => s
    | m :: l =>
      let s := s.modSlot core slot fun t => { t with mailHeld := l }
      if t.st = .idle then s.msgDone m else s.mailEnter core slot m
  else s

/-- Whether an interrupt is due at a slot (R305, R338). -/
def Slot.uliDue (t : Slot) (i : Nat) : Bool := t.able i && (t.timerInt || t.mail.any msgU)

/-- ULI_DELIVER (R305, R338): a pending TIMER interrupt first, else the oldest message with U = 1. -/
def evUliDeliver (core slot : Nat) (s : State) : State :=
  let t := s.slot core slot
  if !t.uliDue slot then s
  else if t.timerInt then (s.modSlot core slot fun t => { t with timerInt := false }).interrupt core slot 0x100 0
  else
    match t.mail.find? msgU with
    | none => s
    | some m => (s.modSlot core slot fun t => { t with mail := t.mail.eraseP msgU }).interrupt core slot m.m0 m.m1

/-- Sends a message from a core to a slot of its gang: in the same cycle on its own core, else within the bound of a
remote access (R304). -/
def State.mailTo (s : State) (c tid : Nat) (m : Msg) : State :=
  let h := s.ofTid c tid
  if h.1 = c then s.mailIn c h.2 m
  else
    s.sendTo c h.1 (fun e => match e with
      | .messageArrive d j n => d = h.1 && j = h.2 && n.src.map (·.1) = some c
      | _ => false) (.messageArrive h.1 h.2 m)

/-! ### Meanings -/

/-- MESSAGE_ARRIVE (R304). -/
def execMessageArrive (core slot : Nat) (msg : Msg) (s : State) : Host.Outcome State Fault Refusal :=
  .next (evMessageArrive core slot msg s)
/-- MAILBOX_HELD_ENTRY (R304). -/
def execMailboxHeldEntry (core slot : Nat) (s : State) : Host.Outcome State Fault Refusal :=
  .next (evMailboxHeldEntry core slot s)
/-- ULI_DELIVER (R305). -/
def execUliDeliver (core slot : Nat) (s : State) : Host.Outcome State Fault Refusal :=
  .next (evUliDeliver core slot s)

end Sys2Proof.Machine
end

