-- ==== Sys2Proof/Machine/Task.lean ====
section
/-! DEFINITION. Task instructions and the events of steals, searches, joins and cancellation (R222, R226 to R238). -/

namespace Sys2Proof.Machine

/-! ### Pushing -/

/-- Continues with the local address of a pushed record's join counter, 0 when it has none; the word is read, increased
and stored (R226). -/
def State.joinInc (s : State) (j : W64) (k : Nat → State → Res) : Res :=
  if !jrJV j then k 0 s
  else
    let off : Int := jrOff j
    (s.seg0 off 4 4 .store).get off fun x =>
      if !sgR (s.me.rsg 0) then .trap cRIGHTS (offDetail off)
      else if s.my.bad x 4 then .trap cECCFATAL (offDetail off)
      else k x ((s.touch s.cur.1 x 4).modMy fun y => y.wr x 4 ((y.rd x 4 + 1) % 2 ^ 32))

/-- The stage check of a push (R226, R233). -/
def State.stageCheck (s : State) (n : Nat) (k : Res) : Res :=
  let st := fld (s.rs (n + 2)).toNat 0 3
  if (s.my.stageEntry st).isNone then .trap cHANDLE (hDetail 6 st) else k

/-- The record of the executing slot's quad, its counter at local address `x` (R226). -/
def State.quadRec (s : State) (n x : Nat) : TaskRec :=
  let j := s.rs (n + 3)
  trOf (s.rs n) (s.rs (n + 1)) (s.rs (n + 2)) (jrJV j) s.my.rank (if jrJV j then x else 0) (s.gangNo s.cur.1)

/-- Parks the executing slot on a push that has left (R226). -/
def State.pushAway (s : State) (r : TaskRec) (k : Nat) (toQueue : Bool) (dest : Nat) : Res :=
  .hold none ((s.sendPush ⟨r, s.cur.1, s.cur.2, k, false, toQueue, dest⟩).await .parked (.push none))

/-- FORK (R226). -/
def semFork (n : BitVec 6) (k : BitVec 3) (s : State) : Res :=
  s.stageCheck n.toNat (s.joinInc (s.rs (n.toNat + 3)) fun x s =>
    let r := s.quadRec n.toNat x
    let die := s.die s.cur.1
    if trAffv r && trAff r != die then s.pushAway r k.toNat true (trAff r)
    else if bandsLen s.my.dq < 64 then .ok ((s.dqAdd s.cur.1 r).wp k.toNat true)
    else s.pushAway r k.toNat true die)

/-- FORKD (R226). -/
def semForkd (n : BitVec 6) (k : BitVec 3) (s : State) : Res :=
  s.stageCheck n.toNat (s.joinInc (s.rs (n.toNat + 3)) fun x s =>
    let r := s.quadRec n.toNat x
    s.pushAway r k.toNat true (if trAffv r then trAff r else s.die s.cur.1))

/-- DQPUSHR (R226). -/
def semDqpushr (n a : BitVec 6) (k : BitVec 3) (s : State) : Res :=
  s.stageCheck n.toNat (
    let rank := (s.rs a.toNat).toNat
    if rank ≥ s.my.gsize then .trap cHANDLE (hDetail 7 rank)
    else
      s.joinInc (s.rs (n.toNat + 3)) fun x s =>
        s.pushAway (s.quadRec n.toNat x) k.toNat false (s.rankCore s.cur.1 rank))

/-- SPLIT (R220, R233). -/
def semSplit (n : BitVec 6) (k : BitVec 3) (s : State) : Res :=
  s.stageCheck n.toNat (
    let n := n.toNat
    let j := s.me.curj
    let q := trOf (s.rs n) (s.rs (n + 1)) (s.rs (n + 2)) (jrJV j) (jrRank j) (jrOff j) (s.gangNo s.cur.1)
    let l := trLen q
    if !trRange q || l < 2 then .ok (s.wp k.toNat false)
    else
      let r := trSpan q (trLo q + l / 2) (trHi q)
      let push := fun (s : State) =>
        if bandsLen s.my.dq < 64 then
          Res.ok ((s.dqAdd s.cur.1 r).modMe fun t => (t.splitDone n r).wp k.toNat true)
        else
          .hold none ((s.sendPush ⟨r, s.cur.1, s.cur.2, k.toNat, true, true, s.die s.cur.1⟩).await .parked
            (.push (some n)))
      if !jrJV j then push s
      else
        let home := s.rankCore s.cur.1 (jrRank j)
        if home = s.cur.1 then
          if s.my.bad (jrOff j) 4 then .trap cECCFATAL (BitVec.ofNat 32 (jrOff j))
          else push ((s.touch home (jrOff j) 4).joinUpdate home (jrOff j) true)
        else
          .hold none ((s.sendReq home ⟨s.cur.1, s.cur.2, false, 0, .joinAdd, jrOff j, BitVec.ofNat 32 (jrOff j), 0, 0, 0⟩).await
            .parked (.incr n k.toNat r)))

/-! ### Taking -/

/-- Inserts a core by the id of its position (R353). -/
def State.insertPos (s : State) (d : Nat) : List Nat → List Nat
  | [] => [d]
  | e :: l => if s.pos d < s.pos e then d :: e :: l else e :: s.insertPos d l

/-- The cores of a Draught round, in the order of their visit (R227): the other cores of the cluster that hold a rank of
the gang, cyclically by position from the one after the requester; a spare core stands in its position (R353). -/
def State.draughtVisit (s : State) (c : Nat) : List Nat :=
  match s.gangOf c with
  | none => []
  | some g =>
    let near := (g.ranks.map (·.core)).filter fun d => d != c && s.die d = s.die c && s.cluster d = s.cluster c
    let up := near.foldl (fun l d => s.insertPos d l) []
    (up.filter fun d => s.pos c < s.pos d) ++ up.filter fun d => s.pos d < s.pos c

/-- A steal request of a slot, numbered, to be answered by a cycle (R228, R232). -/
def State.stealReq (s : State) (c i : Nat) (why : StealFor) (id till : Nat) : StealReq :=
  ⟨c, i, s.gangNo c, (s.core c).pinned i, s.die c, why, id, till⟩

/-- Whether a request of a slot's search is in flight (R230). -/
def State.searching (s : State) (c i : Nat) : Bool :=
  let mine := fun (q : StealReq) => q.src = c && q.slot = i && q.why = .dqpop
  let way := fun (e : Event) => match e with
    | .stealRequestArrive _ q => mine q
    | .dieQueueRequest _ q => mine q
    | .stealAnswerArrive d j w _ => d = c && j = i && w = .dqpop
    | _ => false
  s.agenda.any (fun e => way e.2) || s.hub.held.any (fun e => way e.2.2) || s.hub.wires.any (fun e => way e.2)
  || s.cores.any fun e => e.2.owed.any fun o => mine o.req

/-- The die that a level of the search takes from: level 3 the own, 4 the one before, 5 the one after (R227). -/
def searchDie (die level : Nat) : Nat := if level = 3 then die else if level = 4 then (die + 7) % 8 else (die + 1) % 8

/-- The deepest level that a scope searches (R227); level 4 of .pkg is two takes. -/
def scopeLevel (scope : Nat) : Nat := if scope = 3 then 5 else scope + 1

/-- A pass goes on to its next request, or ends with nothing found (R227). -/
def State.searchGo (s : State) (c i : Nat) (q : Search) : Nat → State
  | 0 => s
  | n + 1 =>
    if q.level > scopeLevel q.scope then
      if q.nowait then
        let s := s.modSlot c i fun t => { t with held := .dqpop { q with asked := true } }
        s.arrive c (.stealAnswerArrive c i .dqpop ⟨0, c, none⟩) fun s => s.deliverNone c i q.k
      else
        s.modSlot c i fun t => { t with held := .dqpop { q with level := 0, visit := [], asked := false, again := s.now + 1024 } }
    else if q.level = 2 then
      match q.visit with
      | [] => s.searchGo c i { q with level := 3 } n
      | d :: l =>
        let e : Event := .stealRequestArrive d (s.stealReq c i .dqpop 0 (q.round + 96))
        let s := s.modSlot c i fun t => { t with held := .dqpop { q with visit := l, asked := true } }
        if s.inTransit c d then { s with hub := { s.hub with held := s.hub.held ++ [(c, d, e)] } } else s.toDeque (s.stealWay c d .dqpop) e
    else if q.level ≤ 1 then s.searchGo c i { q with level := 2, visit := s.draughtVisit c, round := s.now } n
    else
      let die := searchDie (s.die c) q.level
      (s.modSlot c i fun t => { t with held := .dqpop { q with level := q.level + 1, asked := true } }).toDeque
        (s.dieBound c die / 2) (.dieQueueRequest die (s.stealReq c i .dqpop 0 (s.now + s.dieBound c die)))

/-- DQPOP (R227). -/
def semDqpop (n : BitVec 6) (j : BitVec 1) (scope : BitVec 2) (w : BitVec 1) (k : BitVec 3) (s : State) : Res :=
  let i := s.cur.2
  match s.my.localTake (s.gangNo s.cur.1) i with
  | some (r, x) =>
    let s := (s.marked s.cur.1 i r).setCore s.cur.1 x
    let pc := s.my.afterTake s.me (j = 1) r
    let s := s.modMe fun t => t.taken (s.my.role i) n.toNat k.toNat (j = 1) r
    if j = 1 then .jump pc s else .ok s
  | none =>
    if !s.me.mail.isEmpty || (w = 1 && scope = 0) then .ok (s.wp k.toNat false)
    else
      .hold none (s.await .waiting
        (.dqpop ⟨n.toNat, k.toNat, scope.toNat, w = 1, j = 1, 0, [], false, s.now, s.now, 0⟩))

/-- Whether a pass of a waiting DQPOP may start or go on (R227, R230). -/
def State.passDue (s : State) (c i : Nat) : Bool :=
  match (s.slot c i).held with
  | .dqpop q => !q.asked && (q.level != 0 || q.again ≤ s.now) && !(q.scope = 0) && !s.searching c i
  | _ => false

/-- DQPOP_PASS (R227): a pass over the levels starts; the core's network interface makes it. -/
def evDqpopPass (core slot : Nat) (s : State) : State :=
  if s.passDue core slot then
    match (s.slot core slot).held with
    | .dqpop q => s.searchGo core slot q 8
    | _ => s
  else s

/-- STEAL (R229). -/
def semSteal (n a : BitVec 6) (k : BitVec 3) (s : State) : Res :=
  let rank := (s.rs a.toNat).toNat
  if rank ≥ s.my.gsize then .trap cHANDLE (hDetail 7 rank)
  else
    let victim := s.rankCore s.cur.1 rank
    let id := s.nonce + 1
    let s := State.await { s with nonce := id } .parked (.steal n.toNat k.toNat id)
    let e : Event := .stealRequestArrive victim
      (s.stealReq s.cur.1 s.cur.2 .steal id (s.now + s.latBound s.cur.1 victim))
    .hold none (if s.inTransit s.cur.1 victim then
        { s with hub := { s.hub with held := s.hub.held ++ [(s.cur.1, victim, e)] } }
      else s.toDeque (s.stealWay s.cur.1 victim .steal) e)

/-- STEAL_REQUEST_ARRIVE (R199, R223, R228): the victim divides a range, gives up a record whole, or refuses. -/
def evStealRequestArrive (core : Nat) (req : StealReq) (s : State) : State :=
  let s := s.hear core
  let ok := eligible req.gang req.pinned (req.die != s.die core)
  match bandsTakeTop (s.core core).dq ok with
  | none => s.answer core req none
  | some (r, rest) =>
    if trRange r && trLen r ≥ 2 then
      let mid := trLo r + trLen r / 2
      let theirs := trSpan r mid (trHi r)
      let s := s.modCore core fun x => { x with dq := bandsSetTop x.dq ok (trSpan r (trLo r) mid) }
      if !jrJV r.w3 then s.answer core req (some theirs)
      else
        let home := s.rankCore core (jrRank r.w3)
        if home = core then (s.joinUpdate core (jrOff r.w3) true).answer core req (some theirs)
        else s.owe core home req theirs
    else (s.modCore core fun x => { x with dq := rest }).answer core req (some r)

/-- DIE_QUEUE_REQUEST (R223): the oldest eligible record of the highest band, whole, or a refusal. -/
def evDieQueueRequest (die : Nat) (req : StealReq) (s : State) : State :=
  match bandsTakeTop (s.dieQueue die) (eligible req.gang req.pinned (req.die != die)) with
  | none => s.answer (queueId die) req none
  | some (r, rest) => State.answer { s with dieq := vset s.dieq die rest } (queueId die) req (some r)

/-- STEAL_ANSWER_ARRIVE (R227 to R230): the record is delivered, or finds no taker and joins the deque; a refusal ends the
STEAL that it answers, or the search goes on. -/
def evStealAnswerArrive (core slot : Nat) (why : StealFor) (ans : StealAns) (s : State) : State :=
  let t := s.slot core slot
  match why, t.held, ans.task with
  | .dqpop, .dqpop q, some r =>
    if q.asked then
      s.arrive core (.stealAnswerArrive core slot why ans) fun s => s.deliver core slot q.n q.k q.jump r
    else s.dqAdd core r
  | .dqpop, .dqpop q, none =>
    if !q.asked then s
    else if q.nowait && q.level > scopeLevel q.scope then
      s.arrive core (.stealAnswerArrive core slot why ans) fun s => s.deliverNone core slot q.k
    else s.searchGo core slot { q with asked := false } 8
  | .steal, .steal n k id, some r =>
    if id = ans.id then s.arrive core (.stealAnswerArrive core slot why ans) fun s => s.deliver core slot n k false r
    else s.dqAdd core r
  | .steal, .steal _ k id, none =>
    if id = ans.id then s.arrive core (.stealAnswerArrive core slot why ans) fun s => s.deliverNone core slot k else s
  | _, _, some r => s.dqAdd core r
  | _, _, none => s

/-! ### Joining and ending -/

/-- JOIN (R235). -/
def semJoin (a : BitVec 6) (s : State) : Res :=
  let off : Int := (s.rs a.toNat).toNat
  (s.seg0 off 4 4 .load).get off fun x =>
    if s.my.bad x 4 then .trap cECCFATAL (offDetail off)
    else
      let s := s.touch s.cur.1 x 4
      if s.my.rd x 4 = 0 then .ok s else .hold none (s.await .waiting (.join x))

/-- TASKEND (R236). -/
def semTaskend (s : State) : Res := .hold none (s.await .parked (.taskend false))

/-- Whether step 1 of a slot's TASKEND is over (R236). -/
def State.taskendReady (s : State) (c i : Nat) : Bool :=
  (s.slot c i).held = .taskend false && (s.slot c i).relaxed.isEmpty && !s.enginesBusy c i

/-- TASKEND_COMPLETE (R236): the decrement is performed, or sent to its home, and the task ends. -/
def evTaskendComplete (core slot : Nat) (s : State) : State :=
  if !s.taskendReady core slot then s
  else
    let j := (s.slot core slot).curj
    let fin := fun (s : State) =>
      (s.modSlot core slot fun t => { t with curj := t.curj &&& 0x7FFFFFFFFFFFFFFF#64, lin := 0 }).wake core slot
    if !jrJV j then fin s
    else
      let home := s.rankCore core (jrRank j)
      if home = core then fin (s.joinUpdate core (jrOff j) false)
      else (s.modSlot core slot fun t => { t with held := .taskend true }).sendJoin core slot (jrRank j) (jrOff j) false

/-! ### Cancellation -/

/-- The cores of a gang. -/
def State.gangCores (s : State) (gang : Nat) : List Nat :=
  match s.hub.gangs.find? (fun e => e.1 = gang) with
  | some g => g.2.ranks.map (fun e => e.core)
  | none => []

/-- Begins a lineage cancellation of a gang (R237): it reaches every core within its bound. -/
def State.cancelStart (s : State) (gang tag core slot : Nat) (queue : Option (Nat × Nat)) : State :=
  let d := s.draw 1 34000
  let s := d.2
  let cs := s.gangCores gang
  let marks := cs.flatMap fun c => (slotNums.filter fun i =>
    fld (s.slot c i).lin.toNat 0 16 = tag && (s.slot c i).st != .idle && !(c = core && i = slot && queue.isNone)).map
      fun i => (c, i)
  let run : CancelRun := ⟨gang, tag, core, slot, queue, 0, marks, [], s.now + d.1⟩
  let s := { s with hub := { s.hub with cancels := s.hub.cancels ++ [run] } }
  cs.foldl (fun s c => s.afterIn 1 d.1 (fun _ => false) (.cancelArrive c gang tag)) s

/-- CANCELL (R237). -/
def semCancell (d a : BitVec 6) (s : State) : Res :=
  let tag := (s.rs a.toNat).toNat % 65536
  if tag = 0 then .ok (s.ws d.toNat 0)
  else
    .hold none ((s.cancelStart (s.gangNo s.cur.1) tag s.cur.1 s.cur.2 none).await .parked (.cancell d.toNat tag))

/-- Adds purged records to the first cancellation of a lineage. -/
def State.purged (s : State) (gang tag n : Nat) : State :=
  let rec go : List CancelRun → List CancelRun
    | [] => []
    | q :: l => if q.gang = gang && q.tag = tag then { q with purged := q.purged + n } :: l else q :: go l
  { s with hub := { s.hub with cancels := go s.hub.cancels } }

/-- Whether a record belongs to a lineage. -/
def ofLineage (gang tag : Nat) (r : TaskRec) : Bool := r.gang = gang && trLin r = tag

/-- Purges a core's deque of a lineage (R237). -/
def State.purgeCore (s : State) (c gang tag : Nat) : State :=
  let gone := (s.core c).dq.toList.flatten.filter (ofLineage gang tag)
  if gone.isEmpty then s
  else
    let s := s.modCore c fun x => { x with dq := x.dq.map fun l => l.filter fun r => !ofLineage gang tag r }
    gone.foldl (fun s r => s.joinDrop c r.w3) (s.purged gang tag gone.length)

/-- Stops the slots of a cancellation on a core (R237). -/
def State.cancelStops (s : State) (gang tag : Nat) (here : Nat → Bool) : State :=
  let runs := s.hub.cancels.filter fun q => q.gang = gang && q.tag = tag
  let hit := (runs.flatMap (·.marks)).filter fun e => here e.1
  let s := { s with hub := { s.hub with cancels := s.hub.cancels.map fun q =>
      if q.gang = gang && q.tag = tag then
        { q with marks := q.marks.filter fun e => !here e.1, asked := q.asked ++ q.marks.filter fun e => here e.1 }
      else q } }
  hit.eraseDups.foldl (fun s e => s.requestStop e.1 e.2 ⟨cCANCELLED, BitVec.ofNat 32 tag, false, false, false⟩) s

/-- CANCEL_ARRIVE (R200, R237): the core's records of the lineage are purged and its slots that ran it stop. -/
def evCancelArrive (core gang tag : Nat) (s : State) : State :=
  s.arrive core (.cancelArrive core gang tag) fun s => (s.purgeCore core gang tag).cancelStops gang tag (· = core)

/-- What a purge makes of a message in transit (R237): a push counts as pushed, an answer becomes a refusal. -/
def purgeEvent (gang tag : Nat) (e : Event) : Option (W64 × Event) :=
  match e with
  | .pushArrive p => if ofLineage gang tag p.task then some (p.task.w3, .pushAckArrive p) else none
  | .stealAnswerArrive c i w a =>
    match a.task with
    | some r => if ofLineage gang tag r then some (r.w3, .stealAnswerArrive c i w { a with task := none }) else none
    | none => none
  | _ => none

/-- Purges a lineage from every deque, die queue and message of its gang (R237); the decrement of an owed answer follows its
increment (R234). -/
def State.purgeAll (s : State) (gang tag : Nat) : State :=
  let cs := s.gangCores gang
  let c0 := cs.headD 0
  let s := cs.foldl (fun s c => s.purgeCore c gang tag) s
  let q := (s.dieq.toList.flatMap fun d => d.toList.flatten).filter (ofLineage gang tag)
  let a := s.agenda.filterMap fun e => (purgeEvent gang tag e.2).map (·.1)
  let h := s.hub.held.filterMap fun e => (purgeEvent gang tag e.2.2).map (·.1)
  let w := s.hub.wires.filterMap fun e => (purgeEvent gang tag e.2).map (·.1)
  let o := cs.flatMap fun c => (s.core c).owed.filter fun o => ofLineage gang tag o.task
  let s : State := { s with
    dieq := s.dieq.map fun d => d.map fun l => l.filter fun r => !ofLineage gang tag r
    agenda := s.agenda.map fun e => (e.1, ((purgeEvent gang tag e.2).map (·.2)).getD e.2)
    hub := { s.hub with
      held := s.hub.held.map fun e => (e.1, e.2.1, ((purgeEvent gang tag e.2.2).map (·.2)).getD e.2.2)
      wires := s.hub.wires.map fun e => (e.1, ((purgeEvent gang tag e.2).map (·.2)).getD e.2) } }
  let s := cs.foldl (fun s c =>
    let l := (s.core c).owed.filter fun o => ofLineage gang tag o.task
    if l.isEmpty then s
    else
      let s := s.modCore c fun x => { x with owed := x.owed.filter fun o => !ofLineage gang tag o.task }
      l.foldl (fun s o => (s.answer c o.req none).joinDrop c o.task.w3) s) s
  let js := q.map (·.w3) ++ a ++ h ++ w
  js.foldl (fun s j => s.joinDrop c0 j) (s.purged gang tag (js.length + o.length))

/-! ### Pipes -/

/-- PIPEBIND (R222). -/
def semPipebind (e : BitVec 3) (a : BitVec 6) (c : BitVec 1) (s : State) : Res :=
  let n := e.toNat
  let p := s.my.pipeOf n
  let o := if c = 1 then p.cons else p.prod
  let i := s.cur.2
  let own := fun (p : Pipe) => if c = 1 then { p with cons := some i } else { p with prod := some i }
  if o != none && o != some i then .trap cHANDLE (hDetail 1 n)
  else if p.conf then .ok (s.modMy fun x => { x with pipe := vset x.pipe n (own p) })
  else
    let w := (s.rs a.toNat).toNat
    let off : Int := fld w 0 20
    let depth := fld w 32 4 + 1
    (s.seg0 off (depth * 128) 128 .store).get off fun y =>
      if !sgR (s.me.rsg 0) then .trap cRIGHTS (offDetail off)
      else .ok (s.modMy fun x => { x with pipe := vset x.pipe n (own ⟨true, y, depth, 0, 0, 0, none, none, []⟩) })

/-- A pipe without the ends that a slot holds; with none held it becomes unconfigured (R222). -/
def Pipe.release (p : Pipe) (i : Nat) : Pipe :=
  let prod := if p.prod = some i then none else p.prod
  let cons := if p.cons = some i then none else p.cons
  if prod.isNone && cons.isNone then ⟨false, 0, 0, 0, 0, 0, none, none, []⟩ else { p with prod := prod, cons := cons }

/-- PIPEBIND.rel (R222). -/
def semPipebindRel (e : BitVec 3) (s : State) : Res :=
  let n := e.toNat
  let p := s.my.pipeOf n
  if p.prod != some s.cur.2 && p.cons != some s.cur.2 then .trap cHANDLE (hDetail 1 n)
  else .ok (s.modMy fun x => { x with pipe := vset x.pipe n (p.release s.cur.2) })

/-! ### Meanings -/

/-- STEAL (R229). -/
def execSteal (n a : BitVec 6) (k : BitVec 3) (s : State) : Host.Outcome State Fault Refusal :=
  s.aloneS fun s => semSteal n a k s
/-- SPLIT (R233). -/
def execSplit (n : BitVec 6) (k : BitVec 3) (s : State) : Host.Outcome State Fault Refusal :=
  s.aloneS fun s => semSplit n k s
/-- DQPUSHR (R226). -/
def execDqpushr (n a : BitVec 6) (k : BitVec 3) (s : State) : Host.Outcome State Fault Refusal :=
  s.aloneS fun s => semDqpushr n a k s
/-- DQPOP (R227). -/
def execDqpop (n : BitVec 6) (j : BitVec 1) (scope : BitVec 2) (w : BitVec 1) (k : BitVec 3) (s : State) : Host.Outcome State Fault Refusal :=
  s.aloneS fun s => semDqpop n j scope w k s
/-- FORKD (R226). -/
def execForkd (n : BitVec 6) (k : BitVec 3) (s : State) : Host.Outcome State Fault Refusal :=
  s.aloneS fun s => semForkd n k s
/-- FORK (R226). -/
def execFork (n : BitVec 6) (k : BitVec 3) (s : State) : Host.Outcome State Fault Refusal :=
  s.aloneS fun s => semFork n k s
/-- JOIN (R235). -/
def execJoin (a : BitVec 6) (s : State) : Host.Outcome State Fault Refusal := s.aloneS fun s => semJoin a s
/-- TASKEND (R236). -/
def execTaskend (s : State) : Host.Outcome State Fault Refusal := s.aloneS fun s => semTaskend s
/-- CANCELL (R237). -/
def execCancell (d a : BitVec 6) (s : State) : Host.Outcome State Fault Refusal := s.aloneS fun s => semCancell d a s
/-- PIPEBIND (R222). -/
def execPipebind (e : BitVec 3) (a : BitVec 6) (c : BitVec 1) (s : State) : Host.Outcome State Fault Refusal :=
  s.aloneS fun s => semPipebind e a c s
/-- PIPEBIND_REL (R222). -/
def execPipebindRel (e : BitVec 3) (s : State) : Host.Outcome State Fault Refusal :=
  s.aloneS fun s => semPipebindRel e s
/-- TASKEND_COMPLETE (R236). -/
def execTaskendComplete (core slot : Nat) (s : State) : Host.Outcome State Fault Refusal :=
  .next (evTaskendComplete core slot s)
/-- STEAL_REQUEST_ARRIVE (R228). -/
def execStealRequestArrive (core : Nat) (req : StealReq) (s : State) : Host.Outcome State Fault Refusal :=
  .next (evStealRequestArrive core req s)
/-- STEAL_ANSWER_ARRIVE (R229). -/
def execStealAnswerArrive (core slot : Nat) (why : StealFor) (ans : StealAns) (s : State) :
    Host.Outcome State Fault Refusal :=
  .next (evStealAnswerArrive core slot why ans s)
/-- DIE_QUEUE_REQUEST (R223). -/
def execDieQueueRequest (die : Nat) (req : StealReq) (s : State) : Host.Outcome State Fault Refusal :=
  .next (evDieQueueRequest die req s)
/-- DQPOP_PASS (R227). -/
def execDqpopPass (core slot : Nat) (s : State) : Host.Outcome State Fault Refusal := .next (evDqpopPass core slot s)
/-- CANCEL_ARRIVE (R237). -/
def execCancelArrive (core gang tag : Nat) (s : State) : Host.Outcome State Fault Refusal :=
  .next (evCancelArrive core gang tag s)

end Sys2Proof.Machine
end

