-- ==== Sys2Proof/Machine/Page.lean ====
section
/-! DEFINITION. Translation, page faults and their wakes, page fork, copy on write and the frames of HBM (R329 to R332,
R363 to R369). -/

namespace Sys2Proof.Machine

/-! ### Translation (R364 to R366) -/

/-- The bytes of HBM (R364, R370): 384 GiB. -/
def hbmSize : Nat := 384 * 2 ^ 30

/-- A translated page: the physical address of the byte, the address of the leaf entry, COW, and whether it is a 2 MiB
page. -/
structure Leaf where
  phys : Nat
  entry : Nat
  cow : Bool
  big : Bool
  deriving DecidableEq, Repr

/-- ADDR of an entry, as an address (R364). -/
def pteAddr (e : Nat) : Nat := fld e 8 32 * 256
/-- V of an entry (R364). -/
def pteV (e : Nat) : Bool := fld e 63 1 = 1
/-- LEAF of an entry (R364). -/
def pteLeaf (e : Nat) : Bool := fld e 59 1 = 1
/-- Whether an entry has a reserved bit set (R364). -/
def pteReserved (e : Nat) : Bool := fld e 40 19 != 0 || fld e 0 8 != 0
/-- Whether a leaf allows an access: `none` asks for no right (R364). -/
def pteAllows (e : Nat) (wr : Option Bool) : Bool :=
  match wr with
  | none => true
  | some true => fld e 61 1 = 1
  | some false => fld e 62 1 = 1

/-- An entry that points to a table, at the two upper levels (R364). -/
def pteTable (hbm : List Host.Cell) (a : Nat) : Except Nat Nat :=
  let e := Memory.read hbm a 8
  if !pteV e then .error 1
  else if pteReserved e || pteLeaf e || pteAddr e % 4096 != 0 then .error 3
  else .ok (pteAddr e)

/-- The page that a leaf entry at `a` maps, of the given size (R364). -/
def pteMaps (e a va size : Nat) (wr : Option Bool) : Except Nat Leaf :=
  if pteReserved e || pteAddr e % size != 0 then .error 3
  else if !pteAllows e wr then .error 2
  else .ok ⟨pteAddr e + va % size, a, fld e 60 1 = 1, size = 2 ^ 21⟩

/-- The walk of four levels from a root, or the reason of its fault (R364). -/
def walkTables (hbm : List Host.Cell) (root va : Nat) (wr : Option Bool) : Except Nat Leaf :=
  if va ≥ 2 ^ 48 then .error 3
  else
    match pteTable hbm (root + 8 * fld va 39 9) with
    | .error r => .error r
    | .ok t2 =>
      match pteTable hbm (t2 + 8 * fld va 30 9) with
      | .error r => .error r
      | .ok t3 =>
        let a3 := t3 + 8 * fld va 21 9
        let e3 := Memory.read hbm a3 8
        if !pteV e3 then .error 1
        else if pteLeaf e3 then pteMaps e3 a3 va (2 ^ 21) wr
        else if pteReserved e3 then .error 3
        else
          let a4 := pteAddr e3 + 8 * fld va 16 5
          let e4 := Memory.read hbm a4 8
          if !pteV e4 then .error 1 else pteMaps e4 a4 va 65536 wr

/-- A root register (R372): the address of its level-1 table, when it is valid. -/
def rootOf (x : W64) : Option Nat := if x.getLsbD 63 then some (fld x.toNat 12 28 * 4096) else none

/-- The root of a context's GLOBAL tables. -/
def State.ctxTable (s : State) (ctx : Nat) : Option Nat := rootOf (tget 0 ctx s.hub.ctxroot)

/-- Whether an address of HBM lies in the stacks of a memory die whose link has failed (R363). -/
def State.stackLost (s : State) (phys : Nat) : Bool := !vget s.hub.memlink (Config.memDie (phys / 65536) % 4) true

/-- Translates a GLOBAL or HOST address of a context (R363, R364, R366); a HOST address without a root is physical. -/
def State.xlate (s : State) (ctx : Nat) (host : Bool) (va : Nat) (wr : Option Bool) : Except Nat Leaf :=
  if host then
    match rootOf (tget 0 ctx s.hub.hostroot) with
    | none => .ok ⟨va, 0, false, false⟩
    | some r => walkTables s.hbm r va wr
  else
    match s.ctxTable ctx with
    | none => .error 1
    | some r =>
      match walkTables s.hbm r va wr with
      | .error e => .error e
      | .ok l =>
        if l.phys ≥ hbmSize then .error 3
        else if s.stackLost l.phys then .error 5
        else .ok l

/-- The cached leaf of an address, if the caches hold one (R365); one with an uncorrectable error they have lost (R394). -/
def State.cached (s : State) (ctx : Nat) (host : Bool) (va : Nat) : Option Tlb :=
  s.hub.tlb.find? fun t => t.ctx = ctx && t.host = host && t.page = va / 65536 && t.err != 2

/-- The translation of an engine's request, through the caches (R363 to R365). -/
def State.xlateC (s : State) (ctx : Nat) (host : Bool) (va : Nat) (wr : Option Bool) : Except Nat Leaf :=
  match s.cached ctx host va with
  | none => s.xlate ctx host va wr
  | some t =>
    match pteMaps t.e t.entry va (if t.big then 2 ^ 21 else 65536) wr with
    | .error e => .error e
    | .ok l =>
      if !host && s.stackLost l.phys then .error 5 else .ok l

/-- The caches drop what has an uncorrectable error, and correct what they read (R394). -/
def State.mendCache (s : State) (ctx : Nat) (host : Bool) (va : Nat) : State :=
  let hit := fun (t : Tlb) => t.ctx = ctx && t.host = host && t.page = va / 65536
  let n := (s.hub.tlb.filter fun t => hit t && t.err = 1).length
  State.corrected { s with hub := { s.hub with
    tlb := (s.hub.tlb.filter fun t => !(hit t && t.err = 2)).map fun t => if hit t then { t with err := 0 } else t } } n

/-- The caches take the leaf that an engine's request has used (R365). -/
def State.cache (s : State) (ctx : Nat) (host : Bool) (va : Nat) : State :=
  if s.hub.tlb.any fun t => t.ctx = ctx && t.host = host && t.page = va / 65536 && t.err = 1 then s.mendCache ctx host va
  else if (s.cached ctx host va).isSome || (host && (rootOf (tget 0 ctx s.hub.hostroot)).isNone) then s
  else
    let s := s.mendCache ctx host va
    match s.xlate ctx host va none with
    | .error _ => s
    | .ok l =>
      let t : Tlb := ⟨ctx, host, va / 65536, l.entry, Memory.read s.hbm l.entry 8, l.big, 0⟩
      { s with hub := { s.hub with tlb := s.hub.tlb ++ [t] } }

/-- An invalidation of a context's cached entries (R365). -/
def State.uncache (s : State) (ctx : Nat) : State :=
  { s with hub := { s.hub with tlb := s.hub.tlb.filter fun t => t.ctx != ctx } }

/-! ### Page faults (R329) -/

/-- Changes the command of an id. -/
def Core.modCmd (x : Core) (id : Nat) (f : Cmd → Cmd) : Core :=
  { x with cq := x.cq.map fun l => l.map fun k => if k.id = id then f k else k }

/-- The command of a queue that has started and not performed all its writes. -/
def Core.runningCmd (x : Core) (q : Nat) : Option Cmd := (vget x.cq q []).find? fun k => k.started && !k.written

/-- A fault id that no pending fault has, from `n` on (R329). -/
def freeFid (used : List Nat) : Nat → Nat → Nat
  | 0, n => n
  | k + 1, n => if n = 0 || used.contains n then freeFid used k ((n + 1) % 65536) else n

/-- Holds a request and posts its record: the fault's id, and the state (R329). -/
def State.holdRequest (s : State) (c eng unit tid va : Nat) (wr : Bool) (reason : Nat) (host : Bool) : Nat × State :=
  let fid := freeFid (s.hub.faults.map fun f => f.info.fid) (s.hub.faults.length + 2) s.hub.fidNext
  let r : FaultRec := ⟨fid, s.ctxOf c, tid, true, eng, unit, wr, reason, va, (s.core c).rank, c⟩
  let s := s.postRecord (faultBits r)
  (fid, { s with hub := { s.hub with faults := s.hub.faults ++ [⟨r, host⟩], fidNext := (fid + 1) % 65536 } })

/-- A request of a queue's running command, or of a stream unit, is held (R329). -/
def State.faultOf (s : State) (c eng unit va : Nat) (wr : Bool) (reason : Nat) (host : Bool) : State :=
  if eng = 0 then
    match (s.core c).runningCmd unit with
    | none => s
    | some k =>
      if k.fid.isSome then s
      else
        let r := s.holdRequest c 0 unit (s.tid c k.slot) va wr reason host
        r.2.modCore c fun x => x.modCmd k.id fun k => { k with fid := some r.1 }
  else
    let u := vget (s.core c).su unit Stream.reset
    match u.owner with
    | none => s
    | some i =>
      if u.kind != .global || u.fid.isSome then s
      else
        let r := s.holdRequest c eng unit (s.tid c i) va wr reason host
        r.2.modCore c fun x => x.setSu unit { u with fid := some r.1 }

/-- PAGE_FAULT (R329): an engine's request is held with a fault record. -/
def evPageFault (core eng unit va : Nat) (wr : Bool) (reason : Nat) (s : State) : State :=
  s.faultOf core eng unit va wr reason false

/-- ENGINE_ECC_ERROR (R332). -/
def evEngineEccError (core eng unit tid va : Nat) (s : State) : State := s.eccRecord core eng unit tid va

/-! ### Wakes (R330) -/

/-- The cycles in which `us` microseconds of hub time pass at the clock's step (R1, R391, R392). -/
def State.usCycles (s : State) (us : Nat) : Nat := us * ([1400, 1200, 1000, 800].getD s.mg.step 1400)

/-- Whether a wake makes a slot's bundle issue afresh (R330): it is PARKED on a cause that stops at once, with its PC at
its bundle and no effect. -/
def Core.wakes (x : Core) (i : Nat) : Bool :=
  let t := x.slot i
  t.st = .parked && match t.held with
    | .fe _ | .ring _ | .unit _ _ | .strip _ _ | .copyPlace _ | .relaxFull | .caddyFull | .seqEnd | .fence _ _
    | .release _ _ | .haltDrain => true
    | .taskend sent => !sent
    | .mma => !x.mmaStarted i
    | .flue => x.scan.flue.any fun f => f.part.isNone
    | _ => false

/-- The wake's part at the core of the slot (R330). -/
def State.wakeSlot (s : State) (c i : Nat) : State :=
  if (s.core c).wakes i then (s.modCore c fun x => x.withdraw i (x.slot i).held).rearm c i else s

/-- The wake's part at the port: the held request translates again (R330). -/
def State.retryFault (s : State) (f : Pending) : State :=
  let s : State := { s with hub := { s.hub with faults := s.hub.faults.filter fun g => g.info.fid != f.info.fid } }
  s.modCore f.info.pcore fun x =>
    { x with
      cq := x.cq.map fun l => l.map fun k => if k.fid = some f.info.fid then { k with fid := none, due := s.now + 1 } else k
      su := x.su.map fun u => if u.fid = some f.info.fid then { u with fid := none, due := s.now + 1 } else u
      busy := true }

/-- WAKE_ARRIVE (R200, R330). -/
def evWakeArrive (fid tid : Nat) (s : State) : State :=
  match s.hub.faults.find? fun f => f.info.fid = fid with
  | none => s
  | some f =>
    let h := s.ofTid f.info.pcore tid
    s.arrive h.1 (.wakeArrive fid tid) fun s => (s.retryFault f).wakeSlot h.1 h.2

/-- Whether the hub answers the host: from READY on, and until a trip (R387, R393). -/
def State.barOn (s : State) : Bool := s.mg.stage = 6 && !s.mg.tripped

/-- WAKE (R330, R372): the host's write reaches port and core within 2 µs. -/
def evWake (val : W64) (s : State) : State :=
  if !s.barOn then s
  else s.afterIn 1 (s.usCycles 2) (fun _ => false) (.wakeArrive (fld val.toNat 48 16) (fld val.toNat 0 15))

/-! ### Frames and copy on write (R367 to R369) -/

/-- The share count of a frame: 1 unless the hub keeps another (R367). -/
def State.shareOf (s : State) (f : Nat) : Nat := tget 1 f s.hub.shares

/-- Sets a share count. -/
def State.setShare (s : State) (f n : Nat) : State :=
  { s with hub := { s.hub with shares := if n = 1 then tdel f s.hub.shares else tput f n s.hub.shares } }

/-- A mapping of a frame is gone: its count falls, and at 0 the frame is to return to the pool (R368, R369). -/
def State.shareDrop (s : State) (f : Nat) : State :=
  let n := s.shareOf f
  if n ≤ 1 then
    let s := s.setShare f 1
    { s with hub := { s.hub with dying := s.hub.dying ++ [f] } }
  else s.setShare f (n - 1)

/-- A frame is in the pool again, and the HCP wakes the faults that wait for one (R350, R368). -/
def State.freeFrame (s : State) (f : Nat) : State :=
  let s : State := { s with hub := { s.hub with pool := s.hub.pool ++ [f] } }
  (s.hub.faults.filter fun f => f.info.reason = 6).foldl (fun s f =>
    s.afterIn 1 (s.usCycles 2) (fun _ => false) (.wakeArrive f.info.fid f.info.tid)) s

/-- The hub writes a table entry, and invalidates what the caches hold of it (R365). -/
def State.setPte (s : State) (a e : Nat) : State :=
  { s with hbm := Memory.write s.hbm a 8 e, hub := { s.hub with tlb := s.hub.tlb.filter fun t => t.entry != a } }

/-- An entry with a bit set or cleared. -/
def bitSet (e k : Nat) (b : Bool) : Nat := e - fld e k 1 * 2 ^ k + b.toNat * 2 ^ k

/-- Splits a 2 MiB page into 32 level-4 entries in a table of the pool (R367): none when the pool is empty. -/
def State.splitPage (s : State) (l : Leaf) : Option State :=
  match s.hub.pool with
  | [] => none
  | f :: rest =>
    let e := Memory.read s.hbm l.entry 8
    let low := bitSet e 59 false
    let s : State := { s with hub := { s.hub with pool := rest } }
    let s := (List.range 32).foldl (fun s k => s.setPte (f * 65536 + 8 * k) (low + k * 65536)) s
    some (s.setPte l.entry (2 ^ 63 + f * 65536))

/-- Whether a copy of a mapping is under way (R368). -/
def State.cowing (s : State) (ctx va : Nat) : Bool :=
  s.hub.cows.any fun w => w.ctx = ctx && w.va / 65536 = va / 65536

/-- COW_COPY (R368): a write has met COW on a shared frame; the hub takes a frame and copies. -/
def evCowCopy (ctx va : Nat) (s : State) : State :=
  if s.cowing ctx va then s
  else
    match s.xlate ctx false va (some true) with
    | .error _ => s
    | .ok l =>
      if !l.cow || s.shareOf (l.phys / 65536) ≤ 1 then s
      else
        match s.hub.pool with
        | [] => s
        | f :: rest =>
          let s : State := { s with hub := { s.hub with pool := rest, cows := s.hub.cows ++ [⟨ctx, va, f⟩] } }
          s.afterIn (s.usCycles 1) (s.usCycles 3) (fun _ => false) (.cowCopyComplete ctx va)

/-- COW_COPY_COMPLETE (R368): the mapping points at the new frame, with its rights and tag; the old frame's count
falls. A mapping in a 2 MiB page is split off first. A frame that is not used goes back (R350). -/
def evCowCopyComplete (ctx va : Nat) (s : State) : State :=
  match s.hub.cows.find? fun w => w.ctx = ctx && w.va = va with
  | none => s
  | some w =>
    let s : State := { s with hub := { s.hub with cows := s.hub.cows.filter fun v => v != w } }
    match s.xlate ctx false va none with
    | .error _ => s.freeFrame w.frame
    | .ok l =>
      let old := l.phys / 65536
      let s : State := { s with hbm := Memory.write s.hbm (w.frame * 65536) 65536 (Memory.read s.hbm (old * 65536) 65536) }
      let split : Option (State × Nat) :=
        if l.big then
          (s.splitPage l).bind fun s =>
            match s.xlate ctx false va none with
            | .ok m => some (s, m.entry)
            | .error _ => none
        else some (s, l.entry)
      match split with
      | none => s.freeFrame w.frame
      | some (s, a) =>
        let e := Memory.read s.hbm a 8
        let e := bitSet (e - pteAddr e + w.frame * 65536) 60 false
        (s.setPte a e).shareDrop old

/-- Whether an engine still has an access to perform in a frame (R369). -/
def State.frameUsed (s : State) (f : Nat) : Bool :=
  let there := fun (p : Place) => p.space = 1 && p.addr / 65536 = f
  s.cores.any fun e => e.2.cq.toList.any fun l => l.any fun k =>
    (k.got ++ k.todo.getD []).any (fun w => w.space = 1 && w.addr / 65536 = f)
      || (k.unread.any fun u => u.2.any fun e => there e.1 || e.2.any there)

/-- FRAME_RETURN (R350, R369): a frame of count 0 returns to the pool once every request translated through it has
retired; the HCP wakes the faults that wait for a frame. -/
def evFrameReturn (frame : Nat) (s : State) : State :=
  if !s.hub.dying.contains frame || s.frameUsed frame then s
  else
    State.freeFrame { s with hub := { s.hub with dying := s.hub.dying.erase frame } } frame

/-- What a write's page comes to before the write (R368): its translation; a fault; or a copy to wait for. -/
inductive Writes where
  | at_ (phys : Nat) (s : State)
  | bad (reason : Nat)
  | stall (s : State)

/-- Translates for a write of an engine (R364, R368). -/
def State.xlateW (s : State) (ctx : Nat) (host : Bool) (va : Nat) : Writes :=
  match s.xlateC ctx host va (some true) with
  | .error r => .bad r
  | .ok l =>
    let s := s.cache ctx host va
    if host || !l.cow then .at_ l.phys s
    else if s.cowing ctx va then .stall s
    else if s.shareOf (l.phys / 65536) ≤ 1 then
      .at_ l.phys (s.setPte l.entry (bitSet (Memory.read s.hbm l.entry 8) 60 false))
    else if s.hub.pool.isEmpty then .bad 6
    else .stall (evCowCopy ctx va s)

/-! ### Fork (R367) -/

/-- The leaf a fork would write for a destination page: its entry, when its tables are there and it is not valid. -/
def State.forkSlot (s : State) (root va : Nat) : Except Nat Nat :=
  match pteTable s.hbm (root + 8 * fld va 39 9) with
  | .error _ => .error 4
  | .ok t2 =>
    match pteTable s.hbm (t2 + 8 * fld va 30 9) with
    | .error _ => .error 4
    | .ok t3 =>
      let e3 := Memory.read s.hbm (t3 + 8 * fld va 21 9) 8
      if !pteV e3 then .error 4
      else if pteLeaf e3 then .error 8
      else
        let a4 := pteAddr e3 + 8 * fld va 16 5
        if pteV (Memory.read s.hbm a4 8) then .error 8 else .ok a4

/-- The check of a fork, page by page on the tables as they stand before it: 0, or the reason it fails (R367). `fs`, `bs`: the
frames, and the entries of 2 MiB pages, of the pages so far. -/
def State.forkCheck (s : State) (ctx src dst : Nat) (fs bs : List Nat) : Nat → Nat
  | 0 => 0
  | n + 1 =>
    match s.ctxTable ctx with
    | none => 2
    | some root =>
      match walkTables s.hbm root src none, s.forkSlot root dst with
      | .error _, _ => 8
      | _, .error r => r
      | .ok l, .ok _ =>
        let f := l.phys / 65536
        let bs := if l.big then insertNat l.entry bs else bs
        if s.shareOf f + fs.count f ≥ 65535 || s.hub.pool.length < bs.length then 8
        else s.forkCheck ctx (src + 65536) (dst + 65536) (f :: fs) bs n

/-- The step of one page of a fork (R367); a page whose source or destination has changed since the check is passed over
(log entry 120). -/
def State.forkPage (s : State) (ctx src dst tag : Nat) : State :=
  match s.ctxTable ctx with
  | none => s
  | some root =>
    let go := fun (s : State) (l : Leaf) =>
      match s.forkSlot root dst with
      | .error _ => s
      | .ok a =>
        let e := bitSet (Memory.read s.hbm l.entry 8) 60 true
        let f := l.phys / 65536
        let s := ((s.setPte a e).setPte l.entry e).setShare f (s.shareOf f + 1)
        { s with hub := { s.hub with
            tags := if tag = 0 then s.hub.tags else s.hub.tags ++ [(ctx, dst / 65536, tag)] } }
    match walkTables s.hbm root src none with
    | .error _ => s
    | .ok l =>
      if !l.big then go s l
      else
        match s.splitPage l with
        | none => s
        | some s =>
          match walkTables s.hbm root src none with
          | .ok m => go s m
          | .error _ => s

/-- The frames of a leaf: one, or the 32 of a 2 MiB page. -/
def Leaf.frames (l : Leaf) : List Nat := if l.big then steps (l.phys / 2 ^ 21 * 32) 1 32 else [l.phys / 65536]

/-- Invalidates a mapping of a context and drops the count of each frame it maps (R369). -/
def State.unmap (s : State) (ctx va : Nat) : State :=
  match s.ctxTable ctx with
  | none => s
  | some root =>
    match walkTables s.hbm root va none with
    | .error _ => s
    | .ok l => l.frames.foldl State.shareDrop (s.setPte l.entry (bitSet (Memory.read s.hbm l.entry 8) 63 false))

/-- Releases the pages of a lineage of a context (R369). -/
def State.releaseTag (s : State) (ctx tag : Nat) : State :=
  let mine := fun (t : Nat × Nat × Nat) => t.1 = ctx && t.2.2 = tag
  let l := s.hub.tags.filter mine
  let s : State := { s with hub := { s.hub with tags := s.hub.tags.filter fun t => !mine t } }
  l.foldl (fun s t => s.unmap ctx (t.2.1 * 65536)) s

/-- The entries of a table of `n` that are valid, by index. -/
def validPtes (hbm : List Host.Cell) (t n : Nat) : List (Nat × Nat) :=
  (List.range n).filterMap fun k =>
    let e := Memory.read hbm (t + 8 * k) 8
    if pteV e then some (k, e) else none

/-- The addresses of every page that a context maps (R337). -/
def State.pagesOf (s : State) (ctx : Nat) : List Nat :=
  match s.ctxTable ctx with
  | none => []
  | some root =>
    (validPtes s.hbm root 512).flatMap fun e1 =>
      (validPtes s.hbm (pteAddr e1.2) 512).flatMap fun e2 =>
        (validPtes s.hbm (pteAddr e2.2) 512).flatMap fun e3 =>
          let va := e1.1 * 2 ^ 39 + e2.1 * 2 ^ 30 + e3.1 * 2 ^ 21
          if pteLeaf e3.2 then [va]
          else (validPtes s.hbm (pteAddr e3.2) 32).map fun e4 => va + e4.1 * 65536

/-- Releases every frame of a killed context (R369). -/
def State.releaseCtx (s : State) (ctx : Nat) : State :=
  let s := (s.pagesOf ctx).foldl (fun s va => s.unmap ctx va) s
  { s with hub := { s.hub with tags := s.hub.tags.filter fun t => t.1 != ctx } }

/-! ### The end of a lineage cancellation (R237, R369) -/

/-- Whether a slot awaits its own CANCELL, and stops in the cycle after it. -/
def Slot.cancelling (t : Slot) : Bool :=
  match t.held with
  | .cancell _ _ => true
  | _ => false

/-- Whether a decrement that a purge or a cancelled task of a gang sent has yet to be performed (R234, R237). -/
def State.dropping (s : State) (gang : Nat) : Bool :=
  let sub := fun (r : Req) => r.slot = 16 && r.op = .joinSub
  let mine := fun (e : Event) => match e with
    | .remoteRequestArrive c (.builtin r) => sub r && (s.core c).gang = some gang
    | .joinCounterUpdate c _ up => !up && (s.core c).gang = some gang
    | _ => false
  s.agenda.any (fun e => mine e.2) || s.hub.wires.any (fun e => mine e.2) || s.hub.held.any (fun e => mine e.2.2)
    || (s.gangCores gang).any fun c => (s.core c).netq.any sub

/-- Whether every decrement of a cancellation has been performed and every slot of it has stopped (R237), or stops when a CANCELL
of its own is complete: of two that overlap neither awaits the other's issuer (log entry 119). -/
def State.cancelOver (s : State) (q : CancelRun) : Bool :=
  q.since ≤ s.now && q.marks.isEmpty && !s.dropping q.gang
    && q.asked.all fun e => (s.slot e.1 e.2).stop.isNone || (s.slot e.1 e.2).cancelling

/-- Whether a cancellation is to stop slots that have come to run its lineage, or to complete (R237). -/
def State.cancelDue (s : State) (q : CancelRun) : Bool := q.since ≤ s.now && (!q.marks.isEmpty || s.cancelOver q)

/-- Purges and stops what has come to belong to a cancelled lineage since it began (R237). -/
def State.cancelSweep (s : State) (q : CancelRun) : State := (s.purgeAll q.gang q.tag).cancelStops q.gang q.tag fun _ => true

/-- The context of a gang. -/
def State.ctxGang (s : State) (g : Nat) : Nat :=
  match s.hub.gangs.find? (fun e => e.1 = g) with
  | some e => e.2.ctx
  | none => 0

/-- Ends a cancellation: the pages of its lineage are released and its run is forgotten (R237, R369). -/
def State.cancelEnd (s : State) (q : CancelRun) : State :=
  let s := s.releaseTag (s.ctxGang q.gang) q.tag
  { s with hub := { s.hub with cancels := s.hub.cancels.eraseP fun r =>
      r.core = q.core && r.slot = q.slot && r.queue = q.queue } }

/-- The CANCELL of a slot that is under way (R237). -/
def State.cancelFor (s : State) (c i : Nat) : Option CancelRun :=
  s.hub.cancels.find? fun q => q.core = c && q.slot = i && q.queue.isNone

/-- CANCELL_COMPLETE (R237, R369): s[d] counts the records purged. At a core that is banked or restarting, it is complete
at the end of the restart (R200). -/
def evCancellComplete (core slot : Nat) (s : State) : State :=
  match s.cancelFor core slot with
  | none => s
  | some q0 =>
    if s.now < q0.since then s
    else
      let s := s.cancelSweep q0
      match s.cancelFor core slot with
      | none => s
      | some q =>
        let x := s.core core
        let at' := if x.banked then s.now + 40 else (x.restart.map fun t => max t s.now).getD s.now
        if !s.cancelOver q then s
        else if s.now < at' then
          { s.stoke core with hub := { s.hub with cancels := s.hub.cancels.map fun r =>
              if r.core = core && r.slot = slot && r.queue.isNone then { r with since := at' } else r } }
        else
          let s := (s.cancelEnd q).modCore core fun y => { y with busy := true }
          match (s.slot core slot).held with
          | .cancell d _ => (s.modSlot core slot fun t => t.ws d (BitVec.ofNat 64 q.purged)).wake core slot
          | _ => s

/-! ### Meanings -/

/-- CANCELL_COMPLETE (R237). -/
def execCancellComplete (core slot : Nat) (s : State) : Host.Outcome State Fault Refusal :=
  .next (evCancellComplete core slot s)
/-- PAGE_FAULT (R329). -/
def execPageFault (core eng unit va : Nat) (wr : Bool) (reason : Nat) (s : State) : Host.Outcome State Fault Refusal :=
  .next (evPageFault core eng unit va wr reason s)
/-- WAKE_ARRIVE (R330). -/
def execWakeArrive (fid tid : Nat) (s : State) : Host.Outcome State Fault Refusal := .next (evWakeArrive fid tid s)
/-- ENGINE_ECC_ERROR (R332). -/
def execEngineEccError (core eng unit tid va : Nat) (s : State) : Host.Outcome State Fault Refusal :=
  .next (evEngineEccError core eng unit tid va s)
/-- COW_COPY (R368). -/
def execCowCopy (ctx va : Nat) (s : State) : Host.Outcome State Fault Refusal := .next (evCowCopy ctx va s)
/-- FRAME_RETURN (R369). -/
def execFrameReturn (frame : Nat) (s : State) : Host.Outcome State Fault Refusal := .next (evFrameReturn frame s)
/-- WAKE (R330). -/
def execWake (val : W64) (s : State) : Host.Outcome State Fault Refusal := .next (evWake val s)
/-- COW_COPY_COMPLETE (R368). -/
def execCowCopyComplete (ctx va : Nat) (s : State) : Host.Outcome State Fault Refusal :=
  .next (evCowCopyComplete ctx va s)

end Sys2Proof.Machine
end

