-- ==== Sys2Proof/Machine/Copy.lean ====
section
/-! DEFINITION. The copy engine: commands, their checks and their work, multicasts and their credits (R285 to R300). -/

namespace Sys2Proof.Machine

/-! ### The command word (R286) -/

/-- Whether word 0 names a recipient, its TID, and the fields of word 0. -/
def cwMtv (w : Nat) : Bool := fld w 47 1 = 1
def cwMtid (w : Nat) : Nat := fld w 32 15
def cwRv (w : Nat) : Bool := fld w 27 1 = 1
def cwRing (w : Nat) : Nat := fld w 24 3
def cwQueue (w : Nat) : Nat := fld w 16 2
def cwUli (w : Nat) : Bool := fld w 15 1 = 1
def cwPadskip (w : Nat) : Bool := fld w 14 1 = 1
def cwNomsg (w : Nat) : Bool := fld w 13 1 = 1
def cwPat (w : Nat) : Bool := fld w 12 1 = 1
def cwBf (w : Nat) : Bool := fld w 11 1 = 1
def cwFem (w : Nat) : Bool := fld w 10 1 = 1
def cwEsz (w : Nat) : Nat := fld w 8 2
def cwOpc (w : Nat) : Nat := fld w 0 4

/-- Whether the instruction is a gather or a scatter. -/
def CopyKind.indexed (k : CopyKind) : Bool := k = .cpyg || k = .cpys

/-- The bytes of an element of a gather or scatter (R286). -/
def esBytes (esz : Nat) : Nat := if esz = 0 then 4 else if esz = 1 then 8 else 128

/-- Whether the words of a command are malformed, apart from what its segments say (R286, R287, R291, R292). -/
def cmdMalformed (kind : CopyKind) (gsize w0 w1 w2 w3 : Nat) : Bool :=
  let idx := kind.indexed
  fld w0 28 4 != 0 || fld w0 18 6 != 0 || fld w0 4 4 != 0
    || (cwMtv w0 && cwMtid w0 ≥ gsize * 16)
    || cwOpc w0 > 2 || (cwOpc w0 != 0 && (kind != .cpys || cwEsz w0 != 0))
    || cwEsz w0 = 3 || (cwEsz w0 != 0 && !idx)
    || (cwBf w0 && kind != .mcast)
    || (cwPat w0 && idx) || (!cwPat w0 && kind = .cpyt)
    || fld w1 48 13 != 0 || fld w2 48 13 != 0 || fld w1 0 48 % 4 != 0 || fld w2 0 48 % 4 != 0
    || (if idx then fld w3 52 12 != 0 || fld w3 20 12 != 0 || fld w3 0 20 % 4 != 0
        else if cwPat w0 then fld w3 20 44 != 0 || fld w3 0 20 % 64 != 0
        else fld w3 32 32 != 0 || fld w3 0 32 % 4 != 0)

/-- The form of an FEM command, which only supervisor level may issue (R287). -/
def femMalformed (kind : CopyKind) (w0 w3 : Nat) : Bool :=
  !(kind = .cpy || kind = .cpyw) || cwPat w0 || fld w3 0 32 % 128 != 0

/-! ### Ranges and the engine form of Seg (R288, R290) -/

/-- A bounding range of offsets, ends included; none when it is empty. -/
abbrev Range := Option (Int × Int)

/-- The range of the elements of a pattern walk with strides `st`, of the valid ones only or of all (R290). -/
def patRange (b : BitVec 512) (base : Int) (st : Nat → Int) (valid : Bool) : Range :=
  let lo := fun k => if valid then patPL b k else 0
  let hi := fun k => if valid then min (patPH b k) (patN b k) else patN b k
  if [0, 1, 2, 3].any fun k => lo k ≥ hi k then none
  else
    let a := [0, 1, 2, 3].foldl (fun v k => v + (if st k ≥ 0 then (lo k : Int) * st k else ((hi k : Int) - 1) * st k)) base
    let z := [0, 1, 2, 3].foldl (fun v k => v + (if st k ≥ 0 then ((hi k : Int) - 1) * st k else (lo k : Int) * st k)) base
    some (a, z + patE b - 1)

/-- The stride of a dimension at a dense destination (R290). -/
def denseStride (b : BitVec 512) (k : Nat) : Int :=
  ((steps 0 1 k).foldl (fun p j => p * patN b j) (patE b) : Nat)

/-- The range of `n` bytes from an offset. -/
def spanOf (off n : Nat) : Range := if n = 0 then none else some (off, off + n - 1)

/-- The engine form of Seg (R288): the fault of one side of a command; `rk`: its RANK is checked. -/
def engSeg (gsize : Nat) (d : W128) (dstSide rk add : Bool) (off : Nat) (r : Range) : Option (Nat × W32) :=
  let lo : Int := (r.map (·.1)).getD (off : Int)
  let det : W32 := BitVec.ofNat 32 (dstSide.toNat * 2 ^ 31 + wrap 31 lo)
  let sp := sgSpace d
  if !(sp = 1 || sp = 2 || sp = 4 || sp = 5) then some (cSPACE, det)
  else if sp = 2 && rk && sgRank d ≥ gsize then some (cSEGLIMIT, det)
  else if (match r with
      | some (a, z) => a < 0 || z > sgLimit d || ((sp = 1 || sp = 2) && (sgBase d : Int) + z > 0xFFFFF)
      | none => false) then some (cSEGLIMIT, det)
  else if (if dstSide then !sgW d || (add && !sgA d) else !sgR d) then some (cRIGHTS, det)
  else none

/-- Whether two ranges of one space meet (R293). -/
def rangesMeet (sd dd : W128) (a b : Range) : Bool :=
  match a, b with
  | some (l, h), some (m, k) =>
    sgBase sd + l ≤ sgBase dd + k && sgBase dd + m ≤ sgBase sd + h
  | _, _ => false

/-- The fault of a LOCAL-only check, if any (R397). -/
def SegR.trapAt (r : SegR) (off : Int) : Option (Nat × W32) :=
  match r with
  | .at _ => none
  | .remote _ _ => some (cSPACE, BitVec.ofNat 32 (wrap 31 off))
  | .bad c => some (c, BitVec.ofNat 32 (wrap 31 off))

/-! ### Issue -/

/-- Goes on with the pattern block of a command that has one (R286, R289); `more`: the faults known without it, of which
the lowest is taken when the block cannot be read (R324). -/
def State.withBlock (s : State) (kind : CopyKind) (w0 w3 : Nat) (more : Option (Nat × W32))
    (k : Option (BitVec 512) → State → Res) : Res :=
  let stop := fun (c : Nat) (d : W32) =>
    match minTrap (some (c, d)) more with
    | some t => Res.trap t.1 t.2
    | none => Res.trap c d
  if !cwPat w0 then k none s
  else
    let off : Int := fld w3 0 20
    match s.seg0 off 64 64 .load with
    | .at x =>
      if s.my.bad x 64 then stop cECCFATAL (BitVec.ofNat 32 (wrap 31 off))
      else
        let b : BitVec 512 := BitVec.ofNat 512 (s.my.rd x 64)
        if patMalformed b (kind = .cpyt) then .trap cHANDLE (s.hFree 4) else k (some b) (s.touch s.cur.1 x 64)
    | .remote _ _ => stop cSPACE (BitVec.ofNat 32 (wrap 31 off))
    | .bad c => stop c (BitVec.ofNat 32 (wrap 31 off))

/-- The 16-bit ranks of a list at a local address (R298), but for those in words with a double-bit error (R332). -/
def Core.rankList (x : Core) (a n : Nat) : List Nat :=
  (steps 0 1 n).filterMap fun k => if x.bad (a + 2 * k) 2 then none else some (x.rd (a + 2 * k) 2)

/-- The source and destination ranges of a command (R287, R288, R290, R292). -/
def cmdRanges (kind : CopyKind) (w0 w1 w2 w3 : Nat) (srcLocal : Bool) (pat : Option (BitVec 512)) : Range × Range :=
  let so := fld w1 0 48
  let d := fld w2 0 48
  let n := fld w3 32 20 * esBytes (cwEsz w0)
  if kind = .cpyg then (none, spanOf d n)
  else if kind = .cpys then (spanOf so n, none)
  else
    match pat with
    | some b =>
      let vs := cwPadskip w0
      (patRange b so (patSS b) true,
        if kind = .cpyt then patRange b d (patDS b) vs else patRange b d (denseStride b) vs)
    | none =>
      let len := fld w3 0 32
      if cwFem w0 then
        if srcLocal then (spanOf so len, spanOf d (len / 32)) else (spanOf so (len / 32), spanOf d len)
      else (spanOf so len, spanOf d len)

/-- The commands that hold places in a queue: one without a message holds its own until its last write (R285, R296). -/
def Core.places (x : Core) (q : Nat) : List Cmd := (vget x.cq q []).filter fun k => !(k.nomsg && k.written)

/-- A copy instruction at issue (R285 to R293, R297, R298, R333); `list` is MCAST's s[a]. -/
def State.copyIssue (s : State) (kind : CopyKind) (n : Nat) (list : Nat) : Res :=
  let w0 := (s.rs n).toNat
  let w1 := (s.rs (n + 1)).toNat
  let w2 := (s.rs (n + 2)).toNat
  let w3 := (s.rs (n + 3)).toNat
  let x := s.my
  let sd := s.me.rsg (fld w1 61 3)
  let dd := s.me.rsg (fld w2 61 3)
  let mc := kind = .mcast
  let fem := cwFem w0
  let loc := fun (d : W128) => sgSpace d = 1
  let lcnt := fld list 32 11 + 1
  let loff : Int := fld list 0 20
  if cmdMalformed kind x.gsize w0 w1 w2 w3 || (fem && (femMalformed kind w0 w3 || loc sd = loc dd))
      || (mc && (sgSpace dd != 2 || fld list 43 21 != 0 || fld list 20 12 != 0 || fld list 0 20 % 2 != 0)) then
    .trap cHANDLE (s.hFree 4)
  else if cwRv w0 && !mc && (x.ringOf (cwRing w0)).owner != some s.cur.2 then .trap cHANDLE (hDetail 1 (cwRing w0))
  else if fem && !s.me.level then .trap cPRIV 0
  else
    s.withBlock kind w0 w3 (minTrap (if mc then (s.seg0 loff (2 * lcnt) 2 .load).trapAt loff else none)
        (minTrap (engSeg x.gsize sd false true false (fld w1 0 48) none)
          (engSeg x.gsize dd true (!mc) (cwOpc w0 != 0) (fld w2 0 48) none))) fun pat s =>
      let rg := cmdRanges kind w0 w1 w2 w3 (loc sd) pat
      let ioff : Int := fld w3 0 20
      let icnt := fld w3 32 20
      let il := if kind.indexed then s.seg0 ioff (4 * icnt) 4 .load
        else if mc then s.seg0 loff (2 * lcnt) 2 .load else .at 0
      let iat := match il with
        | .at a => a
        | _ => 0
      let same := sgSpace sd = sgSpace dd
        && (sgSpace sd != 2 || (if mc then (x.rankList iat lcnt).contains (sgRank sd) else sgRank sd = sgRank dd))
      let checksOverlap := mc || kind = .cpyt || (pat.isSome && (kind = .cpy || kind = .cpyw))
      let meets : Option (Nat × W32) := if checksOverlap && same && rangesMeet sd dd rg.1 rg.2 then
          some (cOVERLAP, BitVec.ofNat 32 (fld w2 0 32)) else none
      let idem : Option (Nat × W32) := if cwOpc w0 != 0 && s.me.imv then some (cIDEMADD, s.me.markDetail) else none
      let traps := minTrap (minTrap (minTrap (il.trapAt (if mc then loff else ioff))
        (engSeg x.gsize sd false true false (fld w1 0 48) rg.1))
        (engSeg x.gsize dd true (!mc) (cwOpc w0 != 0) (fld w2 0 48) rg.2)) (minTrap meets idem)
      match traps with
      | some (c, d) => .trap c d
      | none =>
        let q := cwQueue w0
        if (s.my.places q).length ≥ 16 then .again (.copyPlace q)
        else
          let id := s.nonce
          let k : Cmd :=
            { id := id, kind := kind, queue := q, slot := s.cur.2, tag := fld w0 48 16
              dest := if cwMtv w0 && kind != .cpyw then cwMtid w0 else s.tid s.cur.1 s.cur.2
              rv := cwRv w0, ring := cwRing w0, uli := cwUli w0, padskip := cwPadskip w0, nomsg := cwNomsg w0
              bf := cwBf w0, fem := fem, esz := cwEsz w0, opc := cwOpc w0, src := sd, dst := dd
              soff := fld w1 0 48, doff := fld w2 0 48, len := fld w3 0 32, pat := pat
              cnt := if mc then lcnt else icnt, idx := iat, ranks := [], left := [], region := s.me.imv
              started := false, due := 0, got := [], unread := none, todo := none, fid := none, detached := false
              pushes := false, written := false
              complete := false, posted := false, status := 0, badpos := none, words := 0 }
          let s : State := { s with nonce := id + 1 }
          let s := s.modMy fun x => { x with cq := vset x.cq q (vget x.cq q [] ++ [k]) }
          if kind = .cpyw then .hold none (s.await .parked (.cpyw id)) else .ok s

/-- CPY (R291). -/
def semCpy (n : BitVec 6) (s : State) : Res := s.copyIssue .cpy n.toNat 0
/-- CPYW (R296). -/
def semCpyw (n : BitVec 6) (s : State) : Res := s.copyIssue .cpyw n.toNat 0
/-- CPYG (R292). -/
def semCpyg (n : BitVec 6) (s : State) : Res := s.copyIssue .cpyg n.toNat 0
/-- CPYS (R292). -/
def semCpys (n : BitVec 6) (s : State) : Res := s.copyIssue .cpys n.toNat 0
/-- CPYT (R290). -/
def semCpyt (n : BitVec 6) (s : State) : Res := s.copyIssue .cpyt n.toNat 0
/-- MCAST (R298). -/
def semMcast (n a : BitVec 6) (s : State) : Res := s.copyIssue .mcast n.toNat (s.rs a.toNat).toNat

/-- Whether the place that a parked bundle waits for is free (R285). -/
def State.placeFree (s : State) (c i : Nat) : Bool :=
  match (s.slot c i).held with
  | .copyPlace q => ((s.core c).places q).length < 16
  | _ => false

/-- COPY_QUEUE_PLACE_FREE (R285): the parked bundle issues afresh. -/
def evCopyQueuePlaceFree (core slot : Nat) (s : State) : State :=
  if s.placeFree core slot then s.rearm core slot else s

/-! ### The words of a command -/

/-- A word that a command moves: its destination offset and its source offset, none for a pad word (R290, R292). -/
abbrev Move := Int × Option Int

/-- The words of an element. -/
def moveWords (t : Int) (o : Option Int) (bytes : Nat) : List Move :=
  (steps 0 1 (bytes / 4)).map fun (j : Nat) => (t + 4 * j, o.map (· + 4 * j))

/-- The words of a linear command. -/
def Cmd.linear (k : Cmd) : List Move := (steps 0 1 (k.len / 4)).map fun (j : Nat) => ((k.doff : Int) + 4 * j, some ((k.soff : Int) + 4 * j))

/-- The words of a pattern walk, in walk order (R290). -/
def Cmd.walked (k : Cmd) (b : BitVec 512) : List Move :=
  let E := patE b
  (steps 0 1 (patCount b)).flatMap fun e =>
    let t := if k.kind = .cpyt then patDst b k.doff e else (k.doff : Int) + e * E
    if patValid b e then moveWords t (some (patSrc b k.soff e)) E
    else if k.padskip then [] else moveWords t none E

/-- Whether an element lies outside its segment (R292). -/
def outside (d : W128) (off E : Nat) : Bool :=
  off + E - 1 > sgLimit d || ((sgSpace d = 1 || sgSpace d = 2) && sgBase d + off + E - 1 > 0xFFFFF)

/-- The index of a list position, none when its word has a double-bit error (R292, R332). -/
def Core.indexAt (x : Core) (k : Cmd) (p : Nat) : Option Nat :=
  if x.bad (k.idx + 4 * p) 4 then none else some (x.rd (k.idx + 4 * p) 4)

/-- The words of a gather or scatter, and the first position out of range (R292). -/
def Core.gathered (x : Core) (k : Cmd) : List Move × Option Nat :=
  let E := esBytes k.esz
  let g := k.kind = .cpyg
  let far := fun (v : Nat) => if g then outside k.src (k.soff + v * E) E else outside k.dst (k.doff + v * E) E
  let ps := steps 0 1 k.cnt
  (ps.flatMap fun p =>
    match x.indexAt k p with
    | none => []
    | some v =>
      if far v then []
      else if g then moveWords ((k.doff : Int) + p * E) (some ((k.soff : Int) + v * E)) E
      else moveWords ((k.doff : Int) + v * E) (some ((k.soff : Int) + p * E)) E,
    ps.find? fun p => ((x.indexAt k p).map far).getD false)

/-- The words that a command moves (R290 to R293), and the first list position out of range. -/
def Core.moves (x : Core) (k : Cmd) : List Move × Option Nat :=
  if k.kind.indexed then x.gathered k
  else
    match k.pat with
    | some b => (k.walked b, none)
    | none => (k.linear, none)

/-! ### Places -/

/-- Where a segment's offset lies, for a read; or the address and reason of a fault (R288, R329, R364). -/
def State.placeR (s : State) (c : Nat) (d : W128) (off : Int) : Except (Nat × Nat × Bool) Place :=
  let a := ((sgBase d : Int) + off).toNat
  if sgSpace d = 1 then .ok ⟨0, c, a, a⟩
  else if sgSpace d = 2 then .ok ⟨0, s.rankCore c (sgRank d), a, a⟩
  else
    let host := sgSpace d = 5
    match s.xlateC (s.ctxOf c) host a (some false) with
    | .ok l => .ok ⟨if host then 2 else 1, 0, l.phys, a⟩
    | .error r => .error (a, r, host)

/-- The caches take the leaf of a word that an engine has read (R365). -/
def State.cacheAt (s : State) (c : Nat) (d : W128) (off : Int) : State :=
  if sgSpace d = 4 || sgSpace d = 5 then s.cache (s.ctxOf c) (sgSpace d = 5) ((sgBase d : Int) + off).toNat else s

/-- What the resolution of a command's words comes to. -/
inductive Resolved where
  | done (l : List (Place × Option Place)) (s : State)
  | fault (va : Nat) (wr : Bool) (reason : Nat) (host : Bool)
  | stall (s : State)

/-- Resolves the words of a command, the first that faults or stalls deciding (R329, R368). -/
def State.resolve (s : State) (c : Nat) (sd dd : W128) : List Move → Resolved
  | [] => .done [] s
  | (t, o) :: l =>
    let src : Except (Nat × Nat × Bool) (Option Place) := match o with
      | none => .ok none
      | some o => match s.placeR c sd o with
        | .ok p => .ok (some p)
        | .error e => .error e
    match src with
    | .error e => .fault e.1 false e.2.1 e.2.2
    | .ok src =>
      let s := match o with
        | some o => s.cacheAt c sd o
        | none => s
      let go := fun (p : Place) (s : State) =>
        match s.resolve c sd dd l with
        | .done r s => Resolved.done ((p, src) :: r) s
        | z => z
      let a := ((sgBase dd : Int) + t).toNat
      if sgSpace dd = 1 then go ⟨0, c, a, a⟩ s
      else if sgSpace dd = 2 then go ⟨0, s.rankCore c (sgRank dd), a, a⟩ s
      else
        let host := sgSpace dd = 5
        match s.xlateW (s.ctxOf c) host a with
        | .bad r => .fault a true r host
        | .stall s => .stall s
        | .at_ p s => go ⟨if host then 2 else 1, 0, p, a⟩ s

/-- The word at a place (R278). -/
def State.wordAt (s : State) (p : Place) : Nat :=
  if p.space = 0 then (s.core p.who).rd p.addr 4
  else if p.space = 1 then Memory.read s.hbm p.addr 4 else Memory.read s.host p.addr 4

/-- Whether the word at a place has an uncorrectable error (R20, R394). -/
def State.badAt (s : State) (p : Place) : Bool :=
  if p.space = 0 then (s.core p.who).bad p.addr 4 else p.space = 1 && s.hub.badLines.contains (p.addr / 64)

/-- A correctable line of HBM is corrected in the read, each time that it is read (R394). -/
def State.touchLine (s : State) (line : Nat) : State := if s.hub.weakLines.contains line then s.corrected 1 else s

/-- Corrects the word that an engine reads (R20, R394). -/
def State.touchAt (s : State) (p : Place) : State :=
  if p.space = 0 then s.touch p.who p.addr 4 else if p.space = 1 then s.touchLine (p.addr / 64) else s

/-- Corrects the words that an engine reads (R20, R394). -/
def State.touchPlaces (s : State) (l : List Place) : State := l.foldl State.touchAt s

/-- Performs a write of an engine for a slot, whose adds read the word first (R277, R287, R292). -/
def State.doWrite (s : State) (c i : Nat) (w : WrOp) : State :=
  let p : Place := ⟨w.space, w.who, w.addr, 0⟩
  let put := fun (s : State) (v : Nat) =>
    if w.space = 0 then s.modCore w.who fun x => x.engWr w.addr 4 v
    else if w.space = 1 then { s with hbm := Memory.write s.hbm w.addr 4 v }
    else { s with host := Memory.write s.host w.addr 4 v }
  match w.op with
  | 0 => put s w.val
  | 1 => put (s.touchAt p) ((s.wordAt p + w.val) % 2 ^ 32)
  | 2 =>
    let s := s.touchAt p
    let a := Fmt.f32.val (s.wordAt p)
    let b := Fmt.f32.val w.val
    let r := Fmt.f32.result .rne [a, b] (a.add .rne b)
    (put s r.1).raise c i [r.2]
  | _ => s.modCore w.who fun x => x.setFe w.addr (w.val = 1)

/-- The FE bits of 32 words from a local address, as a word (R287). -/
def Core.feWord (x : Core) (a : Nat) : Nat := packN 1 (fun b => (x.isFull (a + 4 * b)).toNat) 32

/-- The writes that one word of a command makes, and the places whose error keeps it from being written (R287, R332). -/
def State.moveOps (s : State) (k : Cmd) (e : Place × Option Place) : List WrOp × List Place :=
  match e.2 with
  | none => ([⟨e.1.space, e.1.who, e.1.addr, 0, (k.pat.map patPad).getD 0, e.1.va⟩], [])
  | some p =>
    let bad := (if s.badAt p then [p] else []) ++ (if k.opc != 0 && s.badAt e.1 then [e.1] else [])
    if bad.isEmpty then ([⟨e.1.space, e.1.who, e.1.addr, k.opc, s.wordAt p, e.1.va⟩], []) else ([], bad)

/-- The moves of an FEM command, one for each word of bits: the first word of the 32 on the LOCAL side, and the word of
bits on the other (R287). -/
def Cmd.femMoves (k : Cmd) : List Move :=
  let src := sgSpace k.src = 1
  (steps 0 1 (k.len / 128)).map fun (j : Nat) =>
    ((k.doff : Int) + (if src then 4 else 128) * j, some ((k.soff : Int) + (if src then 128 else 4) * j))

/-- The writes of a word of bits of an FEM command (R287). -/
def State.femOps (s : State) (c : Nat) (k : Cmd) (e : Place × Option Place) : List WrOp × List Place :=
  match e.2 with
  | none => ([], [])
  | some p =>
    if sgSpace k.src = 1 then ([⟨e.1.space, e.1.who, e.1.addr, 0, (s.core c).feWord p.addr, e.1.va⟩], [])
    else if s.badAt p then ([], [p])
    else ((List.range 32).map fun b => ⟨0, c, e.1.addr + 4 * b, 3, fld (s.wordAt p) b 1, 0⟩, [])

/-! ### Work -/

/-- Whether a command accesses nothing (R291). -/
def Cmd.idle (k : Cmd) : Bool :=
  if k.kind.indexed then k.cnt = 0
  else
    match k.pat with
    | some b => (patRange b 0 (patSS b) true).isNone && k.padskip
    | none => k.len = 0

/-- The ranks of a multicast's list (R298). -/
def Core.listRanks (x : Core) (k : Cmd) : List Nat := x.rankList k.idx k.cnt

/-- The words of a multicast's list that have a double-bit error (R332). -/
def Core.listBad (x : Core) (k : Cmd) : List Nat :=
  ((steps 0 1 k.cnt).map fun j => (k.idx + 2 * j) / 4 * 4).eraseDups.filter fun a => x.bad a 4

/-- Whether a multicast's list names a rank that the gang has not, or one twice (R298). -/
def Core.listWrong (x : Core) (k : Cmd) : Bool :=
  (x.listRanks k).any (· ≥ x.gsize) || (x.listRanks k).eraseDups.length < (x.listRanks k).length

/-- Whether a command accesses neither segment (R291, R292): it is empty, or every element of its list lies outside its
segment. -/
def Core.writesNone (x : Core) (k : Cmd) : Bool := k.idle || (k.kind.indexed && (x.gathered k).1.isEmpty)

/-- The words that a command moves, those of a multicast to one of its targets (R287, R290 to R293). -/
def Core.wordsOfCmd (x : Core) (k : Cmd) : List Move × Option Nat := if k.fem then (k.femMoves, none) else x.moves k

/-- The writes that one word of a command makes, and the places whose error keeps it from being written (R287, R332). -/
def State.opsOf (s : State) (c : Nat) (k : Cmd) (e : Place × Option Place) : List WrOp × List Place :=
  if k.fem then s.femOps c k e else s.moveOps k e

/-- Whether a command writes nothing to a destination (R347): it has no word to move, or each meets a double-bit error (R332). -/
def State.writesNone (s : State) (c : Nat) (k : Cmd) (dst : W128) : Bool :=
  match s.resolve c k.src dst ((s.core c).wordsOfCmd k).1 with
  | .done l _ => l.all fun e => (s.opsOf c k e).1.isEmpty
  | _ => false

/-- Whether a BF multicast's pair is still registered (R299). -/
def State.pairBusy (s : State) (c : Nat) (k : Cmd) : Bool :=
  k.bf && s.hub.bufs.any fun b => b.core = c && b.slot = k.slot && b.tag = k.tag

/-- Whether a stream's refill entered a queue before a command (R308). -/
def Core.refillFirst (x : Core) (q id : Nat) : Bool :=
  x.su.toList.any fun y => y.queue = q && y.ticket.any fun t => t < id

/-- The command of a queue that may start (R285, R299, R308): those before it, and the refills, have performed their writes. -/
def State.nextCmd (s : State) (c q : Nat) : Option Cmd :=
  match (vget (s.core c).cq q []).dropWhile fun k => k.written with
  | [] => none
  | k :: _ => if k.started || s.pairBusy c k || (s.core c).refillFirst q k.id then none else some k

/-- A core that an engine's access reaches is awake, or is to be stoked first: until when (R200). -/
def State.engineReach (s : State) (d : Nat) : Option Nat :=
  let x := s.core d
  if x.banked then some (s.now + 40)
  else x.restart.bind fun t => if s.now < t then some t else none

/-- The latest cycle until which one of two cores restarts, and the state in which they do (R200). -/
def State.reachBoth (s : State) (a b : Nat) : Option (Nat × State) :=
  match s.engineReach a, s.engineReach b with
  | none, none => none
  | x, y => some (max (x.getD 0) (y.getD 0), (s.stoke a).stoke b)

/-- The core on a side of a command. -/
def State.sideCore (s : State) (c : Nat) (d : W128) : Nat := if sgSpace d = 2 then s.rankCore c (sgRank d) else c

/-- Whether a write is performed first, of the two parts in which a command's writes become visible (R277): a free choice
for each word. So the adds of one command to one word are made in list order, which R51 and R292 do not promise: DESIGN CHOICE
(log entry 135). -/
def firstPart (nonce : Nat) (w : WrOp) : Bool := Config.free (nonce + 2 ^ 64 * (w.addr / 4 + 1)) % 2 = 0

/-- Changes a command and a core's state. -/
def State.modCmd (s : State) (c id : Nat) (f : Cmd → Cmd) : State := s.modCore c fun x => x.modCmd id f

/-- The reports of the words that a command met with a double-bit error (R332). -/
def State.copyErrors (s : State) (c : Nat) (k : Cmd) (l : List Place) : State :=
  l.foldl (fun s p => s.eccRecord c 0 k.queue (s.tid c k.slot) p.va) s

/-- The ring of a core takes a push (R137, R297), or must wait; a released ring discards it. -/
def Core.ringPush (x : Core) (q : Nat) (owner : Option Nat) : Option Core :=
  let r := x.ringOf q
  if r.owner.isNone || (owner.isSome && r.owner != owner) then some x
  else if r.count ≤ r.nsm1 then some (x.setRing q r.push) else none

/-- Tries the push of the ring of a core by a command, of the given owner or any (R297, R298): none where it must wait. -/
def State.tryPush (s : State) (d ring : Nat) (owner : Option Nat) : Option State :=
  match (s.core d).ringPush ring owner with
  | some x => some ((s.setCore d { x with busy := true }).stoke d)
  | none => none

/-- The writes of a command are performed: its ring is pushed, or the push waits, and its message with it (R295, R297); the
pushes of a multicast's receivers are their own (R298). -/
def State.copyWritten (s : State) (c : Nat) (k : Cmd) : State :=
  let s := s.modCmd c k.id fun k => { k with written := true, got := [], unread := none, todo := some [] }
  if !k.rv || k.kind = .mcast || k.status = 1 then s.modCmd c k.id fun k => { k with complete := true }
  else
    match s.tryPush c k.ring (some k.slot) with
    | some s => s.modCmd c k.id fun k => { k with complete := true }
    | none => s.modCmd c k.id fun k => { k with pushes := true }

/-- The push of a multicast's ring at a receiver, which waits there for a pop where the ring is full (R298). -/
def State.receiverPush (s : State) (c : Nat) (k : Cmd) (rank : Nat) : State :=
  let d := s.rankCore c rank
  if !k.rv then s
  else (s.tryPush d k.ring none).getD (s.modCore d fun x => { x with pushWait := x.pushWait ++ [k.ring] })

/-- Whether a word is read in the first of the two parts in which a command's words are read (R278): a free choice for each
word that it writes, one for all adds to one word (log entry 135). -/
def firstRead (nonce : Nat) (e : Place × Option Place) : Bool :=
  Config.free (nonce + 2 ^ 64 * (e.1.addr / 4 + 1)) % 2 = 0

/-- Reads words for a command (R20, R278, R332): the state, the writes they make, and the places that met a double-bit error. -/
def State.readMoves (s : State) (c : Nat) (k : Cmd) (l : List (Place × Option Place)) : State × List WrOp × List Place :=
  let ops := l.map (s.opsOf c k)
  let bads := ops.flatMap (·.2)
  let s := s.copyErrors c k bads
  let s := if k.fem && sgSpace k.src = 1 then s
    else s.touchPlaces (l.filterMap (·.2))
  (s, ops.flatMap (·.1), bads)

/-- The status that words with double-bit errors leave (R301). -/
def Cmd.met (k : Cmd) (bads : List Place) : Nat := if bads.isEmpty then k.status else 2

/-- The engine reads a first part of a command's words (R278, R294); what faults holds it (R329), and a command that writes
nothing is complete at once (R291, R347). -/
def State.copyRead (s : State) (c : Nat) (k : Cmd) : State :=
  let mv := (s.core c).wordsOfCmd k
  let lost := if k.kind.indexed then
      ((steps 0 1 k.cnt).filter fun p => ((s.core c).indexAt k p).isNone).map fun p =>
        (⟨0, c, k.idx + 4 * p, k.idx + 4 * p⟩ : Place)
    else []
  let s := if k.kind.indexed then s.touch c k.idx (4 * k.cnt) else s
  let k := { k with status := if !lost.isEmpty then 2 else if mv.2.isSome then 5 else 0, badpos := mv.2 }
  if mv.1.isEmpty then ((s.copyErrors c k lost).modCmd c k.id fun _ => k).copyWritten c k
  else
    match s.reachBoth (s.sideCore c k.src) (s.sideCore c k.dst) with
    | some (t, s) => s.modCmd c k.id fun k => { k with due := t }
    | none =>
      match s.resolve c k.src k.dst mv.1 with
      | .fault va wr reason host => s.faultOf c 0 k.queue va wr reason host
      | .stall s => s.modCmd c k.id fun k => { k with due := s.now + 1 }
      | .done l s =>
        if l.all fun e => (s.opsOf c k e).1.isEmpty then
          let r := (s.copyErrors c k lost).readMoves c k l
          (r.1.modCmd c k.id fun _ => { k with status := k.met r.2.2 }).copyWritten c k
        else
        let n := s.nonce
        let d := State.draw { s with nonce := n + 1 } 1 64
        let r := (d.2.copyErrors c k lost).readMoves c k (l.filter (firstRead n))
        r.1.modCmd c k.id fun _ =>
          { k with got := r.2.1, unread := some (0, l.filter fun e => !firstRead n e), due := s.now + d.1, status := k.met r.2.2 }

/-- The first place of words still to be read that lies in lost stacks (R363). -/
def State.lostPlace (s : State) (l : List (Place × Option Place)) : Option Place :=
  l.findSome? fun e => e.2.bind fun p => if p.space = 1 && s.stackLost p.addr then some p else none

/-- Whether a write's home lies in lost stacks (R363). -/
def State.lostWrite (s : State) (w : WrOp) : Bool := w.space = 1 && s.stackLost w.addr

/-- Performs the writes of a command; those to lost stacks stay, and hold it (R329, R363). -/
def State.copyLand (s : State) (c : Nat) (k : Cmd) (ws rest : List WrOp) : State :=
  let lost := ws.filter s.lostWrite
  let s' := (ws.filter fun w => !s.lostWrite w).foldl (fun t w => t.doWrite c k.slot w) s
  let s' := s'.modCmd c k.id fun k => { k with todo := some (lost ++ rest) }
  match lost with
  | [] => s'
  | w :: _ => s'.faultOf c 0 k.queue w.va true 5 false

/-- The engine reads the rest of a command's words, and performs a first part of its writes (R277, R278, R294). -/
def State.copyRest (s : State) (c : Nat) (k : Cmd) (l : List (Place × Option Place)) : State :=
  match s.lostPlace l with
  | some p => s.faultOf c 0 k.queue p.va false 5 false
  | none =>
    let n := s.nonce
    let d := State.draw { s with nonce := n + 1 } 1 128
    let r := d.2.readMoves c k l
    let ws := k.got ++ r.2.1
    let s := r.1.modCmd c k.id fun k =>
      { k with got := [], unread := none, due := s.now + d.1, status := k.met r.2.2
               words := (ws.filter fun w => w.op != 3).length }
    s.copyLand c k (ws.filter (firstPart n)) (ws.filter fun w => !firstPart n w)

/-- The last writes of a command (R277, R295). -/
def State.copyLast (s : State) (c : Nat) (k : Cmd) (ws : List WrOp) : State :=
  let t := s.copyLand c k ws []
  if ws.any s.lostWrite then t else t.copyWritten c k

/-- The destination segment of a target (R298). -/
def rankSeg (d : W128) (r : Nat) : W128 :=
  BitVec.ofNat 128 (d.toNat - sgRank d * 2 ^ 16 + r % 2 ^ 16 * 2 ^ 16)

/-- Whether a multicast may at once find that it writes nothing to a target, every word of its source having a double-bit error
(R332, R347). -/
def State.mcastNone (s : State) (c : Nat) (k : Cmd) (rank : Nat) : Bool :=
  let dst := rankSeg k.dst rank
  !s.wayHeld c k.src && !s.wayHeld c dst && (s.reachBoth (s.sideCore c k.src) (s.rankCore c rank)).isNone
    && s.writesNone c k dst

/-- A multicast's copy to a target that writes nothing: the words are read and reported, and the ring is pushed (R298, R332). -/
def State.mcastLost (s : State) (c : Nat) (k : Cmd) (rank : Nat) : State :=
  match s.resolve c k.src (rankSeg k.dst rank) ((s.core c).wordsOfCmd k).1 with
  | .done l s => (s.readMoves c k l).1.receiverPush c k rank
  | _ => s

/-- A multicast reads its list as it starts (R298, R299): a wrong one writes nothing, and a rank in a word with a double-bit error
is no target (R332); a BF multicast is registered. One that moves no word only pushes its receivers' rings (R291). -/
def State.mcastList (s : State) (c : Nat) (k : Cmd) : State :=
  let x := s.core c
  let fail := fun (s : State) (n : Nat) =>
    (s.modCmd c k.id fun k => { k with started := true, status := n }).copyWritten c { k with status := n }
  let s := (s.copyErrors c k ((x.listBad k).map fun a => ⟨0, c, a, a⟩)).touch c k.idx (2 * k.cnt)
  if x.listWrong k then fail s 4
  else
    let rs := x.listRanks k
    let s := if (x.listBad k).isEmpty then s else s.modCmd c k.id fun k => { k with status := 2 }
    let s : State := if k.bf && !rs.isEmpty then
        { s with hub := { s.hub with bufs := s.hub.bufs ++ [⟨c, k.slot, k.tag, rs, c⟩] } }
      else s
    if k.idle || rs.isEmpty then
      let s := s.modCmd c k.id fun k => { k with started := true, ranks := rs }
      (rs.foldl (fun s r => s.receiverPush c k r) s).copyWritten c k
    else if rs.all fun r => s.mcastNone c k r then
      let s := s.modCmd c k.id fun k => { k with started := true, ranks := rs, status := 2 }
      (rs.foldl (fun s r => s.mcastLost c k r) s).copyWritten c k
    else
      let d := s.draw 1 256
      d.2.modCmd c k.id fun k => { k with started := true, ranks := rs, left := rs, todo := some [], due := s.now + d.1 }

/-- COPY_COMMAND_START (R285): the next command of the queue starts; one that writes nothing is soon complete (R347). -/
def evCopyCommandStart (core queue : Nat) (s : State) : State :=
  match s.nextCmd core queue with
  | none => s
  | some k =>
    if k.kind = .mcast then s.mcastList core k
    else
      let d := s.draw 1 (if s.writesNone core k k.dst then 4 else 256)
      d.2.modCore core fun x => x.modCmd k.id fun k => { k with started := true, due := s.now + d.1 }

/-- Removes a command from its queue. -/
def Core.dropCmd (x : Core) (id : Nat) : Core := { x with cq := x.cq.map fun l => l.filter fun k => k.id != id }

/-- The completion message of a command (R301). -/
def State.doneMsg (s : State) (c : Nat) (k : Cmd) : Msg :=
  ⟨BitVec.ofNat 64 (k.tag * 2 ^ 48 + s.tid c k.slot * 2 ^ 32 + k.detached.toNat * 2 ^ 9 + k.uli.toNat * 2 ^ 8
      + k.status * 16 + 1),
    BitVec.ofNat 64 ((k.badpos.getD 0xFFFFFFFF) * 2 ^ 32 + k.words % 2 ^ 32), some (c, k.id)⟩

/-- Whether a command ends without a message (R285, R296). -/
def Cmd.silent (k : Cmd) : Bool := k.nomsg || (k.kind = .cpyw && !k.detached)

/-- The command of a queue that may end now: a silent one once it is complete, or the first that is still to post its
message (R285, R294, R295). -/
def Core.endable (x : Core) (q : Nat) : Option Cmd :=
  let l := vget x.cq q []
  match l.find? fun k => k.complete && k.silent with
  | some k => some k
  | none =>
    match l.find? fun k => !k.silent && !k.posted with
    | some k => if k.complete then some k else none
    | none => none

/-- A command ends: its slot wakes, or its message is posted (R295, R296). -/
def State.copyEnd (s : State) (c : Nat) (k : Cmd) : State :=
  if k.kind = .cpyw && !k.detached then
    let s := s.modCore c fun x => x.dropCmd k.id
    if (s.slot c k.slot).held = .cpyw k.id then s.wake c k.slot else s
  else if k.nomsg then s.modCore c fun x => x.dropCmd k.id
  else (s.modCmd c k.id fun k => { k with posted := true }).mailTo c k.dest (s.doneMsg c k)

/-- Whether the engine has work to do for a queue's running command (R285). -/
def State.copyDue (s : State) (c q : Nat) : Option Cmd :=
  match (s.core c).runningCmd q with
  | none => none
  | some k =>
    let held := !(s.core c).writesNone k && (s.wayHeld c k.src || s.wayHeld c k.dst)
    if k.fid.isNone && k.due ≤ s.now && k.left.isEmpty && !held then some k else none

/-- COPY_COMMAND_COMPLETE (R294 to R297): the reads of the running command in two parts, then its writes in two parts; and
the end of a complete one. -/
def evCopyCommandComplete (core queue : Nat) (s : State) : State :=
  match s.copyDue core queue with
  | some k =>
    match k.todo, k.unread with
    | none, none => s.copyRead core k
    | none, some u => s.copyRest core k u.2
    | some l, _ => s.copyLast core k l
  | none =>
    match (s.core core).endable queue with
    | some k => s.copyEnd core k
    | none => s

/-- The command of a queue whose push waits for a pop and may act (R297). -/
def State.pushDue (s : State) (c q : Nat) : Option Cmd :=
  (vget (s.core c).cq q []).find? fun k => k.pushes && (s.tryPush c k.ring (some k.slot)).isSome

/-- The push of a multicast that waits at a receiver and may act (R298). -/
def State.receiverDue (s : State) (c : Nat) : Option Nat :=
  (s.core c).pushWait.find? fun r => (s.tryPush c r none).isSome

/-- COPY_RING_PUSH_DEFERRED (R297, R298): a push that waited on a full ring acts after a pop: a command's own, or, with queue 0,
one of a multicast at this receiver. -/
def evCopyRingPushDeferred (core queue : Nat) (s : State) : State :=
  match s.pushDue core queue with
  | some k =>
    ((s.tryPush core k.ring (some k.slot)).getD s).modCmd core k.id fun k => { k with pushes := false, complete := k.written }
  | none =>
    if queue != 0 then s
    else
      match s.receiverDue core with
      | none => s
      | some r => ((s.tryPush core r none).getD s).modCore core fun x => { x with pushWait := x.pushWait.erase r }

/-- The multicast of a queue that has targets to write, and the one it reads for or writes next: a free choice (R298). -/
def State.mcastDue (s : State) (c q : Nat) : Option (Cmd × Nat) :=
  match (s.core c).runningCmd q with
  | none => none
  | some k =>
    let r := (k.unread.map (·.1)).getD (k.left.getD (Config.free s.nonce % k.left.length) 0)
    if k.fid.isSome || s.now < k.due || k.left.isEmpty || s.wayHeld c k.src || s.wayHeld c (rankSeg k.dst r) then none
    else some (k, r)

/-- The engine reads a first part of the words of a multicast's target (R278, R298). -/
def State.mcastRead (s : State) (c : Nat) (k : Cmd) (rank : Nat) : State :=
  match s.reachBoth (s.sideCore c k.src) (s.rankCore c rank) with
  | some (t, s) => s.modCmd c k.id fun k => { k with due := t }
  | none =>
    match s.resolve c k.src (rankSeg k.dst rank) ((s.core c).moves k).1 with
    | .fault va wr reason host => s.faultOf c 0 k.queue va wr reason host
    | .stall s => s.modCmd c k.id fun k => { k with due := s.now + 1 }
    | .done l s =>
      let n := s.nonce
      let d := State.draw { s with nonce := n + 1 } 1 64
      let r := d.2.readMoves c k (l.filter (firstRead n))
      r.1.modCmd c k.id fun k =>
        { k with got := r.2.1, unread := some (rank, l.filter fun e => !firstRead n e), due := s.now + d.1, status := k.met r.2.2 }

/-- The rest of the words of a multicast's target is read, its copy is made, and its ring pushed (R298). -/
def State.mcastRest (s : State) (c : Nat) (k : Cmd) (rank : Nat) (l : List (Place × Option Place)) : State :=
  match s.lostPlace l with
  | some p => s.faultOf c 0 k.queue p.va false 5 false
  | none =>
    let d := s.draw 1 64
    let r := d.2.readMoves c k l
    let ws := k.got ++ r.2.1
    let t := ws.foldl (fun s w => s.doWrite c k.slot w) r.1
    let k := { k with
      got := [], unread := none, left := k.left.erase rank, words := k.words + ws.length, due := s.now + d.1
      status := k.met r.2.2 }
    let t := (t.modCmd c k.id fun _ => k).receiverPush c k rank
    if k.left.isEmpty then t.copyWritten c k else t

/-- MCAST_TARGET_COMPLETE (R298): one target's words are read in two parts and its copy is made. -/
def evMcastTargetComplete (core queue rank : Nat) (s : State) : State :=
  match (s.core core).runningCmd queue with
  | none => s
  | some k =>
    if !k.left.contains rank || k.fid.isSome || s.now < k.due then s
    else
      match k.unread with
      | none => s.mcastRead core k rank
      | some (r, l) => if r = rank then s.mcastRest core k rank l else s

/-! ### Credits and status -/

/-- BUFFREE (R299): the routers combine it with those of the other ranks of the list; a stray, one that names a TID beyond the
gang among them, is discarded. -/
def semBuffree (a : BitVec 6) (s : State) : Res :=
  let v := (s.rs a.toNat).toNat
  let h := s.ofTid s.cur.1 (fld v 0 15)
  let tag := fld v 16 16
  let r := s.my.rank
  let mine := fun (b : BufReg) => b.core = h.1 && b.slot = h.2 && b.tag = tag && b.left.contains r
  match if fld v 0 15 < s.my.gsize * 16 then s.hub.bufs.find? mine else none with
  | none => .ok s
  | some b =>
    let left := b.left.erase r
    let s : State := { s with hub := { s.hub with bufs := s.hub.bufs.map fun u => if u = b then { u with left := left, last := s.cur.1 } else u } }
    .ok (if left.isEmpty then s.sendTo s.cur.1 h.1 (fun _ => false) (.buffreeCredit h.1 h.2 tag) else s)

/-- BUFFREE_CREDIT (R299, R301, R303): the credit arrives and the registration ends. -/
def evBuffreeCredit (core slot tag : Nat) (s : State) : State :=
  if !(s.hub.bufs.any fun b => b.core = core && b.slot = slot && b.tag = tag && b.left.isEmpty) then s
  else
    s.arrive core (.buffreeCredit core slot tag) fun s =>
      let s : State := { s with hub := { s.hub with bufs := s.hub.bufs.filter fun b =>
        !(b.core = core && b.slot = slot && b.tag = tag) } }
      if (s.slot core slot).st = .idle then s
      else
        let s := s.modSlot core slot fun t =>
          { t with credits := if t.credits = 0xFFFF#16 then t.credits else t.credits + 1 }
        if (s.slot core slot).held = .waitmsg true then s.wake core slot else s

/-- CPYQSTAT (R300). -/
def semCpyqstat (d q : BitVec 6) (s : State) : Res :=
  let l := s.my.places q.toNat
  let v := match l with
    | [] => 0
    | k :: _ => k.tag * 2 ^ 48 + k.fid.isSome.toNat * 65536 + l.length
  .ok (s.ws d.toNat (BitVec.ofNat 64 v))

/-! ### Meanings -/

/-- MCAST (R298). -/
def execMcast (n a : BitVec 6) (s : State) : Host.Outcome State Fault Refusal := s.aloneS fun s => semMcast n a s
/-- CPYT (R290). -/
def execCpyt (n : BitVec 6) (s : State) : Host.Outcome State Fault Refusal := s.aloneS fun s => semCpyt n s
/-- CPYS (R292). -/
def execCpys (n : BitVec 6) (s : State) : Host.Outcome State Fault Refusal := s.aloneS fun s => semCpys n s
/-- CPYG (R292). -/
def execCpyg (n : BitVec 6) (s : State) : Host.Outcome State Fault Refusal := s.aloneS fun s => semCpyg n s
/-- CPYW (R296). -/
def execCpyw (n : BitVec 6) (s : State) : Host.Outcome State Fault Refusal := s.aloneS fun s => semCpyw n s
/-- CPY (R291). -/
def execCpy (n : BitVec 6) (s : State) : Host.Outcome State Fault Refusal := s.aloneS fun s => semCpy n s
/-- BUFFREE (R299). -/
def execBuffree (a : BitVec 6) (s : State) : Host.Outcome State Fault Refusal := s.aloneS fun s => semBuffree a s
/-- CPYQSTAT (R300). -/
def execCpyqstat (d q : BitVec 6) (s : State) : Host.Outcome State Fault Refusal :=
  s.aloneS fun s => semCpyqstat d q s
/-- COPY_QUEUE_PLACE_FREE (R285). -/
def execCopyQueuePlaceFree (core slot : Nat) (s : State) : Host.Outcome State Fault Refusal :=
  .next (evCopyQueuePlaceFree core slot s)
/-- COPY_COMMAND_START (R285). -/
def execCopyCommandStart (core queue : Nat) (s : State) : Host.Outcome State Fault Refusal :=
  .next (evCopyCommandStart core queue s)
/-- COPY_COMMAND_COMPLETE (R295). -/
def execCopyCommandComplete (core queue : Nat) (s : State) : Host.Outcome State Fault Refusal :=
  .next (evCopyCommandComplete core queue s)
/-- COPY_RING_PUSH_DEFERRED (R297). -/
def execCopyRingPushDeferred (core queue : Nat) (s : State) : Host.Outcome State Fault Refusal :=
  .next (evCopyRingPushDeferred core queue s)
/-- MCAST_TARGET_COMPLETE (R298). -/
def execMcastTargetComplete (core queue rank : Nat) (s : State) : Host.Outcome State Fault Refusal :=
  .next (evMcastTargetComplete core queue rank s)
/-- BUFFREE_CREDIT (R299). -/
def execBuffreeCredit (core slot tag : Nat) (s : State) : Host.Outcome State Fault Refusal :=
  .next (evBuffreeCredit core slot tag s)

end Sys2Proof.Machine
end

