-- ==== Sys2Proof/Machine/Stream.lean ====
section
/-! DEFINITION. Global streams, ports and pipes as streams, and the Caddy (R306 to R316). -/

namespace Sys2Proof.Machine

/-! ### Binding -/

/-- A stream unit of a core. -/
def Core.suOf (x : Core) (u : Nat) : Stream := vget x.su u Stream.reset

/-- The HANDLE of a unit, port or pipe (R317). -/
def suHandle (reason n : Nat) : Res := .trap cHANDLE (hDetail reason n)

/-- The ownership rules of a binding (R307): goes on with the free unit. -/
def State.withUnit (s : State) (u : Nat) (k : Res) : Res :=
  let y := s.my.suOf u
  match y.owner with
  | none => k
  | some i => if i != s.cur.2 then suHandle 1 u else suHandle 3 u

/-- Reads a pattern block at issue (R289, R307): the block and its local address, or the fault. -/
def State.readBlock (s : State) (blk : Nat) : Except (Nat × W32) (BitVec 512 × Nat) :=
  let off : Int := blk
  match s.seg0 off 64 64 .load with
  | .at x => if s.my.bad x 64 then .error (cECCFATAL, offDetail off) else .ok (BitVec.ofNat 512 (s.my.rd x 64), x)
  | .remote _ _ => .error (cSPACE, offDetail off)
  | .bad c => .error (c, offDetail off)

/-- A block that no stream takes (R289, R307): its elements are strips, and it has no destination strides. -/
def strmBlockBad (b : BitVec 512) : Bool := patMalformed b false || patE b != 128

/-- The checks of a GLOBAL or HOST pattern (R288, R307): its bounding range and its staging area, whose local address
they give. -/
def State.strmChecks (s : State) (d : W128) (wr : Bool) (base : Nat) (r : Range) (stg : Nat) :
    Option (Nat × W32) × Nat :=
  let lo : Int := (r.map (·.1)).getD (base : Int)
  let al : Option (Nat × W32) := if base % 4 != 0 then some (cALIGN, BitVec.ofNat 32 (wr.toNat * 2 ^ 31 + wrap 31 lo)) else none
  let g := s.seg0 stg 4096 128 .store
  (minTrap al (minTrap (engSeg s.my.gsize d wr true false base r) (g.trapAt stg)),
    match g with
    | .at a => a
    | _ => 0)

/-- The range of a stream's valid strips (R290, R307). -/
def strmRange (b : BitVec 512) (base : Nat) : Range := patRange b base (patSS b) true

/-- SCFG (R307). -/
def semScfg (n : BitVec 6) (k : BitVec 3) (r : BitVec 1) (u : BitVec 3) (s : State) : Res :=
  let w0 := (s.rs n.toNat).toNat
  let w1 := (s.rs (n.toNat + 1)).toNat
  let w2 := (s.rs (n.toNat + 2)).toNat
  let w3 := s.rs (n.toNat + 3)
  let d := s.me.rsg (fld w0 61 3)
  let sp := sgSpace d
  let wr : Bool := r = 1
  let base := fld w0 0 48
  let far : Bool := sp = 4 || sp = 5
  s.withUnit u.toNat <|
    if fld w0 48 13 != 0 || fld w1 20 44 != 0 || fld w1 0 20 % 64 != 0 || w3 != 0
        || (far && (fld w2 22 42 != 0 || fld w2 0 20 % 128 != 0)) then suHandle 4 u.toNat
    else
      let space : Option (Nat × W32) := if sp = 1 || far then none
        else some (cSPACE, BitVec.ofNat 32 (wr.toNat * 2 ^ 31 + wrap 31 base))
      match s.readBlock (fld w1 0 20) with
      | .error e =>
        match minTrap (minTrap (some e) space) (if far then (s.strmChecks d wr base none (fld w2 0 20)).1 else none) with
        | some t => .trap t.1 t.2
        | none => .trap e.1 e.2
      | .ok (b, x) =>
        if strmBlockBad b then suHandle 4 u.toNat
        else
          let g := if far then s.strmChecks d wr base (strmRange b base) (fld w2 0 20) else (space, 0)
          match g.1 with
          | some t => .trap t.1 t.2
          | none =>
            .ok ((s.touch s.cur.1 x 64).modMy fun x => x.setSu u.toNat
              { Stream.reset with
                owner := some s.cur.2, kind := if far then .global else .pattern, write := wr, pred := k.toNat
                queue := if far then fld w2 20 2 else 0, blk := b, seg := d, base := base
                stg := if far then fld w2 0 20 else 0, stgAt := g.2 })

/-- A port or a pipe end that a slot may be bound to (R309): none, or the HANDLE of what it may not. -/
def Core.endRefused (x : Core) (i : Nat) (pipe wr : Bool) (e : Nat) : Bool :=
  if pipe then (if wr then (x.pipeOf e).prod else (x.pipeOf e).cons) != some i
  else (x.portOf e).owner != none && (x.portOf e).owner != some i

/-- A port's owner is the slot that binds a unit to it (R309). -/
def Core.takePort (x : Core) (e i : Nat) : Core := { x with port := vset x.port e { x.portOf e with owner := some i } }

/-- SBIND (R309): a HANDLE of the unit or the port comes before ILLEGAL (R69). -/
def semSbind (e k : BitVec 3) (t r : BitVec 1) (u : BitVec 3) (s : State) : Res :=
  let pipe : Bool := t = 1
  let wr : Bool := r = 1
  s.withUnit u.toNat <|
    if (pipe || e.toNat ≤ 3) && s.my.endRefused s.cur.2 pipe wr e.toNat then suHandle 1 e.toNat
    else if !pipe && (wr || e.toNat > 3) then .trap cILLEGAL 0
    else
        .ok (s.modMy fun x =>
          let x := if pipe then x else x.takePort e.toNat s.cur.2
          x.setSu u.toNat
            { Stream.reset with
              owner := some s.cur.2, kind := if pipe then .pipe else .port, write := wr, pred := k.toNat, num := e.toNat })

/-! ### Refills and drains (R308) -/

/-- Whether a read stream is to be refilled: it has a place and a strip to fetch (R308). -/
def Stream.wantsRefill (y : Stream) : Bool :=
  y.kind = .global && !y.write && y.fid.isNone && y.failed.isNone && !y.ended && y.staged.length < stageStrips
    && y.moved < patCount y.blk

/-- Whether a write stream is to be drained (R308). -/
def Stream.wantsDrain (y : Stream) : Bool := y.kind = .global && y.write && y.fid.isNone && !y.staged.isEmpty

/-- Whether a unit's engine work is due: it starts, or its time has come. -/
def Stream.workDue (y : Stream) (now : Nat) : Bool := !y.flight || y.due ≤ now

/-- Whether a refill's turn has come in its queue: the commands and the refills that entered it before have left it (R285, R308). -/
def Core.refillTurn (x : Core) (y : Stream) (t : Nat) : Bool :=
  (vget x.cq y.queue []).all (fun k => k.written || t < k.id)
    && x.su.toList.all fun z => !(z.queue = y.queue && z.ticket.any fun w => w < t)

/-- Whether STREAM_REFILL has something to do: not at a pre-empted core (R308, R334). -/
def State.refillDue (s : State) (c u : Nat) : Bool :=
  let y := (s.core c).suOf u
  y.wantsRefill && y.workDue s.now && !s.wayHeld c y.seg && !(s.core c).preempt && y.ticket.all fun t => (s.core c).refillTurn y t

/-- Whether STREAM_DRAIN has something to do (R308). -/
def State.drainDue (s : State) (c u : Nat) : Bool :=
  let y := (s.core c).suOf u
  y.wantsDrain && y.workDue s.now && !s.wayHeld c y.seg

/-- The places of a strip's words, or the first fault (R329). -/
def State.placesR (s : State) (c : Nat) (d : W128) : List Int → Except (Nat × Nat × Bool) (List Place)
  | [] => .ok []
  | o :: l =>
    match s.placeR c d o with
    | .error e => .error e
    | .ok p =>
      match s.placesR c d l with
      | .error e => .error e
      | .ok r => .ok (p :: r)

/-- The offsets of a strip's words. -/
def stripOffs (off : Int) : List Int := (steps 0 1 32).map fun (j : Nat) => off + 4 * j

/-- Starts a unit's work on a strip, at a free speed. -/
def State.strmStart (s : State) (c u : Nat) : State :=
  let d := s.draw 1 64
  d.2.modCore c fun x => x.setSu u { x.suOf u with flight := true, due := s.now + d.1 }

/-- A fetched strip joins a read stream. -/
def State.strmStage (s : State) (c u : Nat) (t : Strip) : State :=
  let y := (s.core c).suOf u
  (s.scramble c y y.moved true).modCore c fun x =>
    x.setSu u { y with staged := y.staged ++ [(t, 0xFFFFFFFF#32)], moved := y.moved + 1, flight := false, ticket := none }

/-- A unit's next refill enters the tail of its queue (R285, R308). -/
def State.strmQueue (s : State) (c u : Nat) : State :=
  { s.modCore c fun x => x.setSu u { x.suOf u with ticket := some s.nonce } with nonce := s.nonce + 1 }

/-- STREAM_REFILL (R308, R329, R332): the engine fetches the next strip of a read stream, in its turn in queue QUEUE, whose
later commands wait for it. -/
def evStreamRefill (core unit : Nat) (s : State) : State :=
  let y := (s.core core).suOf unit
  if !s.refillDue core unit then s
  else if y.ticket.isNone then s.strmQueue core unit
  else if !y.flight then s.strmStart core unit
  else if !patValid y.blk y.moved then s.strmStage core unit ⟨padStrip (patPad y.blk), false, false⟩
  else
    match s.placesR core y.seg (stripOffs (patSrc y.blk y.base y.moved)) with
    | .error e => s.faultOf core 1 unit e.1 false e.2.1 e.2.2
    | .ok l =>
      let s := (stripOffs (patSrc y.blk y.base y.moved)).foldl (fun s o => s.cacheAt core y.seg o) s
      let bads := l.filter s.badAt
      let s := bads.foldl (fun s p => s.eccRecord core 1 unit (s.tid core (y.owner.getD 0)) p.va) s
      let s := (s.touchPlaces l)
      s.strmStage core unit ⟨VReg.ofElems 32 fun j => (l[j]?.map s.wordAt).getD 0, !bads.isEmpty, false⟩

/-- The words that a drained strip writes (R110, R308, R368): resolved, faulting or to wait. -/
def State.drainWords (s : State) (c i : Nat) (y : Stream) (v : VReg) (off : Int) : List Nat → Option (Nat × Nat × Bool) × Bool × State
  | [] => (none, false, s)
  | j :: l =>
    let a := ((sgBase y.seg : Int) + off + 4 * j).toNat
    let host := sgSpace y.seg = 5
    match s.xlateW (s.ctxOf c) host a with
    | .bad r => (some (a, r, host), false, s)
    | .stall s => (none, true, s)
    | .at_ p s' =>
      match s'.drainWords c i y v off l with
      | (none, false, r) => (none, false, r.doWrite c i ⟨if host then 2 else 1, 0, p, 0, VReg.elem v 32 j, a⟩)
      | z => z

/-- The oldest strip of a write stream is done with. -/
def State.strmDrop (s : State) (c u : Nat) : State :=
  s.modCore c fun x =>
    let y := x.suOf u
    x.setSu u { y with staged := y.staged.tail, moved := y.moved + 1, flight := false }

/-- STREAM_DRAIN (R308, R329, R332): the engine writes the next strip of a write stream; a padded one writes nothing, and a word
whose staging word has a double-bit error is not written. -/
def evStreamDrain (core unit : Nat) (s : State) : State :=
  let y := (s.core core).suOf unit
  match y.staged with
  | [] => s
  | (t, m) :: _ =>
    if !s.drainDue core unit then s
    else if !y.flight then s.strmStart core unit
    else if !patValid y.blk y.moved then s.strmDrop core unit
    else
      let a := y.stgOf y.moved
      let lanes := (steps 0 1 32).filter fun j => m.getLsbD j
      let bads := lanes.filter fun j => (s.core core).bad (a + 4 * j) 4
      match s.drainWords core (y.owner.getD 0) y t.v (patSrc y.blk y.base y.moved) (lanes.filter fun j => !bads.contains j) with
      | (some e, _, _) => s.faultOf core 2 unit e.1 true e.2.1 e.2.2
      | (none, true, s) => s.modCore core fun x => x.setSu unit { x.suOf unit with due := s.now + 1 }
      | (none, false, s) =>
        let s := bads.foldl (fun s j => s.eccRecord core 2 unit (s.tid core (y.owner.getD 0)) (a + 4 * j)) (s.touch core a 128)
        s.strmDrop core unit

/-! ### Ports (R309, R310) -/

/-- The port a strip is sent to (R310). -/
def portSend (s : State) (n : Nat) (v : VReg) (last : Bool) : Res :=
  if s.me.relaxed.length ≥ 8 then .again .relaxFull
  else
    let home := s.rankCore s.cur.1 (s.rs (n + 1)).toNat
    let port := fld (s.rs (n + 2)).toNat 0 2
    let c := s.cur.1
    let i := s.cur.2
    let id := s.nonce + 1
    let s : State := { s with nonce := id }
    let s := s.modMe fun t => { t with relaxed := t.relaxed ++ [⟨id, home, none, 0, 0⟩] }
    .ok (s.sendTo c home (fun e => match e with
      | .portStripArrive h p _ _ d j _ => h = home && p = port && d = c && j = i
      | _ => false) (.portStripArrive home port v last c i id))

/-- The faults that PSEND and PSENDE share (R310, R333). -/
def portFault (s : State) (n : Nat) : Option (Nat × W32) :=
  let rank := (s.rs (n + 1)).toNat
  if rank ≥ s.my.gsize then some (cHANDLE, hDetail 7 rank)
  else if s.me.imv then some (cIDEMADD, s.me.markDetail) else none

/-- PSEND (R310). -/
def semPsend (n : BitVec 6) (s : State) : Res :=
  let off : Int := (s.rs n.toNat).toNat
  let at_ := s.seg0 off 128 4 .load
  let seg : Option (Nat × W32) :=
    match at_ with
    | .at a => if s.my.bad a 128 then some (cECCFATAL, offDetail off) else none
    | .remote _ _ => some (cSPACE, offDetail off)
    | .bad c => some (c, offDetail off)
  match minTrap (portFault s n.toNat) seg with
  | some t => .trap t.1 t.2
  | none =>
    match at_ with
    | .at a => portSend (s.touch s.cur.1 a 128) n.toNat (BitVec.ofNat 1024 (s.my.rd a 128)) false
    | _ => .ok s

/-- PSENDE (R310). -/
def semPsende (n : BitVec 6) (s : State) : Res :=
  match portFault s n.toNat with
  | some t => .trap t.1 t.2
  | none => portSend s n.toNat 0 true

/-- A port accepts a strip, and its sender is told (R270, R310). -/
def State.portAccept (s : State) (c port : Nat) (w : PortWait) (waits : List PortWait) : State :=
  let s := s.modCore c fun x =>
    let p := x.portOf port
    { x with port := vset x.port port { p with fifo := p.fifo ++ [w.strip], waits := waits } }
  s.afterIn 1 (s.oneWay c w.src) (fun _ => false) (.remoteReply w.src ⟨w.slot, true, w.id, .vstore, 0, 0, false, 0, c⟩)

/-- Whether the oldest strip that waits for a port may enter (R310). -/
def Core.portDue (x : Core) (port : Nat) : Option PortWait :=
  let p := x.portOf port
  if p.fifo.length < 16 then p.waits.head? else none

/-- PORT_STRIP_ARRIVE (R310): the strip enters the port, or waits for a place; one that waits enters when there is. -/
def evPortStripArrive (core port : Nat) (strip : VReg) (last : Bool) (src slot id : Nat) (s : State) : State :=
  let p := (s.core core).portOf port
  let mine := fun (w : PortWait) => w.id = id && w.src = src && w.slot = slot
  if p.waits.any mine then
    match (s.core core).portDue port with
    | some w => if mine w then s.portAccept core port w p.waits.tail else s
    | none => s
  else
    s.arrive core (.portStripArrive core port strip last src slot id) fun s =>
      let p := (s.core core).portOf port
      let w : PortWait := ⟨⟨strip, false, last⟩, src, slot, id⟩
      if p.fifo.length < 16 && p.waits.isEmpty then s.portAccept core port w []
      else s.modCore core fun x => { x with port := vset x.port port { p with waits := p.waits ++ [w] } }

/-! ### Closing, saving and restoring (R313, R314) -/

/-- Whether a d field names no stream unit: ILLEGAL, with no handle to evaluate (R69, R313). -/
def noUnit (d : BitVec 6) : Bool := d.toNat < 24 || 31 < d.toNat

/-- SCLOSE (R313). -/
def semSclose (d : BitVec 6) (s : State) : Res :=
  let u := d.toNat - 24
  let y := s.my.suOf u
  if noUnit d then .trap cILLEGAL 0
  else if y.owner != some s.cur.2 then suHandle 1 u
  else if s.my.closeReady y then .ok (s.modMy fun x => x.closeUnit u)
  else .hold none (s.await .parked (.unit (.sclose d) 0))

/-- The code of a binding's kind in an image (R314). -/
def SuKind.code : SuKind → Nat
  | .none => 0
  | .pattern => 1
  | .global => 2
  | .port => 3
  | .pipe => 4

/-- The image of a unit (R314). -/
def Stream.image (y : Stream) : Nat :=
  let pat : Bool := y.kind = .pattern || y.kind = .global
  (if pat then y.blk.toNat + y.seg.toNat * 2 ^ 512 else 0)
    + (y.queue * 2 ^ 12 + y.num * 2 ^ 8 + y.ended.toNat * 128 + y.pred * 16 + y.write.toNat * 8 + y.kind.code) * 2 ^ 640
    + y.count % 2 ^ 48 * 2 ^ 704 + y.stg * 2 ^ 768

/-- Whether a unit's image may be taken: its drain is over (R314). -/
def Stream.saveReady (y : Stream) : Bool := !(y.write && y.kind = .global) || (y.staged.isEmpty && !y.flight)

/-- SSAVE (R314). -/
def semSsave (d a : BitVec 6) (s : State) : Res :=
  let u := d.toNat - 24
  let y := s.my.suOf u
  if noUnit d then .trap cILLEGAL 0
  else if y.owner != some s.cur.2 && !s.me.level then suHandle 1 u
  else
    let off : Int := (s.rs a.toNat).toNat
    (s.seg0 off 128 8 .store).get off fun x =>
      if y.saveReady then .ok (s.modMy fun q => q.wr x 128 y.image)
      else .hold none (s.await .parked (.unit (.ssave d a) (BitVec.ofNat 256 x)))

/-- The binding that an image describes, but for its base, its segment's checks and its owner (R314). -/
def Stream.ofImage (v : Nat) : Stream :=
  let w := fld v 640 64
  let kind : SuKind := match fld w 0 3 with
    | 1 => .pattern
    | 2 => .global
    | 3 => .port
    | 4 => .pipe
    | _ => .none
  let n := fld v 704 48
  { Stream.reset with
    kind := kind, write := fld w 3 1 = 1, pred := fld w 4 3, num := fld w 8 4 % 8, queue := fld w 12 4 % 4
    blk := BitVec.ofNat 512 v, seg := BitVec.ofNat 128 (fld v 512 128), stg := fld v 768 20
    count := n, moved := n, ended := fld w 7 1 = 1 }

/-- Whether an image is malformed (R314): a reserved KIND, a malformed block, or a binding that SCFG or SBIND cannot make;
reserved bits are ignored (R5). -/
def imageBad (v : Nat) : Bool :=
  let w := fld v 640 64
  let kind := fld w 0 3
  let y := Stream.ofImage v
  kind > 4
    || ((kind = 1 || kind = 2) && strmBlockBad y.blk)
    || (kind = 2 && (fld w 14 2 != 0 || y.stg % 128 != 0))
    || ((kind = 3 || kind = 4) && fld w 11 1 != 0)
    || (kind = 3 && (y.write || y.num > 3))
    || ((kind = 1 || kind = 2 || kind = 4) && y.write && y.pred != 0)

/-- The checks of SCFG and SBIND on a restored binding (R307, R309, R314), and its staging area's address. -/
def State.restoreCheck (s : State) (own : Nat) (y : Stream) : Option (Nat × W32) × Nat :=
  let sp := sgSpace y.seg
  match y.kind with
  | .none => (none, 0)
  | .pattern => (if sp = 1 then none else some (cSPACE, BitVec.ofNat 32 (y.write.toNat * 2 ^ 31 + wrap 31 y.base)), 0)
  | .global =>
    if sp = 4 || sp = 5 then s.strmChecks y.seg y.write y.base (strmRange y.blk y.base) y.stg
    else (some (cSPACE, BitVec.ofNat 32 (y.write.toNat * 2 ^ 31 + wrap 31 y.base)), 0)
  | .port => (if s.my.endRefused own false false y.num then some (cHANDLE, hDetail 1 y.num) else none, 0)
  | .pipe => (if s.my.endRefused own true y.write y.num then some (cHANDLE, hDetail 1 y.num) else none, 0)

/-- SREST (R314). The image holds no base: a restored pattern's is a free value (log entry 11). -/
def semSrest (d a : BitVec 6) (s : State) : Res :=
  let u := d.toNat - 24
  let o := (s.my.suOf u).owner
  if noUnit d then .trap cILLEGAL 0
  else if !s.me.level && o != none && o != some s.cur.2 then suHandle 1 u
  else
    let off : Int := (s.rs a.toNat).toNat
    (s.seg0 off 128 8 .load).get off fun x =>
      if s.my.bad x 128 then .trap cECCFATAL (offDetail off)
      else
        let v := s.my.rd x 128
        if imageBad v then suHandle 4 u
        else
          let y := Stream.ofImage v
          let pat : Bool := y.kind = .pattern || y.kind = .global
          let y : Stream := { y with base := if pat then Config.free s.nonce % 2 ^ 46 * 4 else 0 }
          let own := if s.me.level then o.getD s.cur.2 else s.cur.2
          let g := s.restoreCheck own y
          match g.1 with
          | some t => .trap t.1 t.2
          | none =>
            let s := s.touch s.cur.1 x 128
            let s : State := { s with nonce := s.nonce + 1 }
            .ok (s.modMy fun q =>
              let q := if y.kind = .port then q.takePort y.num own else q
              q.setSu u (if y.kind = .none then Stream.reset else { y with owner := some own, stgAt := g.2 }))

/-! ### The Caddy (R315, R316) -/

/-- The answer of a counter, and the counter after it (R315). -/
def CaddyCtr.serve (x : CaddyCtr) : W32 × CaddyCtr :=
  if x.tcols != 0 && x.next < x.total then
    (BitVec.ofNat 32 (x.next / x.tcols * 65536 + x.next % x.tcols), { x with next := x.next + 1 })
  else (0xFFFFFFFF#32, x)

/-- Half the way of a query and its answer (R316). -/
def State.hubWay (s : State) (c : Nat) : Nat := if s.rerouted (s.die c) then 320 else 240

/-- WDQ (R316). -/
def semWdq (a : BitVec 6) (c : BitVec 3) (s : State) : Res :=
  let off : Int := (s.rs a.toNat).toNat
  (s.seg0 off 4 4 .store).get off fun x =>
    if s.me.caddy ≥ 4 then .again .caddyFull
    else
      let k := s.cur.1
      let i := s.cur.2
      let s := s.modMy fun y => y.setFe x false
      let s := s.modMe fun t => { t with caddy := t.caddy + 1 }
      let d := s.draw 1 (s.hubWay k)
      let floor := (d.2.agenda.filter fun e => match e.2 with
        | .caddyQuery m j _ _ => m = k && j = i
        | _ => false).foldl (fun m e => max m e.1) 0
      .ok { d.2 with agenda := agendaPutBy s.pos (max (s.now + d.1) floor) (.caddyQuery k i c.toNat x) d.2.agenda }

/-- CADDY_QUERY (R315): the hub serves a query. -/
def evCaddyQuery (core slot counter addr : Nat) (s : State) : State :=
  let r : W32 × State :=
    match s.gangOf core, (s.core core).gang with
    | some g, some n =>
      let q := (vget g.caddy counter ⟨0, 0, 0⟩).serve
      (q.1, { s with hub := { s.hub with gangs := tput n { g with caddy := vset g.caddy counter q.2 } s.hub.gangs } })
    | _, _ => (0xFFFFFFFF#32, s)
  r.2.afterIn 1 (s.hubWay core) (fun _ => false) (.caddyAnswer core slot addr r.1)

/-- CADDY_ANSWER (R316): an engine write, whatever has become of the slot; for a moving core it is held at the hub (R354). -/
def evCaddyAnswer (core slot addr : Nat) (ans : W32) (s : State) : State :=
  if s.inTransit core core then
    { s with hub := { s.hub with held := s.hub.held ++ [(core, core, .caddyAnswer core slot addr ans)] } }
  else s.arrive core (.caddyAnswer core slot addr ans) fun s =>
    let s := s.modCore core fun x => x.engWr addr 4 ans.toNat
    let s := s.modSlot core slot fun t => { t with caddy := t.caddy - 1 }
    if (s.slot core slot).held = .caddyFull then s.rearm core slot else s

/-! ### Meanings -/

/-- WDQ (R316). -/
def execWdq (a : BitVec 6) (c : BitVec 3) (s : State) : Host.Outcome State Fault Refusal :=
  s.aloneS fun s => semWdq a c s
/-- SBIND (R309). -/
def execSbind (e k : BitVec 3) (t r : BitVec 1) (u : BitVec 3) (s : State) : Host.Outcome State Fault Refusal :=
  s.aloneS fun s => semSbind e k t r u s
/-- SCFG (R307). -/
def execScfg (n : BitVec 6) (k : BitVec 3) (r : BitVec 1) (u : BitVec 3) (s : State) : Host.Outcome State Fault Refusal :=
  s.aloneS fun s => semScfg n k r u s
/-- PSENDE (R310). -/
def execPsende (n : BitVec 6) (s : State) : Host.Outcome State Fault Refusal := s.aloneS fun s => semPsende n s
/-- PSEND (R310). -/
def execPsend (n : BitVec 6) (s : State) : Host.Outcome State Fault Refusal := s.aloneS fun s => semPsend n s
/-- SCLOSE (R313). -/
def execSclose (d : BitVec 6) (s : State) : Host.Outcome State Fault Refusal := s.aloneS fun s => semSclose d s
/-- SSAVE (R314). -/
def execSsave (d a : BitVec 6) (s : State) : Host.Outcome State Fault Refusal := s.aloneS fun s => semSsave d a s
/-- SREST (R314). -/
def execSrest (d a : BitVec 6) (s : State) : Host.Outcome State Fault Refusal := s.aloneS fun s => semSrest d a s
/-- STREAM_REFILL (R308). -/
def execStreamRefill (core unit : Nat) (s : State) : Host.Outcome State Fault Refusal :=
  .next (evStreamRefill core unit s)
/-- STREAM_DRAIN (R308). -/
def execStreamDrain (core unit : Nat) (s : State) : Host.Outcome State Fault Refusal :=
  .next (evStreamDrain core unit s)
/-- PORT_STRIP_ARRIVE (R310). -/
def execPortStripArrive (core port : Nat) (strip : VReg) (last : Bool) (src slot id : Nat) (s : State) : Host.Outcome State Fault Refusal :=
  .next (evPortStripArrive core port strip last src slot id s)
/-- CADDY_QUERY (R315). -/
def execCaddyQuery (core slot counter addr : Nat) (s : State) : Host.Outcome State Fault Refusal :=
  .next (evCaddyQuery core slot counter addr s)
/-- CADDY_ANSWER (R316). -/
def execCaddyAnswer (core slot addr : Nat) (ans : W32) (s : State) : Host.Outcome State Fault Refusal :=
  .next (evCaddyAnswer core slot addr ans s)

end Sys2Proof.Machine
end

