-- ==== Sys2Proof/Machine/Image.lean ====
section
/-! DEFINITION. The slot record and the core-unit area of a save (R335, R336). -/

namespace Sys2Proof.Machine

/-! ### The slot record (R336) -/

/-- The code of a slot's state (R336). -/
def SlotSt.code : SlotSt → Nat
  | .idle => 0
  | .ready => 1
  | .parked => 2
  | .waiting => 3
  | .stopped => 4

/-- The STATE of a slot (R336): a JOINED member with no due bundle counts as WAITING (R212). -/
def Slot.stateCode (t : Slot) : Nat := if t.lull then SlotSt.code .waiting else t.st.code

/-- The code of a membership (R336); a PENDING one stands nowhere but at a slot that awaits it. -/
def Mst.code : Mst → Nat
  | .none => 0
  | .pending => 1
  | .joined => 2
  | .away => 3

/-- SLOTST (R336); `trp`: the slot's record is queued. -/
def Slot.slotst (t : Slot) (trp : Bool) : W64 :=
  BitVec.ofNat 64 (t.mark.toNat + t.stateCode * 2 ^ 32 + trp.toNat * 2 ^ 37 + t.tpend.toNat * 2 ^ 38 + t.tul.toNat * 2 ^ 39
    + t.imv.toNat * 2 ^ 40 + t.ua.toNat * 2 ^ 41 + t.ue.toNat * 2 ^ 42 + t.level.toNat * 2 ^ 43
    + t.trapov.toNat * 2 ^ 44 + t.pub.toNat * 2 ^ 45 + t.mst.code * 2 ^ 46 + t.chan.toNat * 2 ^ 48)

/-- Writes the RW fields of SLOTST (R336, R343): a membership as AWAY or none. -/
def Slot.setSlotst (t : Slot) (x : W64) : Slot :=
  let b := fun k => x.getLsbD k
  { t with
    mark := x.extractLsb' 0 20, tpend := b 38, tul := b 39, imv := b 40, ua := b 41, ue := b 42, level := b 43
    trapov := b 44, pub := b 45, mst := if b 47 then .away else .none, chan := x.extractLsb' 48 15 }

/-- Dword `c` of a slot's record (R336). -/
def Core.dword (x : Core) (i c : Nat) : W64 :=
  let t := x.slot i
  if c < 64 then (if c = 0 then 0 else vget t.s c 0)
  else if c < 72 then vget t.sh (c - 64) 0
  else if 88 ≤ c && c < 92 then
    BitVec.ofNat 64 ((t.rm (2 * (c - 88))).toNat + (t.rm (2 * (c - 88) + 1)).toNat * 2 ^ 32)
  else if 96 ≤ c && c < 112 then (t.rsg ((c - 96) / 2)).extractLsb' (64 * (c % 2)) 64
  else
    match c with
    | 72 => t.pc
    | 73 => t.tcause
    | 74 => t.ulivec
    | 75 => t.sticky
    | 76 => t.timer
    | 77 => t.lin
    | 78 => t.curj
    | 79 => t.slotst (x.trapq.any fun r => r.slot = i)
    | 80 => t.fxa.zeroExtend 64
    | 81 => t.fxb.zeroExtend 64
    | 82 => t.fxc.zeroExtend 64
    | 83 => t.spa
    | 84 => t.spb
    | 85 => t.geom
    | 86 => (t.p ||| 1#8).zeroExtend 64
    | _ => 0

/-- Writes dword `c` of a slot's record whole; reserved dwords and bits ignore it (R5, R336, R343). -/
def Slot.setDword (t : Slot) (c : Nat) (x : W64) : Slot :=
  if c < 64 then (if c = 0 then t else { t with s := vset t.s c x })
  else if c < 72 then { t with sh := vset t.sh (c - 64) x }
  else if 88 ≤ c && c < 92 then
    (t.wm (2 * (c - 88)) (x.extractLsb' 0 32)).wm (2 * (c - 88) + 1) (x.extractLsb' 32 32)
  else if 96 ≤ c && c < 112 then
    let n := (c - 96) / 2
    let d := t.rsg n
    let v : W128 := if c % 2 = 0 then d.extractLsb' 64 64 ++ x else x ++ d.extractLsb' 0 64
    { t with sg := vset t.sg n (v &&& sgMask) }
  else
    match c with
    | 72 => { t with pc := codePc x }
    | 73 => { t with tcause := x &&& 0xFFFFFFFF0000007F#64 }
    | 74 => { t with ulivec := x &&& 0xFFFFFFFFFFFFFFF8#64 }
    | 75 => { t with sticky := x &&& 0xFF#64 }
    | 76 => { t with timer := x }
    | 77 => { t with lin := x &&& 0xFFFF#64 }
    | 78 => { t with curj := x &&& 0x87FF0000000FFFFF#64 }
    | 79 => t.setSlotst x
    | 80 => t.setStatus 8 x
    | 81 => t.setStatus 9 x
    | 82 => t.setStatus 10 x
    | 83 => t.setStatus 11 x
    | 84 => t.setStatus 12 x
    | 85 => { t with geom := x &&& 0x03FFFFFFFFFFFFFF#64 }
    | 86 => { t with p := x.extractLsb' 0 8 ||| 1#8 }
    | _ => t

/-! ### The core-unit area (R335) -/

/-- An owner byte (R335). -/
def ownByte (o : Option Nat) : Nat :=
  match o with
  | some i => 128 + i % 16
  | none => 0

/-- The owner that a byte names (R335). -/
def byteOwn (b : Nat) : Option Nat := if fld b 7 1 = 1 then some (fld b 0 4) else none

/-- The owners in the order of the table (R335); a pipe's producer end stands before its consumer end. -/
def Core.owners (x : Core) : List (Option Nat) :=
  x.acc.toList.map (·.owner) ++ x.ring.toList.map (·.owner) ++ x.cx.toList.map (·.owner) ++ x.su.toList.map (·.owner)
    ++ [x.scan.owner, x.seqr.owner] ++ x.pipe.toList.flatMap (fun p => [p.prod, p.cons]) ++ x.port.toList.map (·.owner)

/-- The saved words of a ring (R335): RINGSTAT's word and descriptor dword 0. -/
def Ring.image (r : Ring) : Nat :=
  r.kb * 2 ^ 48 + r.row0 * 2 ^ 36 + r.nsm1 * 2 ^ 20 + r.count * 256 + r.head * 16 + r.tail
    + (r.nsm1 + r.base * 2 ^ 20 + r.stride * 2 ^ 44) * 2 ^ 64

/-- A ring of its saved words; its local base is fixed afresh (R137, R335). -/
def Ring.ofImage (v at_ : Nat) (own : Option Nat) : Ring :=
  let d := fld v 64 64
  ⟨own, at_ + fld d 20 20, fld d 20 20, fld d 44 20, fld v 20 4, fld v 48 16, fld v 36 12, fld v 4 4, fld v 0 4, fld v 8 8⟩

/-- The saved word of a pipe (R335). -/
def Pipe.image (p : Pipe) : Nat :=
  if p.conf then
    p.base % 2 ^ 20 + (p.depth - 1) % 16 * 2 ^ 32 + p.head % 16 * 2 ^ 40 + p.tail % 16 * 2 ^ 48 + p.count % 32 * 2 ^ 56 + 2 ^ 62
  else 0

/-- A pipe of its saved word (R335); `lasts`: its strips that are end strips. -/
def Pipe.ofImage (v : Nat) (prod cons : Option Nat) (lasts : Nat → Bool) : Pipe :=
  let n := fld v 32 4 + 1
  let c := fld v 56 5
  if fld v 62 1 = 1 then
    ⟨true, fld v 0 20, n, fld v 40 4, fld v 48 4, c, prod, cons,
      ((steps 0 1 c).map fun k => (fld v 40 4 + k) % n).filter lasts⟩
  else ⟨false, 0, 0, 0, 0, 0, prod, cons, []⟩

/-- The saved repetition buffer (R335): syllables, stride word, run word. -/
def Seqr.image (q : Seqr) : Nat :=
  packN 32 (fun k => (q.syl.getD k 0).toNat) 16 + q.stride.toNat * 2 ^ 512
    + (q.count % 65536 + q.t % 65536 * 2 ^ 16 + q.k % 16 * 2 ^ 32 + q.run.toNat * 2 ^ 36 + q.syl.length % 32 * 2 ^ 40) * 2 ^ 576

/-- The repetition buffer of a save (R335). The image holds no GEOM: that of a run is free (log entry 12). -/
def Seqr.ofImage (v : Nat) (own : Option Nat) (geom : W64) : Seqr :=
  let r := fld v 576 64
  ⟨own, (steps 0 1 (min (fld r 40 5) 16)).map fun k => BitVec.ofNat 32 (fld v (32 * k) 32), 0, BitVec.ofNat 64 (fld v 512 64),
    fld r 0 16, fld r 16 16, fld r 32 4, fld r 36 1 = 1, geom, 0, fld r 16 16, none, true⟩

/-- A Flue message's operation, as a number. -/
def flueKindCode : FlueKind → Nat
  | .xchSemi => 0
  | .xchFull => 1
  | .bar => 2
  | .comb => 3

/-- The operation of a number. -/
def flueKindOf : Nat → FlueKind
  | 0 => .xchSemi
  | 1 => .xchFull
  | 2 => .bar
  | _ => .comb

/-- A Flue message's part, as a number. -/
def fluePartCode : FluePart → Nat
  | .carryL => 0
  | .carryC => 1
  | .partT => 2
  | .chainC => 3
  | .total => 4

/-- The part of a number. -/
def fluePartOf : Nat → FluePart
  | 0 => .carryL
  | 1 => .carryC
  | 2 => .partT
  | 3 => .chainC
  | _ => .total

/-- A held Flue message in 0x200 bytes (R335): dword 0 holds FIRST, COUNT, ROUND, the kind, OP, the source rank and the valid bit,
from bit 0 up; the places of its fields, and dwords 1 and 2, are the model's (log entry 13). -/
def flueImage (m : FlueMsg) : Nat :=
  m.first % 2048 + m.count % 4096 * 2 ^ 11 + m.round % 65536 * 2 ^ 23 + flueKindCode m.kind * 2 ^ 39 + m.op % 32 * 2 ^ 41
    + m.src % 2048 * 2 ^ 46 + 2 ^ 57 + m.flags.toNat * 2 ^ 64
    + m.val.ident.toNat * 2 ^ 128 + fluePartCode m.part * 2 ^ 129 + m.seg % 8 * 2 ^ 132
    + m.val.b.toNat * 2 ^ 1024 + m.val.a.toNat * 2 ^ 2048

/-- A held Flue message of its image, for a gang; none when it is not valid (R335). -/
def flueOf (v gang : Nat) : Option FlueMsg :=
  if fld v 57 1 = 0 then none
  else
    some ⟨gang, fld v 0 11, fld v 11 12, fld v 23 16, flueKindOf (fld v 39 2), fld v 41 5, fluePartOf (fld v 129 3),
      fld v 132 3, fld v 46 11, ⟨fld v 128 1 = 1, BitVec.ofNat 1024 (fld v 2048 1024), BitVec.ofNat 1024 (fld v 1024 1024)⟩,
      BitVec.ofNat 64 (fld v 64 64)⟩

/-- Dword 0 of a trap record (R326). -/
def TrapRec.word (r : TrapRec) : W64 :=
  let c := r.tcause.toNat
  BitVec.ofNat 64 (fld c 32 32 * 2 ^ 32 + fld c 0 5 * 256 + fld c 6 1 * 128 + fld c 5 1 * 64 + r.slot)

/-- A trap record of its two dwords (R326); it stands before those of the cycles to come. -/
def TrapRec.ofImage (v : Nat) : TrapRec :=
  ⟨fld v 0 4, BitVec.ofNat 64 (fld v 32 32 * 2 ^ 32 + fld v 7 1 * 64 + fld v 6 1 * 32 + fld v 8 5), BitVec.ofNat 64 (fld v 64 64), 0⟩

/-- A slot's mailbox in 0x120 bytes (R335): messages, count, credits. -/
def Slot.mailImage (t : Slot) : Nat :=
  packN 128 (fun k => match t.mail[k]? with
    | some m => m.m0.toNat + m.m1.toNat * 2 ^ 64
    | none => 0) 16 + t.mail.length * 2 ^ 2048 + t.credits.toNat * 2 ^ 2112

/-- A slot with the mailbox of an image, reserved bits as 0 (R5, R301, R335). -/
def Slot.setMail (t : Slot) (v : Nat) : Slot :=
  { t with
    mail := (steps 0 1 (min (fld v 2048 64) 16)).map fun k =>
      ⟨BitVec.ofNat 64 (fld v (128 * k) 64) &&& 0xFFFFFFFF000003FF#64, BitVec.ofNat 64 (fld v (128 * k + 64) 64), none⟩
    credits := BitVec.ofNat 16 (fld v 2112 16) }

/-- A task record in 32 bytes (R219). -/
def taskImage (r : TaskRec) : Nat := r.arg0.toNat + r.arg1.toNat * 2 ^ 64 + r.w2.toNat * 2 ^ 128 + r.w3.toNat * 2 ^ 192

/-- A task record of its 32 bytes, of a gang; reserved bits and ROLE, which a delivery fills, as 0 (R5, R219). -/
def taskOf (v gang : Nat) : TaskRec :=
  ⟨BitVec.ofNat 64 v, BitVec.ofNat 64 (fld v 64 64), BitVec.ofNat 64 (fld v 128 64) &&& 0xFFFF0F00000000E7#64,
    BitVec.ofNat 64 (fld v 192 64) &&& 0x87FF0000000FFFFF#64, gang⟩

/-- The saved deque (R335): a dword for each band with the count of its records, then the records. -/
def Core.dqImage (x : Core) : Nat :=
  packN 64 (fun b => (vget x.dq b []).length) 4
    + packN 256 (fun k => (x.dq.toList.flatten[k]?.map taskImage).getD 0) 80 * 2 ^ 256

/-- The deque of a save (R335). -/
def dqOfImage (v gang : Nat) : Vector (List TaskRec) 4 :=
  let n := fun b => fld v (64 * b) 64
  let lo := fun b => (steps 0 1 b).foldl (fun a j => a + n j) 0
  Vector.ofFn fun b => (steps 0 1 (min (n b) 80)).map fun k => taskOf (fld v (256 + 256 * (lo b + k)) 256) gang

/-- The entries of the core-unit area that SLOTXFER.dump writes (R335): offset, bytes, value. -/
def Core.unitArea (x : Core) : List (Nat × Nat × Nat) :=
  [(0x0000, 0x600, packN 64 (fun k => (vget x.k k 0).toNat) 192),
    (0x0600, 0x40, packN 32 (fun k => (vget x.ev k 0).toNat) 16),
    (0x0640, 0x20, packN 8 (fun k => (vget x.ist k 0).toNat) 32),
    (0x0660, 0x20, match x.istNext with
      | some l => packN 8 (fun k => (vget l k 0).toNat) 32
      | none => 0),
    (0x0680, 0x40, x.istNext.isSome.toNat),
    (0x06C0, 0x40, packN 8 (fun k => ownByte (x.owners.getD k none)) 50),
    (0x0C00, 0x340, x.scan.header + packN 1024 x.scan.strip 6 * 2 ^ 512),
    (0x0F40, 0x80, packN 128 (fun k => (x.ringOf k).image) 8),
    (0x0FC0, 0x40, packN 64 (fun k => (x.pipeOf k).image) 8),
    (0x1000, 0x80, x.seqr.image),
    (0x1080, 0x800, packN 4096 (fun k => (x.scan.held[k]?.map flueImage).getD 0) 4),
    (0x1880, 0x100, packN 128 (fun k => match x.trapq[k]? with
      | some r => r.word.toNat + r.pc.toNat * 2 ^ 64
      | none => 0) 15 + x.trapq.length * 2 ^ 1920),
    (0x2000, 0x10E0, packN 2304 (fun i => (x.slot i).mailImage) 15),
    (0x3100, 0xA20, x.dqImage),
    (0x3C00, 0x2000, packN 16384 (fun p => packN 1024 (fun k => match (x.portOf p).fifo[k]? with
      | some t => t.v.toNat
      | none => 0) 16) 4),
    (0x5C00, 0x40, packN 8 (fun p => (x.portOf p).fifo.length) 4
      + packN 1 (fun k => (vget x.acc k ⟨Vector.replicate 32 0, false, none⟩).int32.toNat) 8 * 2 ^ 32)]

/-- Whether a word of the entries of an area that SLOTXFER.load reads meets a double-bit error (R20, R343). -/
def Core.areaBad (x : Core) (y : Nat) : Bool := x.unitArea.any fun e => x.bad (y + e.1) e.2.1

/-- A lane register of its two strips (R251). -/
def laneOf (ident : Bool) (b a : Nat) : LaneVal :=
  if ident then LaneVal.identity else ⟨false, BitVec.ofNat 1024 a, BitVec.ofNat 1024 b⟩

/-- The scan engine of a saved image (R251, R335); what it has sent in its round is not in it. -/
def Scan.ofImage (e : Scan) (own : Option Nat) (v : Nat) (held : List FlueMsg) : Scan :=
  let strip := fun k => fld v (512 + 1024 * k) 1024
  { Scan.reset with
    owner := own, op := fld v 0 4, opv := fld v 4 1 = 1, gv := fld v 5 1 = 1, chain := fld v 6 1 = 1, round := fld v 16 16
    first := fld v 32 11, count := fld v 48 12, run := laneOf (fld v 8 1 = 1) (strip 0) (strip 1)
    cin := laneOf (fld v 9 1 = 1) (strip 2) (strip 3), tot := laneOf (fld v 10 1 = 1) (strip 4) (strip 5)
    held := held, sends := e.sends }

/-- The core with the core-unit area at a local address loaded, reserved bits as 0 (R5, R335, R343): `at_` is the base of sg0 in
force, `gang` the gang of its records, `free` the number of free values taken. -/
def Core.loadArea (x : Core) (y at_ gang free : Nat) : Core :=
  let r := fun o n => x.rd (y + o) n
  let own := fun k => byteOwn (r (0x06C0 + k) 1)
  let bit := fun k => Config.free (free + 2 ^ 64 * (k + 1)) % 2 = 1
  let held := (steps 0 1 4).filterMap fun k => flueOf (r (0x1080 + 0x200 * k) 0x200) gang
  { x with
    k := Vector.ofFn fun k => BitVec.ofNat 64 (r (8 * k) 8)
    ev := Vector.ofFn fun k => BitVec.ofNat 32 (r (0x0600 + 4 * k) 4)
    ist := Vector.ofFn fun k => BitVec.ofNat 8 (r (0x0640 + k) 1) &&& 0x8F#8
    istNext := if r 0x0680 1 % 2 = 1 then some (Vector.ofFn fun k => BitVec.ofNat 8 (r (0x0660 + k) 1) &&& 0x8F#8) else none
    istBar := false
    acc := x.acc.mapIdx fun k a => { a with owner := own k, int32 := fld (r 0x5C04 1) k 1 = 1 }
    ring := Vector.ofFn fun k => Ring.ofImage (r (0x0F40 + 16 * k) 16) at_ (own (8 + k))
    cx := x.cx.mapIdx fun k c => { c with owner := own (16 + k) }
    su := x.su.mapIdx fun k u => { u with owner := own (20 + k) }
    scan := x.scan.ofImage (own 28) (r 0x0C00 0x340) held
    seqr := Seqr.ofImage (r 0x1000 0x80) (own 29) (BitVec.ofNat 64 (Config.free free))
    pipe := Vector.ofFn fun k => Pipe.ofImage (r (0x0FC0 + 8 * k) 8) (own (30 + 2 * k)) (own (31 + 2 * k)) fun e => bit (16 * k + e)
    port := x.port.mapIdx fun p z =>
      ⟨own (46 + p), (steps 0 1 (min (r (0x5C00 + p) 1) 16)).map fun k =>
        ⟨BitVec.ofNat 1024 (r (0x3C00 + 2048 * p + 128 * k) 128), false, bit (128 + 16 * p + k)⟩, z.waits⟩
    trapq := (steps 0 1 (min (r (0x1880 + 240) 8) 15)).map fun k => TrapRec.ofImage (r (0x1880 + 16 * k) 16)
    slots := x.slots.mapIdx fun i t => if i < 15 then t.setMail (r (0x2000 + 0x120 * i) 0x120) else t
    dq := dqOfImage (r 0x3100 0xA20) gang }

end Sys2Proof.Machine
end

