-- ==== Sys2Proof/Machine/System.lean ====
section
/-! DEFINITION. The system points: TRAP, ERET, interrupts, TIMER, regions (R333, R338) and the PRIV major (R339 to R344). -/

namespace Sys2Proof.Machine

/-! ### SYS points (R338) -/

/-- An unassigned encoding (R68): it traps ILLEGAL and has no effect. -/
def semUnassignedEncoding (_v : Bool) (_s : State) : Res := .trap cILLEGAL 0

/-- TRAP (R338): the bundle takes effect, and the slot then stops with BREAK. -/
def semTrap (n : BitVec 6) (s : State) : Res := .halt cBREAK (n.zeroExtend 32) s

/-- The HANDLE of a system point (R26, R339): its reason. -/
def sysHandle (s : State) (reason : Nat) : Res := .trap cHANDLE (s.hFree reason)

/-- ERET (R338); a JOINED member takes its publisher's target, whatever its own (R207). -/
def semEret (a : BitVec 6) (s : State) : Res :=
  let t := s.rs a.toNat
  if !s.me.level then .trap cPRIV 0
  else if s.cur.2 = 15 then sysHandle s 3
  else if t.toNat % 8 != 0 && s.me.mst != .joined then .trap cALIGN (t.zeroExtend 32)
  else .jump t (s.modMe fun u => { u with level := false })

/-- ULION (R338). -/
def semUlion (s : State) : Res := .ok (if s.cur.2 ≤ 13 then s.modMe fun t => { t with ue := true } else s)
/-- ULIOFF (R338). -/
def semUlioff (s : State) : Res := .ok (if s.cur.2 ≤ 13 then s.modMe fun t => { t with ue := false } else s)

/-- ULIRET (R305, R338). -/
def semUliret (s : State) : Res :=
  let t := vget s.me.sh 2 0
  if !s.me.ua then sysHandle s 3
  else if t.toNat % 8 != 0 then .trap cALIGN (t.zeroExtend 32)
  else .jump t (s.modMe fun u => { u with ua := false })

/-- TIMERSET (R28, R338). -/
def semTimerset (a : BitVec 6) (u : BitVec 1) (s : State) : Res :=
  .ok (s.modMe fun t => { t with timer := s.rs a.toNat, tul := u = 1, tpend := false })

/-- IDEM (R333, R334): the region opens, its mark the bundle after it. -/
def semIdem (s : State) : Res :=
  let s := s.modMe fun t => { t with imv := true, mark := (t.pc + 8).extractLsb' 0 20 }
  .ok (s.modMy fun x => x.remark s.cur.2 (some (x.snapOf s.cur.2)))

/-- IDEM.end (R333). -/
def semIdemEnd (s : State) : Res :=
  .ok ((s.modMe fun t => { t with imv := false }).modMy fun x => x.remark s.cur.2 none)

/-! ### The PRIV points (R339 to R344) -/

/-- The level check of the PRIV major (R69, R73): it comes before any check of an operand's value. -/
def State.priv (s : State) (k : Res) : Res := if s.me.level then k else .trap cPRIV 0

/-- SEGLD (R340). -/
def semSegld (d : BitVec 3) (a : BitVec 6) (s : State) : Res :=
  s.priv <|
    let off : Int := (s.rs a.toNat).toNat
    (s.seg0 off 16 8 .load).get off fun x =>
      if s.my.bad x 16 then .trap cECCFATAL (offDetail off)
      else
        let v : W128 := BitVec.ofNat 128 (s.my.rd x 16)
        .ok ((s.touch s.cur.1 x 16).modMe fun t => { t with sg := vset t.sg d.toNat (v &&& sgMask) })

/-- SEGST (R340). -/
def semSegst (d : BitVec 3) (a : BitVec 6) (s : State) : Res :=
  s.priv <|
    let off : Int := (s.rs a.toNat).toNat
    (s.seg0 off 16 8 .store).get off fun x => .ok (s.modMy fun y => y.wr x 16 (s.me.rsg d.toNat).toNat)

/-- Entry `e` of a table image (R193). -/
def istEntry (l : Nat) (e : Nat) : Nat := fld l (8 * e) 8

/-- Whether an entry of a table image breaks a condition of R194. -/
def istOffends (l e : Nat) : Bool :=
  let b := istEntry l e
  let names := fun (k : Nat) => fld (istEntry l k) 7 1 = 1
  fld b 4 3 != 0
    || ((e = 14 || e = 30) && b != 0x8E) || ((e = 15 || e = 31) && b != 0x8F)
    || (names e && (steps 1 1 7).any fun k =>
      [(e + k) % 32, (e + 32 - k) % 32].any fun j => names j && fld (istEntry l j) 0 4 = fld b 0 4)

/-- ISTSET (R194, R195, R340). -/
def semIstset (a : BitVec 6) (s : State) : Res :=
  s.priv <|
    let off : Int := (s.rs a.toNat).toNat
    (s.seg0 off 32 4 .load).get off fun x =>
      if s.my.bad x 32 then .trap cECCFATAL (offDetail off)
      else
        let l := s.my.rd x 32
        match (steps 0 1 32).find? (istOffends l) with
        | some e => .trap cILLEGAL (BitVec.ofNat 32 e)
        | none =>
          .ok ((s.touch s.cur.1 x 32).modMy fun y =>
            { y with istNext := some (Vector.ofFn fun k => BitVec.ofNat 8 (istEntry l k)), istBar := false })

/-- A slot start (R11, R12), bits [2:0] of the entry as 0: the segment registers and GEOM keep their values, and so does what
others hold for it. -/
def Slot.start (t : Slot) (pc w : W64) (level : Bool) : Slot :=
  { Slot.reset with
    pc := codePc pc, s := Slot.reset.s.set 1 w, sg := t.sg, geom := t.geom, level := level, st := .ready
    caddy := t.caddy, mailHeld := t.mailHeld }

/-- SLOTSTART (R341). -/
def semSlotstart (a b : BitVec 6) (s : State) : Res :=
  s.priv <|
    let v := (s.rs a.toNat).toNat
    let i := fld v 0 4
    if i ≥ 14 then sysHandle s 3
    else if (s.my.slot i).st != .idle then sysHandle s 3
    else if fld v 4 4 != 0 || fld v 9 23 != 0 || fld v 52 12 != 0 || fld v 32 20 % 8 != 0 then sysHandle s 4
    else
      .ok (s.modSlot s.cur.1 i fun t => t.start (BitVec.ofNat 64 (fld v 32 20)) (s.rs b.toNat) (fld v 8 1 = 1))

/-- The slot that a control register names; 15 is none (R339, R342, R343). -/
def State.ofSlot (s : State) (a : BitVec 6) (k : Nat → Res) : Res :=
  let i := fld (s.rs a.toNat).toNat 0 4
  s.priv (if i = 15 then sysHandle s 3 else k i)

/-- The stop that SLOTSTOP.stop asks for (R342): no record, TCAUSE kept. -/
def quietStop : StopReq := ⟨31, 0, false, false, true⟩

/-- What a SLOTSTOP that waits keeps: its target and the state it found (R342). -/
def stopData (i code : Nat) : BitVec 256 := BitVec.ofNat 256 (i + 16 * code)

/-- SLOTSTOP.stop (R342). -/
def semSlotstopStop (d a : BitVec 6) (s : State) : Res :=
  s.ofSlot a fun i =>
    let st := (s.my.slot i).st
    let v : W64 := BitVec.ofNat 64 (s.my.slot i).stateCode
    if st = .idle || st = .stopped then .ok (s.ws d.toNat v)
    else
      let t := s.requestStop s.cur.1 i quietStop
      if i = s.cur.2 || (t.slot s.cur.1 i).st = .stopped then .ok (t.ws d.toNat v)
      else .hold none (t.await .parked (.unit (.slotstopStop d a) (stopData i (s.my.slot i).stateCode)))

/-- SLOTSTOP.resume (R342). -/
def semSlotstopResume (d a : BitVec 6) (s : State) : Res :=
  s.ofSlot a fun i =>
    let v : W64 := BitVec.ofNat 64 (s.my.slot i).stateCode
    .ok ((s.resumeSlot s.cur.1 i).ws d.toNat v)

/-- Whether a STOPPED slot may go to IDLE: step 1 of R107 is over, and no pipe awaits its end strip (R342). -/
def State.idleReady (s : State) (c i : Nat) : Bool := s.drained c i && ((s.core c).haltUnit i).isNone

/-- SLOTSTOP.idle (R342). -/
def semSlotstopIdle (d a : BitVec 6) (s : State) : Res :=
  s.ofSlot a fun i =>
    let st := (s.my.slot i).st
    let v : W64 := BitVec.ofNat 64 (s.my.slot i).stateCode
    if st != .stopped then .ok (s.ws d.toNat v)
    else
      let s := s.modMy fun x => { x with trapq := x.trapq.filter fun r => r.slot != i }
      if s.idleReady s.cur.1 i then .ok ((s.goIdle s.cur.1 i).ws d.toNat v)
      else .hold none (s.await .parked (.unit (.slotstopIdle d a) (stopData i (s.my.slot i).stateCode)))

/-- The target of a SLOTXFER that moves a register, and its code (R343). -/
def State.xferTarget (s : State) (a : BitVec 6) (limit : Nat) (k : Nat → Nat → Res) : Res :=
  s.ofSlot a fun i =>
    let c := fld (s.rs a.toNat).toNat 8 8
    let st := (s.my.slot i).st
    if c ≥ limit then sysHandle s 3
    else if st != .stopped && st != .idle then sysHandle s 3
    else k i c

/-- SLOTXFER.rd (R343). -/
def semSlotxferRd (d a : BitVec 6) (s : State) : Res :=
  s.xferTarget a 128 fun i c => .ok (s.ws d.toNat (s.my.dword i c))

/-- SLOTXFER.wr (R343). -/
def semSlotxferWr (d a : BitVec 6) (s : State) : Res :=
  s.xferTarget a 128 fun i c => .ok (s.modSlot s.cur.1 i fun t => t.setDword c (s.rs d.toNat))

/-- SLOTXFER.vrd (R343). -/
def semSlotxferVrd (d : BitVec 5) (a : BitVec 6) (s : State) : Res :=
  s.xferTarget a 32 fun i c => .ok (s.wv d.toNat ((s.my.slot i).rv c))

/-- SLOTXFER.vwr (R343). -/
def semSlotxferVwr (d : BitVec 5) (a : BitVec 6) (s : State) : Res :=
  s.xferTarget a 32 fun i c => .ok (s.modSlot s.cur.1 i fun t => t.wv c (s.me.rv d.toNat))

/-- SLOTXFER.tq (R326, R343). -/
def semSlotxferTq (d : BitVec 6) (s : State) : Res :=
  s.priv <|
    match s.my.trapq with
    | [] => .ok ((s.ws d.toNat 0).ws (d.toNat + 1) 0)
    | r :: rest =>
      .ok (((s.modMy fun x => { x with trapq := rest }).ws d.toNat r.word).ws (d.toNat + 1) r.pc)

/-- Whether every slot from 0 to 14 is STOPPED or IDLE (R343). -/
def Core.allStill (x : Core) : Bool := (steps 0 1 15).all fun i => (x.slot i).st = .stopped || (x.slot i).st = .idle

/-- The longest time that a dump or a load takes, in cycles: DESIGN CHOICE (log entry 69). -/
def areaTime : Nat := 4096

/-- A dump or a load parks its issuer until it is done, at a free time: what waits is the area's local address and the cycle
(R343). -/
def State.areaWait (s : State) (i : Instr) (y : Nat) : Res :=
  let d := s.draw 1 areaTime
  .hold none (d.2.await .parked (.unit i (BitVec.ofNat 256 (y + 2 ^ 20 * (s.now + d.1)))))

/-- SLOTXFER.dump (R335, R343). -/
def semSlotxferDump (a : BitVec 6) (s : State) : Res :=
  s.priv <|
    if !s.my.allStill then sysHandle s 3
    else
      let off : Int := (s.rs a.toNat).toNat
      (s.seg0 off 0x6000 128 .store).get off fun y => s.areaWait (.slotxferDump a) y

/-- SLOTXFER.load (R335, R343). -/
def semSlotxferLoad (a : BitVec 6) (s : State) : Res :=
  s.priv <|
    if !s.my.allStill then sysHandle s 3
    else
      let off : Int := (s.rs a.toNat).toNat
      (s.seg0 off 0x6000 128 .load).get off fun y =>
        if s.my.areaBad y then .trap cECCFATAL (offDetail off) else s.areaWait (.slotxferLoad a) y

/-- The core-unit area is written (R335, R343). -/
def State.dumpAll (s : State) (c y : Nat) : State :=
  s.modCore c fun x => x.unitArea.foldl (fun z e => z.wr (y + e.1) e.2.1 e.2.2) x

/-- The core-unit area is read, its records those of the core's gang, and its rings placed by the issuer's sg0 (R335, R343). -/
def State.loadAll (s : State) (c i y : Nat) : State :=
  let n := s.nonce
  let s : State := { (s.core c).unitArea.foldl (fun s e => s.touch c (y + e.1) e.2.1) s with nonce := n + 1 }
  s.modCore c fun x => x.loadArea y (sgBase ((x.slot i).rsg 0)) (s.gangNo c) n

/-- The step at the HCP that a block's command code names (R344, R380). -/
def hubStep (c i : Nat) (b : BitVec 512) : Event :=
  match fld b.toNat 0 8 with
  | 0x11 => .restored c i b
  | 0x12 => .gangfail c i b
  | 0x13 => .caddy c i b
  | 0x20 => .cwrite c i b
  | 0x21 => .cread c i b
  | 0x22 => .catom c i b
  | 0x23 => .cbar c i b
  | _ => .saved c i b

/-- HUBCMD (R344, R380): a CATOM's block is checked for stores too. -/
def semHubcmd (d a : BitVec 6) (s : State) : Res :=
  s.priv <|
    let off : Int := (s.rs a.toNat).toNat
    (s.seg0 off 64 64 .load).get off fun x =>
      if s.my.bad x 64 then .trap cECCFATAL (offDetail off)
      else
        let b : BitVec 512 := BitVec.ofNat 512 (s.my.rd x 64)
        let go := fun (x : Nat) =>
          let c := s.cur.1
          let i := s.cur.2
          let s := s.touch c x 64
          Res.hold none ((s.afterIn 1 (s.hubWay c) (fun _ => false) (hubStep c i b)).await .parked (.hubcmd d.toNat x))
        if fld b.toNat 0 8 = 0x22 then (s.seg0 off 64 64 .store).get off go else go x

/-! ### Meanings -/

/-- SEGLD (R340). -/
def execSegld (d : BitVec 3) (a : BitVec 6) (s : State) : Host.Outcome State Fault Refusal :=
  s.aloneS fun s => semSegld d a s
/-- SEGST (R340). -/
def execSegst (d : BitVec 3) (a : BitVec 6) (s : State) : Host.Outcome State Fault Refusal :=
  s.aloneS fun s => semSegst d a s
/-- ISTSET (R340). -/
def execIstset (a : BitVec 6) (s : State) : Host.Outcome State Fault Refusal := s.aloneS fun s => semIstset a s
/-- SLOTSTART (R341). -/
def execSlotstart (a b : BitVec 6) (s : State) : Host.Outcome State Fault Refusal :=
  s.aloneS fun s => semSlotstart a b s
/-- SLOTSTOP_STOP (R342). -/
def execSlotstopStop (d a : BitVec 6) (s : State) : Host.Outcome State Fault Refusal :=
  s.aloneS fun s => semSlotstopStop d a s
/-- SLOTSTOP_RESUME (R342). -/
def execSlotstopResume (d a : BitVec 6) (s : State) : Host.Outcome State Fault Refusal :=
  s.aloneS fun s => semSlotstopResume d a s
/-- SLOTSTOP_IDLE (R342). -/
def execSlotstopIdle (d a : BitVec 6) (s : State) : Host.Outcome State Fault Refusal :=
  s.aloneS fun s => semSlotstopIdle d a s
/-- SLOTXFER_RD (R343). -/
def execSlotxferRd (d a : BitVec 6) (s : State) : Host.Outcome State Fault Refusal :=
  s.aloneS fun s => semSlotxferRd d a s
/-- SLOTXFER_WR (R343). -/
def execSlotxferWr (d a : BitVec 6) (s : State) : Host.Outcome State Fault Refusal :=
  s.aloneS fun s => semSlotxferWr d a s
/-- SLOTXFER_VRD (R343). -/
def execSlotxferVrd (d : BitVec 5) (a : BitVec 6) (s : State) : Host.Outcome State Fault Refusal :=
  s.aloneS fun s => semSlotxferVrd d a s
/-- SLOTXFER_VWR (R343). -/
def execSlotxferVwr (d : BitVec 5) (a : BitVec 6) (s : State) : Host.Outcome State Fault Refusal :=
  s.aloneS fun s => semSlotxferVwr d a s
/-- SLOTXFER_TQ (R343). -/
def execSlotxferTq (d : BitVec 6) (s : State) : Host.Outcome State Fault Refusal :=
  s.aloneS fun s => semSlotxferTq d s
/-- SLOTXFER_DUMP (R343). -/
def execSlotxferDump (a : BitVec 6) (s : State) : Host.Outcome State Fault Refusal :=
  s.aloneS fun s => semSlotxferDump a s
/-- SLOTXFER_LOAD (R343). -/
def execSlotxferLoad (a : BitVec 6) (s : State) : Host.Outcome State Fault Refusal :=
  s.aloneS fun s => semSlotxferLoad a s
/-- HUBCMD (R344). -/
def execHubcmd (d a : BitVec 6) (s : State) : Host.Outcome State Fault Refusal := s.aloneS fun s => semHubcmd d a s
/-- TRAP (R338). -/
def execTrap (n : BitVec 6) (s : State) : Host.Outcome State Fault Refusal := s.aloneS fun s => semTrap n s
/-- ERET (R338). -/
def execEret (a : BitVec 6) (s : State) : Host.Outcome State Fault Refusal := s.aloneS fun s => semEret a s
/-- ULION (R338). -/
def execUlion (s : State) : Host.Outcome State Fault Refusal := s.aloneS fun s => semUlion s
/-- ULIOFF (R338). -/
def execUlioff (s : State) : Host.Outcome State Fault Refusal := s.aloneS fun s => semUlioff s
/-- ULIRET (R338). -/
def execUliret (s : State) : Host.Outcome State Fault Refusal := s.aloneS fun s => semUliret s
/-- TIMERSET (R338). -/
def execTimerset (a : BitVec 6) (u : BitVec 1) (s : State) : Host.Outcome State Fault Refusal :=
  s.aloneS fun s => semTimerset a u s
/-- IDEM (R333). -/
def execIdem (s : State) : Host.Outcome State Fault Refusal := s.aloneS fun s => semIdem s
/-- IDEM_END (R333). -/
def execIdemEnd (s : State) : Host.Outcome State Fault Refusal := s.aloneS fun s => semIdemEnd s
/-- UNASSIGNED_ENCODING (R68). -/
def execUnassignedEncoding (vhalf : Bool) (s : State) : Host.Outcome State Fault Refusal :=
  s.done vhalf (semUnassignedEncoding vhalf s)

end Sys2Proof.Machine
end

