-- ==== Sys2Proof/Machine/Syllable.lean ====
section
/-! DEFINITION. The S syllables and long forms together, and what each syllable writes: the destinations that two
syllables of a bundle may not share (R22, R311). -/

namespace Sys2Proof.Machine

/-- What an S syllable, or a long form, does. -/
def semS (i : Instr) (s : State) : Res :=
  match i with
  | .movl d imm => semMovl d imm s
  | .movhi d imm => semMovhi d imm s
  | .amoadd d a b sg scope order rx w imm => semAmoadd d a b sg scope order rx w imm s
  | .amoand d a b sg scope order rx w imm => semAmoand d a b sg scope order rx w imm s
  | .amoor d a b sg scope order rx w imm => semAmoor d a b sg scope order rx w imm s
  | .amoxor d a b sg scope order rx w imm => semAmoxor d a b sg scope order rx w imm s
  | .amomin d a b sg scope order rx w imm => semAmomin d a b sg scope order rx w imm s
  | .amomax d a b sg scope order rx w imm => semAmomax d a b sg scope order rx w imm s
  | .amominn d a b sg scope order rx w imm => semAmominn d a b sg scope order rx w imm s
  | .amomaxn d a b sg scope order rx w imm => semAmomaxn d a b sg scope order rx w imm s
  | .amoswap d a b sg scope order rx w imm => semAmoswap d a b sg scope order rx w imm s
  | .amocas d a b sg c scope order rx w imm => semAmocas d a b sg c scope order rx w imm s
  | .wdq a c => semWdq a c s
  | .sbind e k t r u => semSbind e k t r u s
  | .scfg n k r u => semScfg n k r u s
  | .mcast n a => semMcast n a s
  | .cpyt n => semCpyt n s
  | .cpys n => semCpys n s
  | .cpyg n => semCpyg n s
  | .cpyw n => semCpyw n s
  | .cpy n => semCpy n s
  | .steal n a k => semSteal n a k s
  | .split n k => semSplit n k s
  | .dqpushr n a k => semDqpushr n a k s
  | .dqpop n j scope w k => semDqpop n j scope w k s
  | .forkd n k => semForkd n k s
  | .fork n k => semFork n k s
  | .psende n => semPsende n s
  | .psend n => semPsend n s
  | .send n a rx h => semSend n a rx h s
  | .ringcfg d a => semRingcfg d a s
  | .ringcfgRel d => semRingcfgRel d s
  | .ringadv d => semRingadv d s
  | .ringadvPop d => semRingadvPop d s
  | .ringstat d a which => semRingstat d a which s
  | .mzero d => semMzero d s
  | .mzeroRel d => semMzeroRel d s
  | .mload c d a b => semMload c d a b s
  | .mdrain c d a b => semMdrain c d a b s
  | .geomset a => semGeomset a s
  | .geommask d c => semGeommask d c s
  | .repcap n => semRepcap n s
  | .repcapRel => semRepcapRel s
  | .repgo a b => semRepgo a b s
  | .repwait d => semRepwait d s
  | .cxopen d a side => semCxopen d a side s
  | .cxopenRel d => semCxopenRel d s
  | .cxand d a b => semCxand d a b s
  | .cxor d a b => semCxor d a b s
  | .cxdiff d a b => semCxdiff d a b s
  | .cxnext d c p m => semCxnext d c p m s
  | .cxnextW d c p m => semCxnextW d c p m s
  | .cxsplit d a p => semCxsplit d a p s
  | .cxsave a b => semCxsave a b s
  | .cxrest d a => semCxrest d a s
  | .cxstat d a which => semCxstat d a which s
  | .scngrp c a b => semScngrp c a b s
  | .scngrpRel => semScngrpRel s
  | .scnop a => semScnop a s
  | .scntile a => semScntile a s
  | .scnxch d f => semScnxch d f s
  | .scnfix a => semScnfix a s
  | .scnfixSt a => semScnfixSt a s
  | .fbar d => semFbar d s
  | .fcomb a c => semFcomb a c s
  | .buffree a => semBuffree a s
  | .cpyqstat d q => semCpyqstat d q s
  | .sclose d => semSclose d s
  | .ssave d a => semSsave d a s
  | .srest d a => semSrest d a s
  | .pubon d => semPubon d s
  | .puboff => semPuboff s
  | .subscr d a t => semSubscr d a t s
  | .unsub => semUnsub s
  | .unsubp p => semUnsubp p s
  | .unsubm m => semUnsubm m s
  | .resub d a => semResub d a s
  | .rdv d a => semRdv d a s
  | .leave => semLeave s
  | .join a => semJoin a s
  | .taskend => semTaskend s
  | .cancell d a => semCancell d a s
  | .pipebind e a c => semPipebind e a c s
  | .pipebindRel e => semPipebindRel e s
  | .mbpop d => semMbpop d s
  | .mbpeek d => semMbpeek d s
  | .mbcnt d which => semMbcnt d which s
  | .segld d a => semSegld d a s
  | .segst d a => semSegst d a s
  | .istset a => semIstset a s
  | .slotstart a b => semSlotstart a b s
  | .slotstopStop d a => semSlotstopStop d a s
  | .slotstopResume d a => semSlotstopResume d a s
  | .slotstopIdle d a => semSlotstopIdle d a s
  | .slotxferRd d a => semSlotxferRd d a s
  | .slotxferWr d a => semSlotxferWr d a s
  | .slotxferVrd d a => semSlotxferVrd d a s
  | .slotxferVwr d a => semSlotxferVwr d a s
  | .slotxferTq d => semSlotxferTq d s
  | .slotxferDump a => semSlotxferDump a s
  | .slotxferLoad a => semSlotxferLoad a s
  | .hubcmd d a => semHubcmd d a s
  | .yield => semYield s
  | .sleep d a => semSleep d a s
  | .waitmsg c => semWaitmsg c s
  | .halt => semHalt s
  | .getid d which => semGetid d which s
  | .mfs d c => semMfs d c s
  | .mts c a => semMts c a s
  | .trap n => semTrap n s
  | .eret a => semEret a s
  | .ulion => semUlion s
  | .ulioff => semUlioff s
  | .uliret => semUliret s
  | .timerset a u => semTimerset a u s
  | .idem => semIdem s
  | .idemEnd => semIdemEnd s
  | .evcrd d n => semEvcrd d n s
  | .evcclr n => semEvcclr n s
  | .jr a => semJr a s
  | .callr a => semCallr a s
  | .call d => semCall d s
  | .bmnz m d => semBmnz m d s
  | .bmz m d => semBmz m d s
  | .bnc p d => semBnc p d s
  | .bc p d => semBc p d s
  | .br d => semBr d s
  | .vstx d a sg rx vi m => semVstx d a sg rx vi m s
  | .vldx d a sg rx vi m => semVldx d a sg rx vi m s
  | .vldb d a sg imm => semVldb d a sg imm s
  | .vst d a sg rx imm => semVst d a sg rx imm s
  | .vld d a sg rx imm => semVld d a sg rx imm s
  | .fetest p a sg imm => semFetest p a sg imm s
  | .feclr a sg imm => semFeclr a sg imm s
  | .feset a sg imm => semFeset a sg imm s
  | .lea d a sg imm => semLea d a sg imm s
  | .stwfill d a sg rx imm => semStwfill d a sg rx imm s
  | .ldwtake d a sg imm => semLdwtake d a sg imm s
  | .ldwsync d a sg imm => semLdwsync d a sg imm s
  | .std d a sg rx imm => semStd d a sg rx imm s
  | .stw d a sg rx imm => semStw d a sg rx imm s
  | .sth d a sg rx imm => semSth d a sg rx imm s
  | .stb d a sg rx imm => semStb d a sg rx imm s
  | .ldd d a sg rx imm => semLdd d a sg rx imm s
  | .ldws d a sg rx imm => semLdws d a sg rx imm s
  | .ldw d a sg rx imm => semLdw d a sg rx imm s
  | .ldhs d a sg rx imm => semLdhs d a sg rx imm s
  | .ldh d a sg rx imm => semLdh d a sg rx imm s
  | .ldbs d a sg rx imm => semLdbs d a sg rx imm s
  | .ldb d a sg rx imm => semLdb d a sg rx imm s
  | .fencee scope => semFencee scope s
  | .fence scope => semFence scope s
  | .movtk a k => semMovtk a k s
  | .movk d k => semMovk d k s
  | .pand d a b => semPand d a b s
  | .por d a b => semPor d a b s
  | .pxor d a b => semPxor d a b s
  | .ptos d => semPtos d s
  | .stop a => semStop a s
  | .mtos d a => semMtos d a s
  | .stom d a => semStom d a s
  | .vmovs d a b => semVmovs d a b s
  | .smovv d a b => semSmovv d a b s
  | .cmp c p a b => semCmp c p a b s
  | .div d a b => semDiv d a b s
  | .divn d a b => semDivn d a b s
  | .rem d a b => semRem d a b s
  | .remn d a b => semRemn d a b s
  | .add d a b => semAdd d a b s
  | .sub d a b => semSub d a b s
  | .mul d a b => semMul d a b s
  | .mulh d a b => semMulh d a b s
  | .mulhn d a b => semMulhn d a b s
  | .and d a b => semAnd d a b s
  | .or d a b => semOr d a b s
  | .xor d a b => semXor d a b s
  | .andn d a b => semAndn d a b s
  | .shl d a b => semShl d a b s
  | .shr d a b => semShr d a b s
  | .sra d a b => semSra d a b s
  | .rotr d a b => semRotr d a b s
  | .min d a b => semMin d a b s
  | .max d a b => semMax d a b s
  | .minn d a b => semMinn d a b s
  | .maxn d a b => semMaxn d a b s
  | .clz d a => semClz d a s
  | .ctz d a => semCtz d a s
  | .popc d a => semPopc d a s
  | .brev d a => semBrev d a s
  | .bext d a b => semBext d a b s
  | .bdep d a b => semBdep d a b s
  | .sext d a n => semSext d a n s
  | .zext d a n => semZext d a n s
  | .sel d a b p => semSel d a b p s
  | .cmpi c p a imm => semCmpi c p a imm s
  | .srai d a n => semSrai d a n s
  | .shri d a n => semShri d a n s
  | .shli d a n => semShli d a n s
  | .xori d a imm => semXori d a imm s
  | .ori d a imm => semOri d a imm s
  | .andi d a imm => semAndi d a imm s
  | .addi d a imm => semAddi d a imm s
  | _ => .trap cILLEGAL 0

/-- A destination register (R22). -/
inductive Dst where
  | s (n : Nat)
  | p (n : Nat)
  | m (n : Nat)
  | v (n : Nat)
  deriving DecidableEq, Repr

/-- The four registers of a quad (R59). -/
def quadDst (n : BitVec 6) : List Dst := [.s n.toNat, .s (n.toNat + 1), .s (n.toNat + 2), .s (n.toNat + 3)]

/-- The destinations of an S syllable (R22). -/
def sDests (i : Instr) : List Dst :=
  match i with
  | .movl d _ => [.s d.toNat]
  | .movhi d _ => [.s d.toNat]
  | .amoadd d _ _ _ _ _ _ _ _ => [.s d.toNat]
  | .amoand d _ _ _ _ _ _ _ _ => [.s d.toNat]
  | .amoor d _ _ _ _ _ _ _ _ => [.s d.toNat]
  | .amoxor d _ _ _ _ _ _ _ _ => [.s d.toNat]
  | .amomin d _ _ _ _ _ _ _ _ => [.s d.toNat]
  | .amomax d _ _ _ _ _ _ _ _ => [.s d.toNat]
  | .amominn d _ _ _ _ _ _ _ _ => [.s d.toNat]
  | .amomaxn d _ _ _ _ _ _ _ _ => [.s d.toNat]
  | .amoswap d _ _ _ _ _ _ _ _ => [.s d.toNat]
  | .amocas d _ _ _ _ _ _ _ _ _ => [.s d.toNat]
  | .steal n _ k => .p k.toNat :: quadDst n
  | .split n k => [.p k.toNat, .s (n.toNat + 1)]
  | .dqpushr _ _ k => [.p k.toNat]
  | .dqpop n j _ _ k => .p k.toNat :: quadDst n ++ (if j = 1 then [.s 55] else [])
  | .forkd _ k => [.p k.toNat]
  | .fork _ k => [.p k.toNat]
  | .ringstat d _ _ => [.s d.toNat]
  | .geommask d _ => [.m d.toNat]
  | .repwait d => [.s d.toNat]
  | .cxnext d _ p m => [.v d.toNat, .v (d.toNat + 1), .v (d.toNat + 2), .p p.toNat, .m m.toNat]
  | .cxnextW d _ p m => [.v d.toNat, .v (d.toNat + 1), .v (d.toNat + 2), .p p.toNat, .m m.toNat]
  | .cxsplit _ _ p => [.p p.toNat]
  | .cxstat d _ _ => [.s d.toNat]
  | .scnxch d _ => [.s d.toNat]
  | .fbar d => [.s d.toNat]
  | .cpyqstat d _ => [.s d.toNat]
  | .pubon d => [.s d.toNat]
  | .subscr d _ _ => [.s d.toNat]
  | .resub d _ => [.s d.toNat]
  | .rdv d _ => [.s d.toNat]
  | .cancell d _ => [.s d.toNat]
  | .mbpop d => [.s d.toNat, .s (d.toNat + 1)]
  | .mbpeek d => [.s d.toNat, .s (d.toNat + 1)]
  | .mbcnt d _ => [.s d.toNat]
  | .slotstopStop d _ => [.s d.toNat]
  | .slotstopResume d _ => [.s d.toNat]
  | .slotstopIdle d _ => [.s d.toNat]
  | .slotxferRd d _ => [.s d.toNat]
  | .slotxferVrd d _ => [.v d.toNat]
  | .slotxferTq d => [.s d.toNat, .s (d.toNat + 1)]
  | .hubcmd d _ => [.s d.toNat]
  | .sleep d _ => [.s d.toNat]
  | .getid d _ => [.s d.toNat]
  | .mfs d _ => [.s d.toNat]
  | .evcrd d _ => [.s d.toNat]
  | .callr _ => [.s 55]
  | .call _ => [.s 55]
  | .vldx d _ _ _ _ _ => [.v d.toNat]
  | .vldb d _ _ _ => [.v d.toNat]
  | .vld d _ _ _ _ => [.v d.toNat]
  | .fetest p _ _ _ => [.p p.toNat]
  | .lea d _ _ _ => [.s d.toNat]
  | .ldwtake d _ _ _ => [.s d.toNat]
  | .ldwsync d _ _ _ => [.s d.toNat]
  | .ldd d _ _ _ _ => [.s d.toNat]
  | .ldws d _ _ _ _ => [.s d.toNat]
  | .ldw d _ _ _ _ => [.s d.toNat]
  | .ldhs d _ _ _ _ => [.s d.toNat]
  | .ldh d _ _ _ _ => [.s d.toNat]
  | .ldbs d _ _ _ _ => [.s d.toNat]
  | .ldb d _ _ _ _ => [.s d.toNat]
  | .movk d _ => [.s d.toNat]
  | .pand d _ _ => [.p d.toNat]
  | .por d _ _ => [.p d.toNat]
  | .pxor d _ _ => [.p d.toNat]
  | .ptos d => [.s d.toNat]
  | .stop _ => [.p 1, .p 2, .p 3, .p 4, .p 5, .p 6, .p 7]
  | .mtos d _ => [.s d.toNat]
  | .stom d _ => [.m d.toNat]
  | .vmovs d _ _ => [.s d.toNat]
  | .smovv d _ _ => [.v d.toNat]
  | .cmp _ p _ _ => [.p p.toNat]
  | .div d _ _ => [.s d.toNat]
  | .divn d _ _ => [.s d.toNat]
  | .rem d _ _ => [.s d.toNat]
  | .remn d _ _ => [.s d.toNat]
  | .add d _ _ => [.s d.toNat]
  | .sub d _ _ => [.s d.toNat]
  | .mul d _ _ => [.s d.toNat]
  | .mulh d _ _ => [.s d.toNat]
  | .mulhn d _ _ => [.s d.toNat]
  | .and d _ _ => [.s d.toNat]
  | .or d _ _ => [.s d.toNat]
  | .xor d _ _ => [.s d.toNat]
  | .andn d _ _ => [.s d.toNat]
  | .shl d _ _ => [.s d.toNat]
  | .shr d _ _ => [.s d.toNat]
  | .sra d _ _ => [.s d.toNat]
  | .rotr d _ _ => [.s d.toNat]
  | .min d _ _ => [.s d.toNat]
  | .max d _ _ => [.s d.toNat]
  | .minn d _ _ => [.s d.toNat]
  | .maxn d _ _ => [.s d.toNat]
  | .clz d _ => [.s d.toNat]
  | .ctz d _ => [.s d.toNat]
  | .popc d _ => [.s d.toNat]
  | .brev d _ => [.s d.toNat]
  | .bext d _ _ => [.s d.toNat]
  | .bdep d _ _ => [.s d.toNat]
  | .sext d _ _ => [.s d.toNat]
  | .zext d _ _ => [.s d.toNat]
  | .sel d _ _ _ => [.s d.toNat]
  | .cmpi _ p _ _ => [.p p.toNat]
  | .srai d _ _ => [.s d.toNat]
  | .shri d _ _ => [.s d.toNat]
  | .shli d _ _ => [.s d.toNat]
  | .xori d _ _ => [.s d.toNat]
  | .ori d _ _ => [.s d.toNat]
  | .andi d _ _ => [.s d.toNat]
  | .addi d _ _ => [.s d.toNat]
  | _ => []

/-- The destinations of a V syllable (R22). -/
def vDests (i : Instr) : List Dst :=
  match i with
  | .vadd d _ _ _ _ => [.v d.toNat]
  | .vsub d _ _ _ _ => [.v d.toNat]
  | .vmul d _ _ _ _ => [.v d.toNat]
  | .vmin d _ _ _ _ => [.v d.toNat]
  | .vmax d _ _ _ _ => [.v d.toNat]
  | .vabs d _ _ _ => [.v d.toNat]
  | .vneg d _ _ _ => [.v d.toNat]
  | .vclass d _ _ _ => [.v d.toNat]
  | .vrndi d _ _ _ => [.v d.toNat]
  | .vaddScalar d _ _ _ _ => [.v d.toNat]
  | .vsubScalar d _ _ _ _ => [.v d.toNat]
  | .vmulScalar d _ _ _ _ => [.v d.toNat]
  | .vfma d _ _ _ _ _ => [.v d.toNat]
  | .vfms d _ _ _ _ _ => [.v d.toNat]
  | .vfnma d _ _ _ _ _ => [.v d.toNat]
  | .vcmpEq d _ _ _ _ => [.m d.toNat]
  | .vcmpNe d _ _ _ _ => [.m d.toNat]
  | .vcmpLt d _ _ _ _ => [.m d.toNat]
  | .vcmpLe d _ _ _ _ => [.m d.toNat]
  | .vcmpUn d _ _ _ _ => [.m d.toNat]
  | .vcmpOr d _ _ _ _ => [.m d.toNat]
  | .vcvtF16F32 d _ _ _ _ => [.v d.toNat]
  | .vcvtBf16F32 d _ _ _ _ => [.v d.toNat]
  | .vcvtF32F16 d _ _ _ => [.v d.toNat]
  | .vcvtF32Bf16 d _ _ _ => [.v d.toNat]
  | .vcvtI32F32 d _ _ _ => [.v d.toNat]
  | .vcvtN32F32 d _ _ _ => [.v d.toNat]
  | .vcvtF32I32 d _ _ _ => [.v d.toNat]
  | .vcvtF32N32 d _ _ _ => [.v d.toNat]
  | .vrcp d _ _ _ => [.v d.toNat]
  | .vrsq d _ _ _ => [.v d.toNat]
  | .vexp2 d _ _ _ => [.v d.toNat]
  | .vlog2 d _ _ _ => [.v d.toNat]
  | .vtanh d _ _ _ => [.v d.toNat]
  | .vsig d _ _ _ => [.v d.toNat]
  | .vaddi d _ _ _ _ => [.v d.toNat]
  | .vsubi d _ _ _ _ => [.v d.toNat]
  | .vmuli d _ _ _ _ => [.v d.toNat]
  | .vmulhi d _ _ _ _ => [.v d.toNat]
  | .vmini d _ _ _ _ => [.v d.toNat]
  | .vmaxi d _ _ _ _ => [.v d.toNat]
  | .vabsdi d _ _ _ _ => [.v d.toNat]
  | .vand d _ _ _ _ => [.v d.toNat]
  | .vor d _ _ _ _ => [.v d.toNat]
  | .vxor d _ _ _ _ => [.v d.toNat]
  | .vnot d _ _ _ => [.v d.toNat]
  | .vshl d _ _ _ _ => [.v d.toNat]
  | .vshr d _ _ _ _ => [.v d.toNat]
  | .vsra d _ _ _ _ => [.v d.toNat]
  | .vrshr d _ _ _ _ => [.v d.toNat]
  | .vaddiSat d _ _ _ _ => [.v d.toNat]
  | .vsubiSat d _ _ _ _ => [.v d.toNat]
  | .vaddiScalar d _ _ _ _ => [.v d.toNat]
  | .vsubiScalar d _ _ _ _ => [.v d.toNat]
  | .vmuliScalar d _ _ _ _ => [.v d.toNat]
  | .vminiScalar d _ _ _ _ => [.v d.toNat]
  | .vmaxiScalar d _ _ _ _ => [.v d.toNat]
  | .vshlImm d _ _ _ _ => [.v d.toNat]
  | .vshrImm d _ _ _ _ => [.v d.toNat]
  | .vsraImm d _ _ _ _ => [.v d.toNat]
  | .vrshrImm d _ _ _ _ => [.v d.toNat]
  | .vmac2 d _ _ _ _ => [.v d.toNat]
  | .vmac2Sat d _ _ _ _ => [.v d.toNat]
  | .vdot4 d _ _ _ _ => [.v d.toNat]
  | .vdot4Sat d _ _ _ _ => [.v d.toNat]
  | .vsatn d _ _ _ _ => [.v d.toNat]
  | .vwidenLo d _ _ _ => [.v d.toNat]
  | .vwidenHi d _ _ _ => [.v d.toNat]
  | .vcmpiEq d _ _ _ _ => [.m d.toNat]
  | .vcmpiNe d _ _ _ _ => [.m d.toNat]
  | .vcmpiLt d _ _ _ _ => [.m d.toNat]
  | .vcmpiLe d _ _ _ _ => [.m d.toNat]
  | .vpopc d _ _ _ => [.v d.toNat]
  | .vprepop d _ _ _ => [.v d.toNat]
  | .vclz d _ _ _ => [.v d.toNat]
  | .vslideUp d _ _ _ => [.v d.toNat]
  | .vslideDn d _ _ _ => [.v d.toNat]
  | .vperm d _ _ _ => [.v d.toNat]
  | .vcmprs d _ _ => [.v d.toNat]
  | .vexpnd d _ _ => [.v d.toNat]
  | .viota d _ => [.v d.toNat]
  | .vselv d _ _ _ => [.v d.toNat]
  | .vmov d _ _ => [.v d.toNat]
  | .vbcast d _ _ => [.v d.toNat]
  | .vredAddInt d _ _ _ => [.v d.toNat]
  | .vredMinInt d _ _ _ => [.v d.toNat]
  | .vredMaxInt d _ _ _ => [.v d.toNat]
  | .vredAddFloat d _ _ _ => [.v d.toNat]
  | .vredMinFloat d _ _ _ => [.v d.toNat]
  | .vredMaxFloat d _ _ _ => [.v d.toNat]
  | .vscaniAddInt d _ _ _ => [.v d.toNat]
  | .vscaniMaxInt d _ _ _ => [.v d.toNat]
  | .vscaniAddFloat d _ _ _ => [.v d.toNat]
  | .vqnt d _ _ _ _ => [.v d.toNat]
  | .vdqnt d _ _ _ _ => [.v d.toNat]
  | .vtopk d _ _ _ _ => [.v d.toNat, .v (d.toNat + 1), .s 54]
  | .vtopkNz d _ _ _ _ => [.v d.toNat, .v (d.toNat + 1), .s 54]
  | .mand d _ _ => [.m d.toNat]
  | .mor d _ _ => [.m d.toNat]
  | .mxor d _ _ => [.m d.toNat]
  | .mnot d _ => [.m d.toNat]
  | .mset d _ => [.m d.toNat]
  | _ => []

/-- The vector registers that a V syllable reads. -/
def vSrcs (i : Instr) : List Nat :=
  match i with
  | .vadd _ a b _ _ => [a.toNat, b.toNat]
  | .vsub _ a b _ _ => [a.toNat, b.toNat]
  | .vmul _ a b _ _ => [a.toNat, b.toNat]
  | .vmin _ a b _ _ => [a.toNat, b.toNat]
  | .vmax _ a b _ _ => [a.toNat, b.toNat]
  | .vabs _ a _ _ => [a.toNat]
  | .vneg _ a _ _ => [a.toNat]
  | .vclass _ a _ _ => [a.toNat]
  | .vrndi _ a _ _ => [a.toNat]
  | .vaddScalar _ a _ _ _ => [a.toNat]
  | .vsubScalar _ a _ _ _ => [a.toNat]
  | .vmulScalar _ a _ _ _ => [a.toNat]
  | .vfma _ a b c _ _ => [a.toNat, b.toNat, c.toNat]
  | .vfms _ a b c _ _ => [a.toNat, b.toNat, c.toNat]
  | .vfnma _ a b c _ _ => [a.toNat, b.toNat, c.toNat]
  | .vcmpEq _ a b _ _ => [a.toNat, b.toNat]
  | .vcmpNe _ a b _ _ => [a.toNat, b.toNat]
  | .vcmpLt _ a b _ _ => [a.toNat, b.toNat]
  | .vcmpLe _ a b _ _ => [a.toNat, b.toNat]
  | .vcmpUn _ a b _ _ => [a.toNat, b.toNat]
  | .vcmpOr _ a b _ _ => [a.toNat, b.toNat]
  | .vcvtF16F32 _ a b _ _ => [a.toNat, b.toNat]
  | .vcvtBf16F32 _ a b _ _ => [a.toNat, b.toNat]
  | .vcvtF32F16 _ a _ _ => [a.toNat]
  | .vcvtF32Bf16 _ a _ _ => [a.toNat]
  | .vcvtI32F32 _ a _ _ => [a.toNat]
  | .vcvtN32F32 _ a _ _ => [a.toNat]
  | .vcvtF32I32 _ a _ _ => [a.toNat]
  | .vcvtF32N32 _ a _ _ => [a.toNat]
  | .vrcp _ a _ _ => [a.toNat]
  | .vrsq _ a _ _ => [a.toNat]
  | .vexp2 _ a _ _ => [a.toNat]
  | .vlog2 _ a _ _ => [a.toNat]
  | .vtanh _ a _ _ => [a.toNat]
  | .vsig _ a _ _ => [a.toNat]
  | .vaddi _ a b _ _ => [a.toNat, b.toNat]
  | .vsubi _ a b _ _ => [a.toNat, b.toNat]
  | .vmuli _ a b _ _ => [a.toNat, b.toNat]
  | .vmulhi _ a b _ _ => [a.toNat, b.toNat]
  | .vmini _ a b _ _ => [a.toNat, b.toNat]
  | .vmaxi _ a b _ _ => [a.toNat, b.toNat]
  | .vabsdi _ a b _ _ => [a.toNat, b.toNat]
  | .vand _ a b _ _ => [a.toNat, b.toNat]
  | .vor _ a b _ _ => [a.toNat, b.toNat]
  | .vxor _ a b _ _ => [a.toNat, b.toNat]
  | .vnot _ a _ _ => [a.toNat]
  | .vshl _ a b _ _ => [a.toNat, b.toNat]
  | .vshr _ a b _ _ => [a.toNat, b.toNat]
  | .vsra _ a b _ _ => [a.toNat, b.toNat]
  | .vrshr _ a b _ _ => [a.toNat, b.toNat]
  | .vaddiSat _ a b _ _ => [a.toNat, b.toNat]
  | .vsubiSat _ a b _ _ => [a.toNat, b.toNat]
  | .vaddiScalar _ a _ _ _ => [a.toNat]
  | .vsubiScalar _ a _ _ _ => [a.toNat]
  | .vmuliScalar _ a _ _ _ => [a.toNat]
  | .vminiScalar _ a _ _ _ => [a.toNat]
  | .vmaxiScalar _ a _ _ _ => [a.toNat]
  | .vshlImm _ a _ _ _ => [a.toNat]
  | .vshrImm _ a _ _ _ => [a.toNat]
  | .vsraImm _ a _ _ _ => [a.toNat]
  | .vrshrImm _ a _ _ _ => [a.toNat]
  | .vmac2 _ a b _ _ => [a.toNat, b.toNat]
  | .vmac2Sat _ a b _ _ => [a.toNat, b.toNat]
  | .vdot4 _ a b _ _ => [a.toNat, b.toNat]
  | .vdot4Sat _ a b _ _ => [a.toNat, b.toNat]
  | .vsatn _ a b _ _ => [a.toNat, b.toNat]
  | .vwidenLo _ a _ _ => [a.toNat]
  | .vwidenHi _ a _ _ => [a.toNat]
  | .vcmpiEq _ a b _ _ => [a.toNat, b.toNat]
  | .vcmpiNe _ a b _ _ => [a.toNat, b.toNat]
  | .vcmpiLt _ a b _ _ => [a.toNat, b.toNat]
  | .vcmpiLe _ a b _ _ => [a.toNat, b.toNat]
  | .vpopc _ a _ _ => [a.toNat]
  | .vprepop _ a _ _ => [a.toNat]
  | .vclz _ a _ _ => [a.toNat]
  | .vslideUp _ a _ _ => [a.toNat]
  | .vslideDn _ a _ _ => [a.toNat]
  | .vperm _ a b _ => [a.toNat, b.toNat]
  | .vcmprs _ a _ => [a.toNat]
  | .vexpnd _ a _ => [a.toNat]
  | .vselv _ a b _ => [a.toNat, b.toNat]
  | .vmov _ a _ => [a.toNat]
  | .vredAddInt _ a _ _ => [a.toNat]
  | .vredMinInt _ a _ _ => [a.toNat]
  | .vredMaxInt _ a _ _ => [a.toNat]
  | .vredAddFloat _ a _ _ => [a.toNat]
  | .vredMinFloat _ a _ _ => [a.toNat]
  | .vredMaxFloat _ a _ _ => [a.toNat]
  | .vscaniAddInt _ a _ _ => [a.toNat]
  | .vscaniMaxInt _ a _ _ => [a.toNat]
  | .vscaniAddFloat _ a _ _ => [a.toNat]
  | .vqnt _ a b _ _ => [a.toNat, b.toNat]
  | .vdqnt _ a b _ _ => [a.toNat, b.toNat]
  | .vtopk _ a b _ _ => [a.toNat, b.toNat]
  | .vtopkNz _ a b _ _ => [a.toNat, b.toNat]
  | _ => []

/-- The predicate that a pop of register `r` writes, when it ends its binding (R311). -/
def popEnd (pre : State) (r : Nat) : Option Dst :=
  match pre.bound pre.cur.1 pre.cur.2 r with
  | none => none
  | some (_, y) =>
    let last := match y.kind with
      | .pattern | .global => y.count + 1 ≥ patCount y.blk
      | .port => ((pre.my.portOf y.num).fifo.head?).any (·.last)
      | .pipe => (pre.my.pipeOf y.num).count != 0 && (pre.my.pipeOf y.num).ends.contains (pre.my.pipeOf y.num).head
      | .none => false
    if last && !y.write && !y.ended then some (.p y.pred) else none

/-- Whether a bundle names one destination in both syllables (R22, R311); s0, p0 and m0 are excepted. -/
def sameDest (pre : State) (i j : Instr) : Bool :=
  let d := vDests j ++ (vSrcs j).filterMap (popEnd pre)
  (sDests i).any fun x => x != .s 0 && x != .p 0 && x != .m 0 && d.contains x

end Sys2Proof.Machine
end

