-- ==== Sys2Proof/Machine/Bundle.lean ====
section
/-! DEFINITION. A bundle: fetching it (R56, R57), its two halves as one step (R22, R68 to R71), its publication (R202),
and its execution by a lockstep member (R207, R208). -/

namespace Sys2Proof.Machine

/-- A half of a bundle: NOP or VNOP, an instruction, or a syllable that is none, with the instruction whose major and fn
it has, if any (R68, R69). -/
inductive Half where
  | nop
  | run (i : Instr)
  | bad (i : Option Instr)
  deriving DecidableEq, Repr

/-- The half that a syllable is: `w` its word, `strict` its decoding, `loose` the instruction of its major and fn. -/
def halfOf (w : Nat) (strict loose : Option Instr) : Half :=
  if w = 0 then .nop
  else
    match strict with
    | some i => .run i
    | none => .bad loose

/-- The halves of a bundle (R56): a long form stands alone. -/
noncomputable def halves (w : Nat) : Half × Half :=
  if fld w 31 1 = 1 then (halfOf 1 (decodeL w) (readL w), .nop)
  else
    (halfOf (fld w 0 32) (decodeS (fld w 0 32)) (readS (fld w 0 32)),
      halfOf (fld w 32 32) (decodeV (fld w 32 32)) (readV (fld w 32 32)))

/-- The V syllable's word, as capture records it; a long form records VNOP (R158). -/
def vWord (w : Nat) : W32 := if fld w 31 1 = 1 then 0 else BitVec.ofNat 32 (fld w 32 32)

/-- Whether a HANDLE of an instruction, by its reason, comes of an operand's value: a decode fault of its syllable comes
before it (R69). -/
def ofOperand (i : Instr) (reason : Nat) : Bool :=
  match i with
  | .cpy _ | .cpyw _ | .cpyg _ | .cpys _ | .cpyt _ | .mcast _ _ => true
  | .slotstart _ _ | .slotstopStop _ _ | .slotstopResume _ _ | .slotstopIdle _ _ => true
  | .slotxferRd _ _ | .slotxferWr _ _ | .slotxferVrd _ _ | .slotxferVwr _ _ => true
  | .slotxferDump _ | .slotxferLoad _ => true
  | .subscr _ _ _ => reason = 1
  | _ => reason = 4 || reason = 6 || reason = 7

/-- A syllable that is no instruction traps ILLEGAL, or HANDLE where its handle fields call for it (R68, R69). -/
def Res.illegal (i : Instr) : Res → Res
  | .trap c d => if c = cHANDLE && !ofOperand i (fld d.toNat 8 8) then .trap c d else .trap cILLEGAL 0
  | _ => .trap cILLEGAL 0

/-- Whether an instruction names a cursor beyond x3 (R59, R170; log entry 111). -/
def noCursor (i : Instr) : Bool :=
  match i with
  | .cxopen d _ _ | .cxopenRel d | .cxand d _ _ | .cxor d _ _ | .cxdiff d _ _ | .cxrest d _ => d.toNat > 3
  | .cxnext _ a _ _ | .cxnextW _ a _ _ | .cxsave a _ | .cxstat _ a _ => a.toNat > 3
  | .cxsplit d a _ => d.toNat > 3 || a.toNat > 3
  | _ => false

/-- What a syllable that is no instruction traps, of the instruction whose major and fn it has (R68, R69). A cursor that the core
does not have makes it ILLEGAL alone (log entry 111); a SUBSCR's level and membership are looked at before its operand's value. -/
def State.malformedS (s : State) (i : Instr) : Res :=
  if noCursor i then .trap cILLEGAL 0
  else
    match i with
    | .subscr _ a _ =>
      let ch := (s.rs a.toNat).toNat
      if s.cur.2 ≥ 14 then chHandle 3 ch else if s.me.pub || s.me.member then chHandle 2 ch else .trap cILLEGAL 0
    | i => (semS i s).illegal i

/-- What the S half does. -/
def Half.runS (h : Half) (s : State) : Res :=
  match h with
  | .nop => .ok s
  | .run i => semS i s
  | .bad (some i) => s.malformedS i
  | .bad none => .trap cILLEGAL 0

/-- What the V half does, its operands read in `pre` and its effects made in `cur`. -/
def Half.runV (h : Half) (pre cur : State) : Res :=
  match h with
  | .nop => .ok cur
  | .run i => semV i pre cur
  | .bad (some i) => (semV i pre cur).illegal i
  | .bad none => .trap cILLEGAL 0

/-- Whether the V half may not be captured (R158). -/
def Half.noCapture (h : Half) (s : State) : Bool :=
  match h with
  | .nop => false
  | .run i => capIllegal i s
  | .bad _ => true

/-- Whether the halves name one destination (R22). -/
def Half.clash (hs hv : Half) (s : State) : Bool :=
  match hs, hv with
  | .run i, .run j => sameDest s i j
  | _, _ => false

/-- The trap of a result. -/
def Res.trapOf : Res → Option (Nat × W32)
  | .trap c d => some (c, d)
  | _ => none

/-- Two waits of one bundle: the registers that both wait for. -/
def Held.with (h k : Held) : Held :=
  match h, k with
  | .strip a b, .strip c d => .strip (a ++ c) (b ++ d)
  | h, _ => h

/-- A bundle whose V syllable is an MMA, handed in `t`, beside an S syllable that came to `r` (R149): the slot is PARKED
until the step retires; what the S syllable awaits, and where it goes on, is kept. -/
def Res.besideMma (r : Res) (t : State) : Res :=
  match r with
  | .jump pc _ => .hold (some pc) t
  | .hold n s => .hold n (t.await s.me.st s.me.held)
  | .halt c d _ => .hold none (t.modMe fun x => { x with stop := some ⟨c, d, false, false, false⟩ })
  | .ok s => .hold none (if s.me.st = .stopped then t.modMe fun x => { x with stop := some quietStop } else t)
  | r => r

/-- A result with its state after both syllables. -/
def Res.after (r : Res) (t : State) : Res :=
  match r with
  | .ok _ => .ok t
  | .jump pc _ => .jump pc t
  | .hold n _ => .hold n t
  | .halt c d _ => .halt c d t
  | r => r

/-- The state that an S syllable leaves, where it takes effect. -/
def Res.state? : Res → Option State
  | .ok s => some s
  | .jump _ s => some s
  | .hold _ s => some s
  | .halt _ _ s => some s
  | _ => none

/-- The V half beside an S half that came to `rs` and does not fault (R22). -/
def joinV (s : State) (rs : Res) (hv : Half) : Res :=
  match rs, rs.state? with
  | .again h, _ =>
    match hv.runV s s with
    | .again k => .again (h.with k)
    | _ => .again h
  | r, none => r
  | r, some t =>
    match hv.runV s t with
    | .ok u => r.after u
    | .hold _ u => r.besideMma u
    | x => x

/-- A bundle as one step (R22): whether a trap is the V syllable's, and what the bundle comes to. A sequence of the slot
that faulted or runs comes first (R162, R164); then the trap of lowest cause, the S syllable's of two alike (R71, R324); the ILLEGAL
of two syllables that name one destination is the S syllable's (log entry 101). `vw` is the V syllable's word. -/
def State.bundle (s : State) (vw : W32) (hs hv : Half) : Bool × Res :=
  let q := s.my.seqr
  let own : Bool := q.owner = some s.cur.2
  let cap := own && q.want != 0
  let gate : Option Res :=
    if !own || hv = .nop then none
    else
      match s.seqFault with
      | some r => some r
      | none => if !cap && q.run then some (.again .seqEnd) else none
  match gate with
  | some r => (true, r)
  | none =>
    let rs := hs.runS (s.capture vw)
    let tv := if cap then (if hv.noCapture s then some (cILLEGAL, 0) else none) else (hv.runV s s).trapOf
    let tc := if hs.clash hv s then some (cILLEGAL, 0) else none
    let ts := minTrap rs.trapOf tc
    match minTrap ts tv with
    | some (c, d) => (ts != some (c, d), .trap c d)
    | none => (false, if cap || hv = .nop then rs else joinV s rs hv)

/-- Whether a bundle takes effect. -/
def Res.effective : Res → Bool
  | .ok _ | .jump _ _ | .hold _ _ | .halt _ _ _ => true
  | _ => false

/-- The PC that follows the executing slot's bundle. -/
def Res.nextPc (r : Res) (pc : W64) : W64 :=
  match r with
  | .jump n _ => n
  | .hold (some n) _ => n
  | _ => pc + 8

/-- A bundle of a slot that publishes it, when it takes effect (R202, R209). -/
def State.bundlePub (s : State) (word : W64) (vw : W32) (hs hv : Half) : Bool × Res :=
  let r := s.bundle vw hs hv
  if s.me.pub && r.2.effective then (s.publish s.me word s.me.pc (r.2.nextPc s.me.pc)).bundle vw hs hv else r

/-! ### Fetch -/

/-- Fetching through sg7 (R16, R17, R57): the bundle's local address, or the trap. -/
def State.fetchAt (s : State) : Except (Nat × W32) Nat :=
  let off : Int := s.me.pc.toNat
  match segLocal (s.me.rsg 7) off 8 8 .fetch with
  | .at a => if s.my.bad a 8 then .error (cECCFATAL, offDetail off) else .ok a
  | .remote _ _ => .error (cSPACE, offDetail off)
  | .bad c => .error (c, offDetail off)

/-- The bundle at a local address, as a number. -/
def State.wordAtPc (s : State) (a : Nat) : Nat := s.my.rd a 8

/-- A bundle of the slot's own code, its word fetched (R57). -/
noncomputable def State.runWord (s : State) (w : Nat) : State :=
  let h := halves w
  let r := s.bundlePub (BitVec.ofNat 64 w) (vWord w) h.1 h.2
  s.finish r.1 r.2

/-! ### Lockstep members -/

/-- The private-only syllables (R208). -/
def privateOnly : Instr → Bool
  | .pubon _ | .subscr _ _ _ | .resub _ _ | .waitmsg _ | .sleep _ _ | .halt | .yield | .join _ | .dqpop _ _ _ _ _ => true
  | _ => false

/-- The syllables by which a member leaves to fetch its own code behind them (R205, R213, R214). -/
def leaves : Instr → Bool
  | .unsub | .unsubp _ | .unsubm _ | .leave | .puboff => true
  | _ => false

/-- A branch or jump, which a member does not evaluate, and a call, of which it writes the link (R207). -/
def isBranch : Instr → Bool
  | .br _ | .bc _ _ | .bnc _ _ | .bmz _ _ | .bmnz _ _ | .jr _ | .call _ | .callr _ => true
  | _ => false
def isCall : Instr → Bool
  | .call _ | .callr _ => true
  | _ => false

/-- A member's bundle (R207): of a control transfer it executes the link's write and nothing else. -/
def State.memberBundle (s : State) (vw : W32) (hs hv : Half) : Bool × Res :=
  match hs with
  | .run i =>
    if isBranch i then
      let r := s.bundle vw .nop hv
      match r.2.state? with
      | some t => (r.1, if isCall i then r.2.after (t.ws 55 (s.me.pc + 8)) else r.2)
      | none => r
    else s.bundle vw hs hv
  | _ => s.bundle vw hs hv

/-- A member that has issued its last bundle of a channel that ended leaves it (R205). -/
def State.memberDone (s : State) : State :=
  if s.me.ending && s.me.due.isEmpty && s.me.mst = .joined then s.endMembership s.cur.1 s.cur.2 else s

/-- A JOINED member issues its oldest due bundle (R207, R208, R210). -/
noncomputable def State.runMember (s : State) (d : Due) : State :=
  let w := d.bun.word.toNat
  let h := halves w
  let s := s.modMe fun t => { t with pc := d.bun.pc }
  let priv : Bool := match h.1 with
    | .run i => privateOnly i
    | _ => false
  let leave : Bool := match h.1 with
    | .run i => leaves i
    | _ => false
  if priv then s.goAway s.cur.1 s.cur.2
  else
    let popped := s.modMe fun t => { t with due := t.due.tail }
    let r := popped.memberBundle (vWord w) h.1 h.2
    if r.2.effective then
      (s.finishBy (fun t own =>
        if t.me.mst = .joined then t.me.nextPc d.bun.npc else if leave then own else d.bun.npc) r.1 r.2).memberDone
    else s.finish r.1 r.2

end Sys2Proof.Machine
end

