-- ==== Sys2Proof/Machine/Trap.lean ====
section
/-! DEFINITION. The steps of TIMER, the issue-slot table, banking, pre-emption and slot 15's restart (R28, R195, R199, R327,
R334). -/

namespace Sys2Proof.Machine

/-! ### TIMER (R28, R325, R338) -/

/-- Whether a core takes events now: it is neither banked nor in its restart (R199, R200). -/
def State.awake (s : State) (c : Nat) : Bool :=
  let x := s.core c
  !x.banked && !(x.restart.any fun t => s.now < t)

/-- Whether a slot's TIMER expires (R28). -/
def Slot.timerOut (t : Slot) : Bool := t.st != .idle && t.timer = 0x8000000000000000#64

/-- TIMER_EXPIRY (R28, R200, R325, R338): ARM clears; an interrupt becomes pending, or the slot traps, or, STOPPED, keeps
it in TPEND. -/
def evTimerExpiry (core slot : Nat) (s : State) : State :=
  if !(s.slot core slot).timerOut then s
  else
    s.arrive core (.timerExpiry core slot) fun s =>
      let t := s.slot core slot
      let s := s.modSlot core slot fun t => { t with timer := 0 }
      if slot ≤ 13 && t.tul && t.ue && t.st != .stopped then s.modSlot core slot fun t => { t with timerInt := true }
      else s.requestStop core slot ⟨cTIMER, 0, false, false, false⟩

/-! ### The issue-slot table (R195) -/

/-- A quiescent point (R195, R212): the matrix unit executes nothing and can start nothing. -/
def Core.quiet (x : Core) : Bool :=
  (steps 0 1 14).all (fun i => (x.slot i).st != .ready || (x.slot i).lull) && x.mx.run.isNone && x.nextOp.isNone
    && !x.seqr.run

/-- Whether a pending table takes effect at the frame start that begins cycle `now` (R195). -/
def Core.istDue (x : Core) (now : Nat) : Bool := now % 32 = 0 && x.istNext.isSome && (x.istBar || x.banked || x.quiet)

/-- IST_SWITCH (R195). -/
def evIstSwitch (core : Nat) (s : State) : State :=
  let x := s.core core
  match x.istNext with
  | some l => if x.istDue s.now then s.setCore core { x with ist := l, istNext := none, istBar := false } else s
  | none => s

/-! ### Banking (R199) -/

/-- Whether the copy engine's commands make no progress until an event arrives (R199). -/
def Core.copyStill (x : Core) : Bool :=
  x.cq.toList.all fun l =>
    match l with
    | [] => true
    | k :: r => k.fid.isSome && r.all fun q => !q.started

/-- Whether the scan engine lets its core bank (R199, R258). -/
def Core.scanStill (x : Core) : Bool :=
  x.scan.tiles.isEmpty && x.scan.fix.isNone && x.scan.image.isNone && x.scan.sends.isEmpty
    && !(x.scan.flue.any fun f => f.part.isSome)

/-- Whether a slot waits in RDV or RESUB (R283). -/
def Slot.meets (t : Slot) : Bool :=
  match t.held with
  | .rdv _ _ | .resub _ _ => true
  | _ => false

/-- Whether a core's slots let it bank (R199, R212, R283). -/
def State.slotsStill (s : State) (c : Nat) : Bool :=
  slotNums.all fun i =>
    let t := s.slot c i
    t.st != .ready && t.mst != .joined && t.mst != .pending && !t.meets && !t.heldDue

/-- Whether a core banks at the end of the cycle (R199). -/
def State.bankable (s : State) (c : Nat) : Bool :=
  let x := s.core c
  !x.banked && x.restart.isNone && !x.busy && s.slotsStill c && !x.seqr.run && x.div.isEmpty && x.scanStill
    && x.mx.run.isNone && x.nextOp.isNone && x.copyStill
    && x.su.toList.all (fun u => !u.flight || u.fid.isSome) && x.netq.isEmpty
    && !s.handlerDue c && (x.trapq.isEmpty || !((x.slot 15).st = .waiting))

/-- CORE_BANK (R199): the core is banked from the next cycle on. -/
def evCoreBank (core : Nat) (s : State) : State :=
  if s.bankable core then s.modCore core fun x => { x with banked := true } else s

/-! ### Pre-emption (R334) and the restart of slot 15 (R327) -/

/-- A read stream's staging is discarded (R334); what a page fault holds stays held. -/
def Stream.unstage (y : Stream) : Stream :=
  if y.kind = .global && !y.write then { y with
    staged := [], moved := y.count, flight := y.fid.isSome, ticket := if y.fid.isSome then y.ticket else none } else y

/-- Slot 15 learns of a request of the hub (R328): its WAITMSG ends. -/
def State.callSystem (s : State) (c : Nat) : State :=
  match (s.slot c 15).held with
  | .waitmsg _ => s.wake c 15
  | _ => s

/-- A pre-empted core (R334): slots 0 to 14 stop, and read staging is discarded. -/
def State.preemptCore (s : State) (c : Nat) : State :=
  let s := s.modCore c fun x => { x with preempt := true }
  let s := (steps 0 1 15).foldl (fun s i => s.requestStop c i ⟨cPREEMPT, 0, false, false, false⟩) s
  s.modCore c fun x => { x with su := x.su.map Stream.unstage }

/-- PREEMPT_ARRIVE (R200, R334): the core is pre-empted, and slot 15 is to save it. -/
def evPreemptArrive (core : Nat) (s : State) : State :=
  s.arrive core (.preemptArrive core) fun s => (s.preemptCore core).callSystem core

/-- SLOT15_RESTART (R327): slot 15 starts at its firmware's entry. -/
def evSlot15Restart (core : Nat) (s : State) : State :=
  if (s.slot core 15).st = .stopped then
    s.modSlot core 15 fun t => t.start Config.firmwareEntry 0 true
  else s

/-! ### Meanings -/

/-- TIMER_EXPIRY (R28). -/
def execTimerExpiry (core slot : Nat) (s : State) : Host.Outcome State Fault Refusal :=
  .next (evTimerExpiry core slot s)
/-- IST_SWITCH (R195). -/
def execIstSwitch (core : Nat) (s : State) : Host.Outcome State Fault Refusal := .next (evIstSwitch core s)
/-- CORE_BANK (R199). -/
def execCoreBank (core : Nat) (s : State) : Host.Outcome State Fault Refusal := .next (evCoreBank core s)
/-- PREEMPT_ARRIVE (R334). -/
def execPreemptArrive (core : Nat) (s : State) : Host.Outcome State Fault Refusal := .next (evPreemptArrive core s)
/-- SLOT15_RESTART (R327). -/
def execSlot15Restart (core : Nat) (s : State) : Host.Outcome State Fault Refusal := .next (evSlot15Restart core s)

end Sys2Proof.Machine
end

