-- ==== Sys2Proof/Machine/Queue.lean ====
section
/-! DEFINITION. Hub registers, submission queues, the journal and completion records (R370 to R377, R381). -/

namespace Sys2Proof.Machine

/-! ### Entries and commands (R373, R377) -/

/-- Dword `k` of an entry. -/
def sqWord (e : SqEntry) (k : Nat) : Nat := fld e.data.toNat (64 * k) 64
/-- TAG of an entry. -/
def sqTag (e : SqEntry) : Nat := fld (sqWord e 0) 48 16
/-- OPC of an entry. -/
def sqOpc (e : SqEntry) : Nat := fld (sqWord e 0) 16 8
/-- IRQ of an entry. -/
def sqIrq (e : SqEntry) : Bool := fld (sqWord e 0) 8 1 = 1
/-- PH of an entry. -/
def sqPh (e : SqEntry) : Nat := fld (sqWord e 0) 0 1
/-- Whether an entry has a reserved bit set or an unknown OPC (R373, R374). -/
def sqBad (e : SqEntry) : Bool :=
  let w := sqWord e 0
  fld w 24 24 != 0 || fld w 9 7 != 0 || fld w 1 7 != 0 || sqOpc e = 0 || sqOpc e > 0x0A

/-- The registers of a queue as reset leaves them (R372). -/
def Sq.reset : Sq := ⟨0, 0, false, false, 0, 4, 0, 0, 0, 0⟩
/-- A queue. -/
def State.sq (s : State) (q : Nat) : Sq := tget Sq.reset q s.hub.sq
/-- Sets a queue. -/
def State.setSq (s : State) (q : Nat) (x : Sq) : State := { s with hub := { s.hub with sq := tput q x s.hub.sq } }

/-! ### The journal (R381) -/

/-- The words of a journal entry (R381). -/
def jWords (j queue opc st ctx seq tag detail : Nat) : W64 × W64 :=
  (BitVec.ofNat 64 (j % 2 ^ 32 * 2 ^ 32 + queue % 256 * 2 ^ 24 + opc % 256 * 2 ^ 16 + st % 8 * 2 ^ 10 + ctx % 1024),
    BitVec.ofNat 64 (seq % 2 ^ 32 * 2 ^ 32 + tag % 65536 * 65536 + detail % 65536))

/-- The journal entry of a command at its latest state. -/
def Work.entry (w : Work) (j : Nat) : W64 × W64 :=
  jWords j w.e.queue (sqOpc w.e) w.state w.ctx w.e.seq (sqTag w.e) w.detail

/-- Appends entry JHEAD to the ring and to its mirror (R381). -/
def State.jAppend (s : State) (e : W64 × W64) : State :=
  let l := if s.hub.journal.length < 4096 then s.hub.journal else s.hub.journal.tail
  { s with
    hub := { s.hub with journal := l ++ [e], jhead := s.hub.jhead + 1 }
    hbm := Memory.write s.hbm (s.hub.jmirror.toNat + 16 * (s.hub.jhead % 4096)) 16 (e.1.toNat + e.2.toNat * 2 ^ 64) }

/-- An uncorrectable error of a journal word, met as the hub works on the journal, stops every queue, one that nothing has written
yet too; a correctable one is corrected (R394). -/
def State.jCheck (s : State) : State :=
  let s := if s.hub.jweak then State.corrected { s with hub := { s.hub with jweak := false } } 1 else s
  if s.hub.jbad then
    { s with
      hub := { s.hub with sq := (List.range 256).map fun q => (q, { s.sq q with stop := true }) }
      mg := { s.mg with err := true, ecode := 6 } }
  else s

/-- Queue and SEQ of a journal entry of a command; none of a QLAP entry. -/
def jKey (e : W64 × W64) : Option (Nat × Nat) :=
  if fld e.1.toNat 10 3 = 7 then none else some (fld e.1.toNat 24 8, fld e.2.toNat 32 32)

/-- The unfinished command whose latest entry the next append overwrites (R381). -/
def State.jVictim (s : State) : Option Work :=
  match s.hub.journal with
  | [] => none
  | e0 :: rest =>
    if s.hub.journal.length < 4096 || rest.any (fun e => jKey e = jKey e0) then none
    else s.hub.work.find? fun w => jKey e0 = some (w.e.queue, w.e.seq)

/-- Re-appends the states of the unfinished commands whose latest entries are to be overwritten (R381). -/
def State.jRefresh (s : State) : Nat → State
  | 0 => s
  | n + 1 =>
    match s.jVictim with
    | none => s
    | some w => (s.jAppend (w.entry s.hub.jhead)).jRefresh n

/-- A state change of a command is journaled (R381). -/
def State.journal (s : State) (queue seq st detail : Nat) : State :=
  let mine := fun (w : Work) => w.e.queue = queue && w.e.seq = seq
  let l := s.hub.work.map fun w => if mine w then { w with state := st, detail := detail } else w
  let s : State := { s with hub := { s.hub with work := l } }
  match s.hub.work.find? mine with
  | none => s
  | some w =>
    let s := s.jCheck.jRefresh 1025
    s.jAppend (w.entry s.hub.jhead)

/-- The unfinished command of a queue and SEQ. -/
def State.workOf (s : State) (queue seq : Nat) : Option Work :=
  s.hub.work.find? fun w => w.e.queue = queue && w.e.seq = seq

/-- A command comes to its end: state and detail are set, and COMMAND_FINISH follows. -/
def State.finishCmd (s : State) (queue seq st detail : Nat) : State :=
  let s : State := { s with hub := { s.hub with work := s.hub.work.map fun w =>
      if w.e.queue = queue && w.e.seq = seq && w.state < 4 then { w with state := st, detail := detail } else w } }
  s.after 0 (.commandFinish queue seq)

/-- A command fails for a reason (R377). -/
def State.failCmd (s : State) (e : SqEntry) (reason : Nat) : State := s.finishCmd e.queue e.seq 5 reason
/-- A command is done. -/
def State.doneCmd (s : State) (e : SqEntry) (detail : Nat) : State := s.finishCmd e.queue e.seq 4 detail

/-- COMMAND_FINISH (R376): journal entry and mirror, completion record, interrupt. -/
def evCommandFinish (queue seq : Nat) (s : State) : State :=
  match s.workOf queue seq with
  | none => s
  | some w =>
    if w.state < 4 then s
    else
      let s := s.journal queue seq w.state w.detail
      let q := s.sq queue
      let a := q.cq.toNat + 16 * (w.e.n % 2 ^ q.lsz)
      let r := seq % 2 ^ 32 * 2 ^ 32 + sqTag w.e * 65536 + w.state * 256 + sqPh w.e + w.detail % 2 ^ 64 * 2 ^ 64
      { s with
        host := Memory.write s.host a 16 r
        hub := { s.hub with
          work := s.hub.work.filter fun v => !(v.e.queue = queue && v.e.seq = seq)
          irqs := if sqIrq w.e then s.hub.irqs ++ [w.ctx % 64] else s.hub.irqs } }

/-! ### Acceptance (R374, R375) -/

/-- SQTAIL written (R372, R374); differences of it are taken modulo 2^32. -/
def evSqtailWrite (queue : Nat) (val : W64) (s : State) : State :=
  let q := s.sq queue
  if q.stop || !s.barOn then s else s.setSq queue { q with tail := val.toNat }

/-- The reset of a queue (R374). -/
def Sq.rst (q : Sq) : Sq := { q with seqbase := (q.seqbase + q.rd) % 2 ^ 32, rd := 0, tail := 0, stop := false }

/-- SQCTL.RST written (R374). -/
def evSqctlRst (queue : Nat) (s : State) : State := if s.barOn then s.setSq queue (s.sq queue).rst else s

/-- SQCTL written (R372, R374): while EN = 1, CLASS, LSZ and CTX keep their values. An LSZ out of its range leaves LSZ as it was:
DESIGN CHOICE (log entry 126). -/
def evSqctlEn (queue : Nat) (val : W64) (s : State) : State :=
  let v := val.toNat
  let q := s.sq queue
  let q := if q.en then q
    else
      let l := fld v 16 5
      { q with cls := fld v 24 2, lsz := if 4 ≤ l && l ≤ 12 then l else q.lsz, ctx := fld v 0 10 }
  let q := { q with en := fld v 31 1 = 1 }
  if s.barOn then s.setSq queue (if fld v 29 1 = 1 then q.rst else q) else s

/-- Whether a queue has an entry for the hub to read (R374). -/
def Sq.ready (q : Sq) : Bool := q.en && !q.stop && q.rd != q.tail % 2 ^ 32

/-- The queue of a class that the next acceptance round takes an entry from (R375). -/
def State.nextQueue (s : State) (cls : Nat) : Option Nat :=
  let l := (s.hub.sq.filter fun e => e.2.cls = cls && e.2.ready).map (·.1)
  let last := vget s.hub.served cls 255
  match l.find? (· > last) with
  | some q => some q
  | none => l.head?

/-- The queue that the next acceptance round takes an entry from (R374, R375). -/
def State.acceptFrom (s : State) : Option Nat :=
  if s.hub.work.length ≥ 1024 || !s.barOn then none else [0, 1, 2, 3].findSome? s.nextQueue

/-- A queue that is lapped (R374). -/
def State.lap (s : State) (q : Nat) : State :=
  let x := s.sq q
  let s := (s.setSq q { x with stop := true }).jRefresh 1025
  s.jAppend (jWords s.hub.jhead q 0 7 x.ctx ((x.seqbase + x.rd + 2 ^ 32 - 1) % 2 ^ 32) 0 0)

/-- ENTRY_ACCEPT (R374, R375): one coherent read of the next entry; it is accepted, or the queue has been lapped. -/
def evEntryAccept (s : State) : State :=
  match s.acceptFrom with
  | none => s
  | some q =>
    let x := s.sq q
    let s : State := { s with hub := { s.hub with served := vset s.hub.served x.cls q } }
    if (x.tail % 2 ^ 32 + 2 ^ 32 - x.rd) % 2 ^ 32 > 2 ^ x.lsz then s.lap q
    else
      let w := Memory.read s.host (x.base.toNat + 64 * (x.rd % 2 ^ x.lsz)) 64
      let e : SqEntry := ⟨q, (x.seqbase + x.rd) % 2 ^ 32, x.rd, BitVec.ofNat 512 w⟩
      if sqPh e != (if x.rd / 2 ^ x.lsz % 2 = 0 then 1 else 0) then s.lap q
      else
        let s := s.setSq q { x with rd := (x.rd + 1) % 2 ^ 32 }
        let s : State := { s with hub := { s.hub with work := s.hub.work ++ [⟨e, x.ctx, s.now, sqBad e, 1, 0, 0⟩] } }
        let s := s.journal q e.seq 1 0
        if sqBad e then s.failCmd e 1 else s

/-- The commands of a queue accepted before one and not finished. -/
def State.earlier (s : State) (w : Work) : List Work :=
  (s.hub.work.takeWhile fun v => !(v.e.queue = w.e.queue && v.e.seq = w.e.seq)).filter fun v => v.e.queue = w.e.queue

/-- Whether a command is FENCE or SIGNAL. -/
def Work.orders (w : Work) : Bool := sqOpc w.e = 6 || sqOpc w.e = 7

/-- Whether a command may start (R375, R377): those before it have started, none of them a FENCE or SIGNAL; a FENCE or
SIGNAL waits until they are finished. -/
def State.mayBegin (s : State) (w : Work) : Bool :=
  let l := s.earlier w
  !w.begun && l.all (fun v => v.begun && !v.orders) && (!w.orders || l.isEmpty)

/-- The command that starts next, in acceptance order. -/
def State.nextWork (s : State) : Option Work := s.hub.work.find? s.mayBegin

/-- The step that a command's code names (R377). -/
def cmdStep (e : SqEntry) : Event :=
  match sqOpc e with
  | 0x01 => .launch e
  | 0x02 => .copy e
  | 0x03 => .pgfork e
  | 0x04 => .cancel e
  | 0x05 => .kill e
  | 0x06 => .queueFence e
  | 0x07 => .signal e
  | 0x08 => .cancelFaults e
  | 0x09 => .preempt e
  | _ => .resume e

/-- Marks a command as started; a command of a context under KILL fails (R377). -/
def State.beginCmd (s : State) (e : SqEntry) (k : State → Nat → State) : State :=
  match s.workOf e.queue e.seq with
  | none => s
  | some w =>
    if !s.mayBegin w then s
    else
      let s : State := { s with hub := { s.hub with work := s.hub.work.map fun v =>
          if v.e.queue = e.queue && v.e.seq = e.seq then { v with begun := true } else v } }
      if s.hub.kills.contains w.ctx then s.failCmd e 6 else k s w.ctx

/-- QUEUE_FENCE (R377): every earlier command of its queue has finished. -/
def evQueueFence (e : SqEntry) (s : State) : State := s.beginCmd e fun s _ => s.doneCmd e 0

/-- SIGNAL (R377): a value is written to host memory. -/
def evSignal (e : SqEntry) (s : State) : State :=
  s.beginCmd e fun s _ =>
    if sqWord e 1 % 8 != 0 then s.failCmd e 1
    else State.doneCmd { s with host := Memory.write s.host (sqWord e 1) 8 (sqWord e 2) } e 0

/-! ### Hub registers (R372) -/

/-- FQCONS written (R372): records that waited enter while there is room. -/
def evFqcons (val : W64) (s : State) : State :=
  if !s.barOn then s
  else
    let l := s.hub.fqwait
    l.foldl State.postRecord { s with hub := { s.hub with fqcons := val.toNat, fqwait := [] } }

/-- Queue registers at 0x1000 + 64 q (R372); address bits below the alignment are not held: DESIGN CHOICE (log entry 127). -/
def State.writeSq (s : State) (q r : Nat) (val : W64) : State :=
  match r with
  | 0x00 => s.setSq q { s.sq q with base := val &&& 0xFFFFFFFFFFFFFFC0#64 }
  | 0x08 => evSqctlEn q val s
  | 0x10 => evSqtailWrite q val s
  | 0x20 => s.setSq q { s.sq q with cq := val &&& 0xFFFFFFFFFFFFFFF0#64 }
  | _ => s

/-- HUB_REGISTER_WRITE (R372): a host write of a register; offsets not listed and read-only ones ignore it. A new root
invalidates what the caches hold of its context (R365). An AGEMAX out of its range is ignored, and bits of JMIRROR below its
alignment are not held: DESIGN CHOICES (log entries 126 and 127). -/
def evHubRegisterWrite (off : Nat) (val : W64) (s : State) : State :=
  let h := s.hub
  let root := val &&& 0x800000FFFFFFF000#64
  if !s.barOn then s
  else if off = 0x0008 then
    let v := val.toNat
    if 1 ≤ v && v ≤ 2 ^ 20 then { s with hub := { h with agemax := val } } else s
  else if off = 0x0010 then { s with hub := { h with jmirror := val &&& 0xFFFFFFFFFFFF0000#64 } }
  else if off = 0x0020 then { s with hub := { h with fqbase := val } }
  else if off = 0x0030 then evFqcons val s
  else if off = 0x0038 then evWake val s
  else if off = 0x0040 then { s with hub := { h with pkgid := val &&& 0xFFFF#64 } }
  else if 0x1000 ≤ off && off < 0x5000 then s.writeSq ((off - 0x1000) / 64) ((off - 0x1000) % 64) val
  else if 0x8000 ≤ off && off < 0xC000 then
    let c := (off - 0x8000) / 16
    if off % 16 = 0 then State.uncache { s with hub := { h with ctxroot := tput c root h.ctxroot } } c
    else if off % 16 = 8 then State.uncache { s with hub := { h with hostroot := tput c root h.hostroot } } c
    else s
  else if 0x10000 ≤ off && off < 0x90000 && off % 8 = 0 then
    { s with hub := { h with croute := tput ((off - 0x10000) / 8) (val &&& 0xFFFF#64) h.croute } }
  else s

/-- What a host read of a hub register returns (R372, R387). HID's revision is free (log entry 9). -/
def State.hubRead (s : State) (off : Nat) : W64 :=
  let h := s.hub
  let q := s.sq ((off - 0x1000) / 64)
  if !s.barOn then 0
  else if off = 0x0000 then BitVec.ofNat 64 (0x8200 + (Config.freeByte 0).toNat * 2 ^ 16 + h.pkgid.toNat % 65536 * 2 ^ 24)
  else if off = 0x0008 then h.agemax
  else if off = 0x0010 then h.jmirror
  else if off = 0x0018 then BitVec.ofNat 64 h.jhead
  else if off = 0x0020 then h.fqbase
  else if off = 0x0028 then BitVec.ofNat 64 h.fqprod
  else if off = 0x0030 then BitVec.ofNat 64 h.fqcons
  else if off = 0x0040 then h.pkgid
  else if 0x1000 ≤ off && off < 0x5000 then
    match (off - 0x1000) % 64 with
    | 0x00 => q.base
    | 0x08 => BitVec.ofNat 64 (q.en.toNat * 2 ^ 31 + q.stop.toNat * 2 ^ 30 + q.cls * 2 ^ 24 + q.lsz * 2 ^ 16 + q.ctx)
    | 0x10 => BitVec.ofNat 64 q.tail
    | 0x18 => BitVec.ofNat 64 ((q.seqbase + q.rd) % 2 ^ 32 * 2 ^ 32 + q.rd)
    | 0x20 => q.cq
    | _ => 0
  else if 0x8000 ≤ off && off < 0xC000 then
    if off % 16 = 0 then tget 0 ((off - 0x8000) / 16) h.ctxroot
    else if off % 16 = 8 then tget 0 ((off - 0x8000) / 16) h.hostroot else 0
  else if 0x10000 ≤ off && off < 0x90000 && off % 8 = 0 then tget 0 ((off - 0x10000) / 8) h.croute
  else 0

/-! ### CXL.mem (R371) -/

/-- A CXL.mem access: before READY it completes with an error (R387); after a trip nothing answers (R393). -/
def State.cxlMem (s : State) (addr : Nat) (k : Nat → State) : State :=
  let a := addr / 64 * 64
  if s.mg.tripped || addr ≥ hbmSize then s
  else if s.barOn then k a
  else { s with mg := { s.mg with hostRead := some (.error a) } }

/-- HOST_MEM_WRITE (R371, R387): one 64-byte line of HBM. -/
def evHostMemWrite (addr : Nat) (line : BitVec 512) (s : State) : State :=
  s.cxlMem addr fun a =>
    { s with
      hbm := Memory.write s.hbm a 64 line.toNat
      hub := { s.hub with
        badLines := s.hub.badLines.filter (· != a / 64), weakLines := s.hub.weakLines.filter (· != a / 64) }
      mg := { s.mg with hostRead := some (.written a) } }

/-- HOST_MEM_READ (R371, R387, R394): the line whole, as it stands, and whether it is poisoned. -/
def evHostMemRead (addr : Nat) (s : State) : State :=
  s.cxlMem addr fun a =>
    let s := s.touchLine (a / 64)
    let r := MemAns.line a (BitVec.ofNat 512 (Memory.read s.hbm a 64)) (s.hub.badLines.contains (a / 64))
    { s with mg := { s.mg with hostRead := some r } }

/-! ### Meanings -/

/-- SQTAIL_WRITE (R374). -/
def execSqtailWrite (queue : Nat) (val : W64) (s : State) : Host.Outcome State Fault Refusal :=
  .next (evSqtailWrite queue val s)
/-- ENTRY_ACCEPT (R374). -/
def execEntryAccept (s : State) : Host.Outcome State Fault Refusal := .next (evEntryAccept s)
/-- SQCTL_EN (R374). -/
def execSqctlEn (queue : Nat) (val : W64) (s : State) : Host.Outcome State Fault Refusal :=
  .next (evSqctlEn queue val s)
/-- SQCTL_RST (R374). -/
def execSqctlRst (queue : Nat) (s : State) : Host.Outcome State Fault Refusal := .next (evSqctlRst queue s)
/-- FQCONS (R372). -/
def execFqcons (val : W64) (s : State) : Host.Outcome State Fault Refusal := .next (evFqcons val s)
/-- HUB_REGISTER_WRITE (R372). -/
def execHubRegisterWrite (off : Nat) (val : W64) (s : State) : Host.Outcome State Fault Refusal :=
  .next (evHubRegisterWrite off val s)
/-- QUEUE_FENCE (R377). -/
def execQueueFence (e : SqEntry) (s : State) : Host.Outcome State Fault Refusal := .next (evQueueFence e s)
/-- SIGNAL (R377). -/
def execSignal (e : SqEntry) (s : State) : Host.Outcome State Fault Refusal := .next (evSignal e s)
/-- COMMAND_FINISH (R376). -/
def execCommandFinish (queue seq : Nat) (s : State) : Host.Outcome State Fault Refusal :=
  .next (evCommandFinish queue seq s)
/-- HOST_MEM_WRITE (R371). -/
def execHostMemWrite (addr : Nat) (line : BitVec 512) (s : State) : Host.Outcome State Fault Refusal :=
  .next (evHostMemWrite addr line s)
/-- HOST_MEM_READ (R371). -/
def execHostMemRead (addr : Nat) (s : State) : Host.Outcome State Fault Refusal := .next (evHostMemRead addr s)

end Sys2Proof.Machine
end

