-- ==== Sys2Proof/Machine/Gang.lean ====
section
/-! DEFINITION. Gangs: launches, the placer, the end of a launch, pre-emption and restore, kills, cancellations and rank
moves (R331, R334, R337, R350 to R356, R367, R377 to R380). -/

namespace Sys2Proof.Machine

/-! ### Memory as the hub reads and writes it -/

/-- The pieces of a range, each within one 64 KiB page: address and length. -/
def pagePieces : Nat → Nat → Nat → List (Nat × Nat)
  | 0, _, _ => []
  | f + 1, va, n => if n = 0 then [] else
    let k := min n (65536 - va % 65536)
    (va, k) :: pagePieces f (va + k) (n - k)

/-- The pieces of the `n` bytes from an address. -/
def piecesOf (va n : Nat) : List (Nat × Nat) := pagePieces (n / 65536 + 2) va n

/-- Whether every page of a range translates for an access (R364). -/
def State.rangeOk (s : State) (ctx : Nat) (host : Bool) (va n : Nat) (wr : Bool) : Bool :=
  (piecesOf va n).all fun p => (s.xlate ctx host p.1 (some wr)).isOk

/-- The bytes of pieces, little-endian; none where a page does not translate (R364). -/
def State.readPieces (s : State) (ctx : Nat) (host : Bool) : List (Nat × Nat) → Option Nat
  | [] => some 0
  | p :: l =>
    match s.xlate ctx host p.1 (some false), s.readPieces ctx host l with
    | .ok f, some x => some (Memory.read (if host then s.host else s.hbm) f.phys p.2 + 2 ^ (8 * p.2) * x)
    | _, _ => none

/-- The `n` bytes at an address of a context (R364, R377). -/
def State.readVa (s : State) (ctx : Nat) (host : Bool) (va n : Nat) : Option Nat := s.readPieces ctx host (piecesOf va n)

/-- What a write of a range comes to: written, a fault, or a copy on write to wait for (R368). -/
inductive VaWrite where
  | done (s : State)
  | bad
  | wait (s : State)

/-- Writes pieces at their pages, little-endian (R364, R368). -/
def State.writePieces (s : State) (ctx : Nat) (host : Bool) : List (Nat × Nat) → Nat → VaWrite
  | [], _ => .done s
  | p :: l, x =>
    match s.xlateW ctx host p.1 with
    | .bad _ => .bad
    | .stall s => .wait s
    | .at_ a s =>
      let s : State := if host then { s with host := Memory.write s.host a p.2 x }
        else { s with hbm := Memory.write s.hbm a p.2 x }
      s.writePieces ctx host l (x / 2 ^ (8 * p.2))

/-- Meets the copies on write that a write needs, before it (R368). -/
def State.readyPieces (s : State) (ctx : Nat) (host : Bool) : List (Nat × Nat) → VaWrite
  | [] => .done s
  | p :: l =>
    match s.xlateW ctx host p.1 with
    | .bad _ => .bad
    | .stall s => .wait s
    | .at_ _ s => s.readyPieces ctx host l

/-- Writes `n` bytes at an address of a context, all together (R368). -/
def State.writeVa (s : State) (ctx : Nat) (host : Bool) (va n x : Nat) : VaWrite :=
  match s.readyPieces ctx host (piecesOf va n) with
  | .done s => s.writePieces ctx host (piecesOf va n) x
  | r => r

/-! ### Launch descriptors (R378) -/

/-- Bits `k` to `k + n - 1` of the descriptor from byte `b`. -/
def dBits (d : BitVec 4736) (b k n : Nat) : Nat := fld d.toNat (8 * b + k) n
/-- The cores of a launch. -/
def dCores (d : BitVec 4736) : Nat := dBits d 0 0 11 + 1
/-- SHAPE of a launch. -/
def dShape (d : BitVec 4736) : Nat := dBits d 0 12 2
/-- The pool code of a launch. -/
def dPool (d : BitVec 4736) : Nat := dBits d 0 16 4
/-- PSIZE of a pool code (R262). -/
def poolBytes (c : Nat) : Nat := if c = 0 then 0x40000 else if c ≤ 8 then c * 0x10000 else 0
/-- The mask of the slots started. -/
def dMask (d : BitVec 4736) : Nat := dBits d 360 0 14
/-- Whether a launch starts a slot. -/
def dStarts (d : BitVec 4736) (i : Nat) : Bool := i < 14 && fld (dMask d) i 1 = 1
/-- The entry offset of a slot. -/
def dEntry (d : BitVec 4736) (i : Nat) : Nat := dBits d (368 + 16 * i) 0 64
/-- The start word of a slot. -/
def dStart (d : BitVec 4736) (i : Nat) : Nat := dBits d (376 + 16 * i) 0 64
/-- The local address and length of the code. -/
def dCode (d : BitVec 4736) : Nat × Nat := (dBits d 16 0 20, dBits d 16 32 20)
/-- sg0's BASE and the length of the local data. -/
def dData (d : BitVec 4736) : Nat × Nat := (dBits d 32 0 20, dBits d 32 32 20)
/-- sg0's LIMIT. -/
def dLimit (d : BitVec 4736) : Nat := dBits d 40 0 20

/-- Whether a launch descriptor is malformed (R378): a pool code of 9 to 14, SHAPE 3, code that is not aligned, a range beyond the
local store (log entry 78), or the code, sg0 or a started entry in the pool, or a started entry outside the code. -/
def launchBad (d : BitVec 4736) : Bool :=
  let pool := 0x100000 - poolBytes (dPool d)
  let c := dCode d
  let g := dData d
  (9 ≤ dPool d && dPool d ≤ 14) || dShape d = 3 || c.1 % 128 != 0
    || c.1 + c.2 > pool || g.1 + dLimit d + 1 > pool || g.1 + g.2 > 0x100000
    || (steps 0 1 14).any fun i => dStarts d i && (dEntry d i ≥ c.2 || c.1 + dEntry d i ≥ pool)

/-- Whether no placement can ever meet a launch's constraints (R355, R378). -/
def launchTooBig (d : BitVec 4736) : Bool := (dShape d = 1 && dCores d > 256) || (dShape d = 2 && dCores d > 16)

/-- The gang of a number. -/
def State.gang? (s : State) (g : Nat) : Option Gang := (s.hub.gangs.find? fun e => e.1 = g).map (·.2)
/-- Sets a gang. -/
def State.setGang (s : State) (g : Nat) (x : Gang) : State := { s with hub := { s.hub with gangs := tput g x s.hub.gangs } }

/-- LAUNCH (R377, R378): the descriptor is read and checked, and the gang waits for the placer. -/
def evLaunch (e : SqEntry) (s : State) : State :=
  s.beginCmd e fun s ctx =>
    if (s.ctxTable ctx).isNone then s.failCmd e 2
    else
      match s.readVa ctx false (sqWord e 1) 592 with
      | none => s.failCmd e 4
      | some x =>
        let d : BitVec 4736 := BitVec.ofNat 4736 x
        if sqWord e 1 % 64 != 0 || launchBad d then s.failCmd e 1
        else if launchTooBig d then s.failCmd e 3
        else if !s.rangeOk ctx false (dBits d 8 0 64) (dCode d).2 false
            || !s.rangeOk ctx false (dBits d 24 0 64) (dData d).2 false then s.failCmd e 4
        else
          let since := ((s.workOf e.queue e.seq).map (·.since)).getD s.now
          let g : Gang :=
            { ctx := ctx, queue := e.queue, seq := e.seq, cls := (s.sq e.queue).cls, st := .accepted, desc := d
              size := dCores d, ranks := [], psize := poolBytes (dPool d)
              caddy := Vector.ofFn fun k => ⟨dBits d (296 + 8 * k) 0 32, dBits d (296 + 8 * k) 32 16, 0⟩
              since := since, waiter := false, base := 0, done := [], askers := [], kept := [], reserved := [] }
          let s := s.setGang s.hub.gangNext g
          { s with hub := { s.hub with gangNext := s.hub.gangNext + 1 } }

/-! ### The placer (R353, R355, R356) -/

/-- The core in a position: a spare, or its own (R353). -/
def State.coreAt (s : State) (p : Nat) : Nat := tget p p s.hub.spares

/-- Whether a die is isolated (R359). -/
def State.isolated (s : State) (d : Nat) : Bool := (s.link d).isolated

/-- The positions that a launch may be given (R355, R356, R359). -/
def State.freeFor (s : State) (g : Nat) : List Nat :=
  let taken := s.hub.gangs.flatMap fun e => if e.1 = g then [] else e.2.reserved
  (List.range 2048).filter fun p =>
    (s.core (s.coreAt p)).gang.isNone && !s.isolated (p / 256) && !taken.contains p

/-- Inserts by a key. -/
def insertBy (key : Nat → Nat) (x : Nat) : List Nat → List Nat
  | [] => [x]
  | y :: l => if key x < key y then x :: y :: l else y :: insertBy key x l

/-- Sorts by a key. -/
def sortBy (key : Nat → Nat) (l : List Nat) : List Nat := l.foldl (fun r x => insertBy key x r) []

/-- The order of positions that ranks follow: die, cluster, Y, X (R355). -/
def posOrder (p : Nat) : Nat := p / 256 * 256 + (p / 64 % 4 * 4 + p / 4 % 4) * 16 + p / 16 % 4 * 4 + p % 4

/-- The group of positions that a launch's SHAPE keeps it within: the package, a die, or a cluster (R378). -/
def shapeGroup (shape p : Nat) : Nat := if shape = 1 then p / 256 else if shape = 2 then posOrder p / 16 else 0

/-- The positions that a launch is given, in rank order; none where it cannot be placed. Which ones is a free choice
(R355, log entry 6). -/
def State.choose (s : State) (g : Nat) (x : Gang) : Option (List Nat) :=
  let free := s.freeFor g
  let grp := shapeGroup (dShape x.desc)
  let fits := (free.map grp).eraseDups.filter fun k => (free.filter fun p => grp p = k).length ≥ x.size
  match fits[Config.place g 2048 % fits.length]? with
  | none => none
  | some k => some (sortBy posOrder ((sortBy (Config.place g) (free.filter fun p => grp p = k)).take x.size))

/-- Whether a command belongs to a gang that waits for the placer: its LAUNCH, or the RESUME of a saved one. -/
def Gang.waits (x : Gang) (w : Work) : Bool :=
  (x.st = .accepted && w.e.queue = x.queue && w.e.seq = x.seq)
    || (x.st = .waiting && sqOpc w.e = 0x0A && w.begun && sqWord w.e 1 % 2 ^ 40 = x.queue * 2 ^ 32 + x.seq)

/-- The gangs that wait for the placer, by class and then in order of acceptance (R356). -/
def State.placeOrder (s : State) : List (Nat × Gang) :=
  [0, 1, 2, 3].flatMap fun k =>
    s.hub.work.filterMap fun w => s.hub.gangs.find? fun e => e.2.cls = k && e.2.waits w

/-- Whether an aged waiter bars a launch (R356). -/
def State.barred (s : State) (g : Nat) (x : Gang) : Bool :=
  s.hub.gangs.any fun e =>
    e.1 != g && e.2.waiter && e.2.cls ≤ x.cls && s.now - e.2.since ≥ s.usCycles s.hub.agemax.toNat

/-- Whether a launch is the first of its class (R356). -/
def State.heads (s : State) (g : Nat) (x : Gang) : Bool :=
  match s.placeOrder.find? fun e => e.2.cls = x.cls with
  | some e => e.1 = g
  | none => false

/-- The gang that the placer serves next: one it places, or a head that becomes its class's waiter (R356). -/
def State.placeDue (s : State) : Option Nat :=
  (s.placeOrder.find? fun e =>
    if (s.choose e.1 e.2).isSome then !s.barred e.1 e.2
    else s.heads e.1 e.2 && !e.2.waiter && !s.hub.gangs.any fun f => f.2.waiter && f.2.cls = e.2.cls).map (·.1)

/-- The segment registers that a launch writes, reserved bits as 0 (R5, R378). -/
def launchSeg (d : BitVec 4736) (k : Nat) : W128 :=
  if k = 0 then
    BitVec.ofNat 128 (dLimit d * 2 ^ 80 + (dData d).1 * 2 ^ 32 + 1 * 2 ^ 10 + dBits d 40 32 1 * 8 + 3)
  else if k = 7 then
    BitVec.ofNat 128 (((dCode d).2 - 1) * 2 ^ 80 + (dCode d).1 * 2 ^ 32 + 1 * 2 ^ 10 + 5)
  else BitVec.ofNat 128 (dBits d (48 + 16 * (k - 1)) 0 128) &&& sgMask

/-- GEOM of a rank, reserved bits as 0 (R5, R142, R378). -/
def launchGeom (d : BitVec 4736) (rank : Nat) : W64 :=
  let t := dBits d 144 0 64
  let n := fld t 24 12
  BitVec.ofNat 64 (if n = 0 then t else t - t % 2 ^ 24 + rank / n % 4096 * 2 ^ 12 + rank % n) &&& geomMask

/-- The tables of a core of a gang (R352, R378), and the pre-emption state of a core without one. -/
def Core.enrol (x : Core) (g : Nat) (y : Gang) (rank : Nat) : Core :=
  { x with
    gang := some g, rank := rank, gsize := y.size, psize := y.psize, busy := true, preempt := false
    stage := Vector.ofFn fun k => BitVec.ofNat 64 (dBits y.desc (152 + 8 * k) 0 64)
    pin := Vector.ofFn fun k => BitVec.ofNat 8 (dBits y.desc (216 + k) 0 8)
    hand := Vector.ofFn fun k => BitVec.ofNat 32 (dBits y.desc (232 + 4 * k) 0 32) }

/-- What a launch writes on a core (R378): its local store, tables, segments, GEOM, the default table and counters, and
the slots it starts. -/
def Core.launch (x : Core) (g : Nat) (y : Gang) (rank code data : Nat) : Core :=
  let d := y.desc
  let m := Memory.write (Memory.write [] (dCode d).1 (dCode d).2 code) (dData d).1 (dData d).2 data
  let x := x.enrol g y rank
  { x with
    mem := m, fe := [], err1 := [], err2 := [], ev := Vector.replicate 16 0
    ist := istDefault, istNext := none, istBar := false, banked := false, restart := none
    slots := x.slots.mapIdx fun i t =>
      if i = 15 then t
      else
        let t := { t with sg := Vector.ofFn fun k => launchSeg d k, geom := launchGeom d rank }
        if dStarts d i then t.start (BitVec.ofNat 64 (dEntry d i)) (BitVec.ofNat 64 (dStart d i)) false else t }

/-- The rank table of a placement (R352, R355). -/
def State.rankTable (s : State) (ps : List Nat) : List RankEnt := ps.map fun p => ⟨s.coreAt p, p, false⟩

/-- A LAUNCH is placed (R355, R378, R379): every table is written before any slot starts. -/
def State.placeLaunch (s : State) (g : Nat) (x : Gang) (ps : List Nat) : State :=
  let d := x.desc
  match s.readVa x.ctx false (dBits d 8 0 64) (dCode d).2, s.readVa x.ctx false (dBits d 24 0 64) (dData d).2 with
  | some code, some data =>
    let rs := s.rankTable ps
    let y : Gang := { x with st := .running, ranks := rs, waiter := false, reserved := [] }
    let s := (s.setGang g y).journal x.queue x.seq 2 0
    let s := rs.zipIdx.foldl (fun s e => s.modCore e.1.core fun c => c.launch g y e.2 code data) s
    s.journal x.queue x.seq 3 0
  | _, _ =>
    let s : State := { s with hub := { s.hub with gangs := tdel g s.hub.gangs } }
    s.finishCmd x.queue x.seq 5 4

/-- A core that slot 15 is to restore: its slots 0 to 14 are STOPPED, to be resumed or set IDLE (R336, R342; log entry 128). -/
def Core.toRestore (x : Core) (g : Nat) (y : Gang) (rank : Nat) : Core :=
  { x.enrol g y rank with
    preempt := true, slots := x.slots.mapIdx fun i t => if i = 15 then t else { t with st := .stopped } }

/-- A saved gang is placed again (R334, R336): slot 15 of each core is to restore it. -/
def State.placeResume (s : State) (g : Nat) (x : Gang) (ps : List Nat) : State :=
  let rs := s.rankTable ps
  let y : Gang := { x with st := .restoring, ranks := rs, waiter := false, reserved := [], done := [], askers := [] }
  rs.zipIdx.foldl (fun s e =>
    let s := s.stoke e.1.core
    (s.modCore e.1.core fun c => c.toRestore g y e.2).callSystem e.1.core) (s.setGang g y)

/-- GANG_PLACE (R355, R356). -/
def evGangPlace (gang : Nat) (s : State) : State :=
  if s.placeDue != some gang then s
  else
    match s.gang? gang with
    | none => s
    | some x =>
      match s.choose gang x with
      | none => s.setGang gang { x with waiter := true }
      | some ps => if x.st = .waiting then s.placeResume gang x ps else s.placeLaunch gang x ps

/-! ### The end of a gang -/

/-- The reply to a block: s[d] is its status (R344). -/
def State.hubReply (s : State) (c i st : Nat) : State :=
  match (s.slot c i).held with
  | .hubcmd d _ => (s.modSlot c i fun t => t.ws d (BitVec.ofNat 64 st)).wake c i
  | _ => s

/-- The core that an event is for; none for the steps of a core itself that outlive its gang. -/
def forCore (e : Event) : Option Nat :=
  match e with
  | .divideStart c | .divideComplete c | .builtinRequestPerform c | .handlerStart c | .accumulatorClear c
  | .mmaStepStart c | .mmaStepRetire c | .matrixOpComplete c | .sequencerIssue c | .sequenceEnd c | .scanTileRow c
  | .scnfixRow c | .flueDeferredSend c | .flueOperationComplete c | .scanImageStripWrite c | .preemptArrive c => some c
  | .haltDrainComplete c _ | .fenceComplete c _ | .taskendComplete c _ | .unitWaitEnd c _ | .ringWaitEnd c _
  | .stripReady c _ | .copyQueuePlaceFree c _ | .sleepTimeout c _ | .dqpopPass c _ | .cancellComplete c _
  | .copyCommandStart c _ | .copyCommandComplete c _ | .copyRingPushDeferred c _ | .streamRefill c _
  | .streamDrain c _ | .mailboxHeldEntry c _ | .uliDeliver c _ => some c
  | .publishedBundleArrive c _ _ | .joinRequestArrive c _ _ | .subscrRefusalArrive c _ | .rdvReportArrive c _ _
  | .rdvCompletionArrive c _ _ _ | .membershipNoticeArrive c _ _ _ | .publishEndArrive c _ _
  | .remoteRequestArrive c _ | .remoteReply c _ | .feWithdrawalArrive c _ _ | .stealRequestArrive c _
  | .stealAnswerArrive c _ _ _ | .joinCounterUpdate c _ _ | .cancelArrive c _ _ | .flueMessageArrive c _
  | .mcastTargetComplete c _ _ | .buffreeCredit c _ _ | .portStripArrive c _ _ _ _ _ _ | .messageArrive c _ _
  | .caddyQuery c _ _ _ | .caddyAnswer c _ _ _ => some c
  | .pushArrive p => some (if p.toQueue then p.src else p.dest)
  | .pushAckArrive p | .pushRefusalArrive p => some p.src
  | .dieQueueRequest _ q => some q.src
  | _ => none

/-- The events, held messages, registrations and faults of cores are gone. -/
def State.forget (s : State) (cs : List Nat) : State :=
  let ours := fun (e : Event) => (forCore e).any cs.contains
  { s with
    agenda := s.agenda.filter fun e => !ours e.2
    hub := { s.hub with
      held := s.hub.held.filter fun e => !ours e.2.2
      wires := s.hub.wires.filter fun e => !ours e.2
      bufs := s.hub.bufs.filter fun b => !cs.contains b.core
      faults := s.hub.faults.filter fun f => !cs.contains f.info.pcore
      catoms := s.hub.catoms.filter fun a => !cs.contains a.core
      xfers := s.hub.xfers.map fun x => if x.notice && cs.contains x.core then { x with orphan := true } else x } }

/-- A slot that is IDLE, with nothing left of what it did. -/
def Slot.emptied (t : Slot) : Slot :=
  { t with
    st := .idle, held := .none, stop := none, mst := .none, trapov := false, pub := false, ending := false
    asked := 0, due := [], members := [], rdv := none, late := [], relaxed := [], caddy := 0, mail := [], mailHeld := []
    credits := 0, imv := false, bar := none, timerInt := false }

/-- A copy command of a gang that is gone (R337): it only performs the writes it has begun. -/
def Cmd.rest (k : Cmd) : Option Cmd :=
  match k.todo with
  | some (w :: l) =>
    if k.fid.isSome then none
    else some { k with todo := some (w :: l), left := [], pushes := false, rv := false, nomsg := true, detached := true }
  | _ => none

/-- A core without a gang: slots 0 to 14 IDLE, every unit released and nothing queued but the writes that its copy engine
has begun (R337, R379). -/
def Core.emptied (x : Core) : Core :=
  let y := slotNums.foldl (fun x i => if i = 15 then x else x.release i) x
  { y with
    slots := y.slots.mapIdx fun i t => if i = 15 then t else t.emptied
    mx := { y.mx with run := none, queue := [] }
    div := [], divEnd := none, scan := if y.scan.owner.isNone then Scan.reset else y.scan
    cq := y.cq.map fun l => l.filterMap Cmd.rest
    port := y.port.map fun p => { p with fifo := [], waits := [] }
    dq := Vector.replicate 4 [], owed := [], feWait := [], snaps := [], netq := [], amq := [], pushWait := []
    trapq := y.trapq.filter fun r => r.slot = 15, gang := none, preempt := false }

/-- The die-queue records of a gang, with their dies. -/
def State.dieRecords (s : State) (g : Nat) : List (Nat × TaskRec) :=
  s.dieq.toList.zipIdx.flatMap fun e => (e.1.toList.flatten.filter fun r => r.gang = g).map fun r => (e.2, r)

/-- Drops the die-queue records of a gang. -/
def State.dropRecords (s : State) (g : Nat) : State :=
  { s with dieq := s.dieq.map fun d => d.map fun l => l.filter fun r => r.gang != g }

/-- A freed position is kept for the waiter of the highest class (R356). -/
def State.reserve (s : State) (p : Nat) : State :=
  if s.isolated (p / 256) then s
  else
    match s.placeOrder.find? fun e => e.2.waiter with
    | some e => s.setGang e.1 { e.2 with reserved := e.2.reserved ++ [p] }
    | none => s

/-- The hub's answers to what supervisor slots of a gang that is gone still await: no gang to a RESTORED, INDETERMINATE to a CATOM
(R344, R380). -/
def State.dismiss (s : State) (x : Gang) : State :=
  let cs := x.ranks.map (·.core)
  let s := (s.hub.catoms.filter fun a => cs.contains a.core).foldl (fun s a => s.hubReply a.core a.slot 5) s
  x.askers.foldl (fun s e => s.hubReply e.1 e.2 3) s

/-- The cores of a gang are freed; the gang is left without ranks (R356, R379). -/
def State.freeCores (s : State) (g : Nat) (x : Gang) : State :=
  let cs := x.ranks.map (·.core)
  let s := (s.dismiss x).forget cs
  let s : State := { s with hub := { s.hub with junction := s.hub.junction.filter fun m => m.gang != g } }
  let s := cs.foldl (fun s c => s.modCore c Core.emptied) s
  let s := (s.dropRecords g).setGang g { x with ranks := [], askers := [] }
  (x.ranks.map (·.pos)).foldl State.reserve s

/-- Whether an event is a built-in request or the reply to one (R379). -/
def isBuiltin (e : Event) : Bool :=
  match e with
  | .remoteRequestArrive _ (.builtin _) => true
  | .remoteReply _ _ => true
  | .joinCounterUpdate _ _ _ => true
  | _ => false

/-- Whether slots 0 to 14 of a core are IDLE and its engines have nothing left to write (R379). -/
def Core.finished (x : Core) : Bool :=
  (steps 0 1 15).all (fun i => (x.slot i).st = .idle && (x.slot i).relaxed.isEmpty && (x.slot i).caddy = 0)
    && x.cq.toList.all (·.isEmpty) && x.su.toList.all (fun u => !u.write || u.staged.isEmpty)
    && x.netq.isEmpty && x.owed.isEmpty && x.feWait.all fun w => w.remote.isNone

/-- Whether a launch is DONE now (R379). -/
def State.gangFinished (s : State) (x : Gang) : Bool :=
  let cs := x.ranks.map (·.core)
  let ours := fun (e : Event) => isBuiltin e && (forCore e).any cs.contains
  cs.all (fun c => (s.core c).finished) && !(s.agenda.any fun e => ours e.2) && !(s.hub.held.any fun e => ours e.2.2)
    && !(s.hub.wires.any fun e => ours e.2)

/-- Whether nothing of an ended gang is left to write (R337, R379). -/
def State.gangDrained (s : State) (x : Gang) : Bool :=
  let cs := x.ranks.map (·.core)
  cs.all (fun c => (s.core c).cq.toList.all (·.isEmpty)) && !(s.hub.xfers.any fun t => t.notice && !t.orphan && cs.contains t.core)

/-- Whether LAUNCH_DONE has something to do for a gang. -/
def State.doneDue (s : State) (x : Gang) : Bool :=
  match x.st with
  | .running => s.gangFinished x
  | .ended => s.gangDrained x
  | _ => false

/-- The cancellations of a gang that has ended are over (R237). -/
def State.endCancels (s : State) (g : Nat) : State :=
  (s.hub.cancels.filter fun q => q.gang = g).foldl (fun s q =>
    let s := s.cancelEnd q
    match q.queue with
    | some k => s.finishCmd k.1 k.2 4 q.purged
    | none => s) s

/-- LAUNCH_DONE (R379): what the deques still hold is discarded and counted, and the cores are freed; a cancellation of the gang
has nothing left to stop. A failed gang's cores are freed once its writes are over. -/
def evLaunchDone (gang : Nat) (s : State) : State :=
  match s.gang? gang with
  | none => s
  | some x =>
    if !s.doneDue x then s
    else
      let n := (x.ranks.map fun e => bandsLen (s.core e.core).dq).sum + (s.dieRecords gang).length
      let fin := x.st = .running
      let s := (s.endCancels gang).freeCores gang x
      let s : State := { s with hub := { s.hub with gangs := tdel gang s.hub.gangs } }
      if fin then s.finishCmd x.queue x.seq 4 n else s

/-- Every slot of a gang stops for good, and what its engines have not begun is discarded (R337, R379). -/
def State.stopGang (s : State) (g : Nat) (x : Gang) : State :=
  let cs := x.ranks.map (·.core)
  let s := cs.foldl (fun s c => s.modCore c fun y => { y.emptied with gang := some g }) ((s.dismiss x).forget cs)
  (s.dropRecords g).setGang g { x with st := .ended, reserved := [], waiter := false, askers := [] }

/-- The commands that wait for a gang to be saved or restored. -/
def State.gangCmds (s : State) (opc : Nat) (x : Gang) : List Work :=
  s.hub.work.filter fun w => sqOpc w.e = opc && w.begun && sqWord w.e 1 % 2 ^ 40 = x.queue * 2 ^ 32 + x.seq

/-- A gang fails (R359, R379): its slots stop and its launch is FAILED with reason 5. -/
def State.failGang (s : State) (g : Nat) : State :=
  match s.gang? g with
  | none => s
  | some x =>
    if x.st = .ended then s
    else
      let s := (s.endCancels g).stopGang g x
      let s := s.finishCmd x.queue x.seq 5 5
      (s.gangCmds 9 x ++ s.gangCmds 0x0A x).foldl (fun s w => s.failCmd w.e 5) s

/-! ### Commands that name a gang (R377) -/

/-- The gang that dword 1 of a command names, with its number. -/
def State.namedGang (s : State) (e : SqEntry) : Option (Nat × Gang) :=
  s.hub.gangs.find? fun x => x.2.queue = fld (sqWord e 1) 32 8 && x.2.seq = fld (sqWord e 1) 0 32 && x.2.st != .ended

/-- The cancellation that a CANCEL command runs. -/
def State.cancelOf (s : State) (e : SqEntry) : Option CancelRun := s.hub.cancels.find? fun q => q.queue = some (e.queue, e.seq)

/-- CANCEL (R237, R377): begun, then carried on until every slot of the lineage has stopped. -/
def evCancel (e : SqEntry) (s : State) : State :=
  match s.cancelOf e with
  | some q0 =>
    if s.now < q0.since then s
    else
      let s := s.cancelSweep q0
      match s.cancelOf e with
      | some q => if s.cancelOver q then (s.cancelEnd q).doneCmd e q.purged else s
      | none => s
  | none =>
    s.beginCmd e fun s _ =>
      match s.namedGang e with
      | some (g, x) =>
        if x.st != .running then s.failCmd e 1
        else if sqWord e 2 % 65536 = 0 then s.doneCmd e 0
        else s.cancelStart g (sqWord e 2 % 65536) 0 0 (some (e.queue, e.seq))
      | none => s.failCmd e 1

/-- KILL (R337): every slot of the context stops, its unstarted and held commands are discarded, and its other commands
fail. -/
def evKill (e : SqEntry) (s : State) : State :=
  s.beginCmd e fun s _ =>
    let ctx := fld (sqWord e 1) 0 10
    let s : State := { s with hub := { s.hub with
      kills := s.hub.kills ++ [ctx]
      cancels := s.hub.cancels.filter fun q => s.ctxGang q.gang != ctx } }
    let l := s.hub.work.filter fun w => w.ctx = ctx && !(sqOpc w.e = 5 && w.begun)
    let s := l.foldl (fun s w => s.failCmd w.e 6) s
    (s.hub.gangs.filter fun g => g.2.ctx = ctx).foldl (fun s g =>
      if g.2.ranks.isEmpty then { s with hub := { s.hub with gangs := tdel g.1 s.hub.gangs } } else s.stopGang g.1 g.2) s

/-- Whether every engine that served a killed context has retired its writes (R337). -/
def State.killOver (s : State) (ctx : Nat) : Bool :=
  s.hub.kills.contains ctx && (s.hub.gangs.all fun g => g.2.ctx != ctx || s.gangDrained g.2)
    && !(s.hub.xfers.any fun t => t.ctx = ctx && !t.far) && !(s.hub.cows.any fun w => w.ctx = ctx)

/-- KILL_DRAINED (R337, R369): the KILL is journaled KILL-DRAINED, and then the context's cores and frames are free. -/
def evKillDrained (ctx : Nat) (s : State) : State :=
  if !s.killOver ctx then s
  else
    let l := s.hub.work.filter fun w => sqOpc w.e = 5 && w.begun && fld (sqWord w.e 1) 0 10 = ctx
    let s := l.foldl (fun s w => s.finishCmd w.e.queue w.e.seq 6 0) s
    let s := (s.hub.gangs.filter fun g => g.2.ctx = ctx).foldl (fun s g =>
      let s := s.freeCores g.1 g.2
      { s with hub := { s.hub with gangs := tdel g.1 s.hub.gangs } }) s
    let s := s.releaseCtx ctx
    { s with hub := { s.hub with kills := s.hub.kills.filter fun k => k != ctx } }

/-- PREEMPT (R334): the hub sends PREEMPT to every core of a running gang. -/
def evPreempt (e : SqEntry) (s : State) : State :=
  s.beginCmd e fun s _ =>
    match s.namedGang e with
    | some (g, x) =>
      if x.st != .running then s.failCmd e 1
      else
        let n := s.nonce
        let s : State := { s with nonce := n + 1 }
        let s := s.setGang g { x with st := .saving, done := [], base := Config.saveBase n % 2 ^ 32 * 65536 }
        x.ranks.foldl (fun s r => s.afterIn 1 (s.hubWay r.core) (fun _ => false) (.preemptArrive r.core)) s
    | none => s.failCmd e 1

/-- Whether a core's slot 15 has resumed its slots: it waits in WAITMSG again (R328, R336; log entry 128). -/
def Core.resumed (x : Core) : Bool :=
  match (x.slot 15).held with
  | .waitmsg _ => true
  | _ => false

/-- Whether a RESUME is over: every core of its gang is restored and resumed, or the gang has ended (R377). -/
def State.resumeOver (s : State) (w : Work) : Bool :=
  sqOpc w.e = 0x0A && w.begun && w.state < 4 && (match s.namedGang w.e with
    | some (_, x) => x.st = .running && x.ranks.all fun r => (s.core r.core).resumed
    | none => true)

/-- RESUME (R334, R336, R377): a saved gang waits for the placer; the command is done when every core is restored and resumed. -/
def evResume (e : SqEntry) (s : State) : State :=
  match s.hub.work.find? fun w => w.e.queue = e.queue && w.e.seq = e.seq && s.resumeOver w with
  | some _ => s.doneCmd e 0
  | none =>
    s.beginCmd e fun s _ =>
      match s.namedGang e with
      | some (g, x) =>
        if x.st != .saved then s.failCmd e 1
        else
          let since := ((s.workOf e.queue e.seq).map (·.since)).getD s.now
          s.setGang g { x with st := .waiting, waiter := false, since := since }
      | none => s.failCmd e 1

/-! ### Blocks of HUBCMD (R344, R380) -/

/-- A dword of a block. -/
def blkWord (b : BitVec 512) (k : Nat) : Nat := fld b.toNat (64 * k) 64

/-- A block of a core reaches the HCP: its gang, or status 3 where it has none (R380). -/
def State.ofBlock (s : State) (c i : Nat) (ev : Event) (k : State → Nat → Gang → State) : State :=
  s.arrive c ev fun s =>
    match (s.core c).gang with
    | none => s.hubReply c i 3
    | some g =>
      match s.gang? g with
      | none => s.hubReply c i 3
      | some x => k s g x

/-- SAVED (R334, R344), and the codes that no row names: a core is saved; after the last the gang is. -/
def evSaved (core slot : Nat) (blk : BitVec 512) (s : State) : State :=
  if fld (blkWord blk 0) 0 8 != 0x10 then s.arrive core (.saved core slot blk) fun s => s.hubReply core slot 1
  else
    s.ofBlock core slot (.saved core slot blk) fun s g x =>
      if x.st != .saving || blkWord blk 1 != (s.core core).rank then s.hubReply core slot 2
      else
        let s := s.hubReply core slot 0
        let y : Gang := { x with done := insertNat (s.core core).rank x.done }
        if y.done.length < x.size then s.setGang g y
        else
          let s := s.freeCores g { y with kept := s.dieRecords g }
          let s := s.setGang g { y with kept := (s.gang? g |>.map (·.kept)).getD [], st := .saved, ranks := [] }
          (s.gangCmds 9 x).foldl (fun s w => s.doneCmd w.e x.base) s

/-- The die-queue records that a gang header kept return to the die queues: to their die where the gang has a core there,
else to that of rank 0 (R335). -/
def State.requeue (s : State) (g : Nat) (x : Gang) : State :=
  let home := ((x.ranks.head?).map (·.pos / 256)).getD 0
  let s := x.kept.foldl (fun s (e : Nat × TaskRec) =>
    let d := if x.ranks.any fun r => r.pos / 256 = e.1 then e.1 else home
    { s with dieq := vset s.dieq d (bandsPush (s.dieQueue d) e.2) }) s
  s.setGang g { x with kept := [] }

/-- An AWAY member stands again in the table of its publisher after a restore; its membership has ended where its channel has
(R217, R336). -/
def State.relist (s : State) (c i : Nat) : State :=
  let t := s.slot c i
  if t.mst != .away then s
  else
    let p := s.ofTid c t.chan.toNat
    if (s.slot p.1 p.2).pub then
      let k := s.skewOf p.1 c
      (s.modSlot c i fun t => { t with skew := k }).modSlot p.1 p.2 fun u =>
        { u with members := u.members ++ [⟨s.tid c i, k, .away⟩] }
    else s.modSlot c i fun t => { t with mst := .none, chan := 0, trapov := false }

/-- RESTORED (R336, R344): a core is restored; once all are, the gang runs on, and the slots that sent it are answered. -/
def evRestored (core slot : Nat) (blk : BitVec 512) (s : State) : State :=
  s.ofBlock core slot (.restored core slot blk) fun s g x =>
    if x.st != .restoring || blkWord blk 1 != (s.core core).rank then s.hubReply core slot 2
    else
      let y : Gang := { x with done := insertNat (s.core core).rank x.done, askers := x.askers ++ [(core, slot)] }
      if y.done.length < x.size then s.setGang g y
      else
        let s := s.requeue g { y with st := .running, done := [], askers := [] }
        let s := x.ranks.foldl (fun s r => (steps 0 1 14).foldl (fun s i => s.relist r.core i) s) s
        let s := x.ranks.foldl (fun s r => s.modCore r.core fun z => { z with preempt := false }) s
        y.askers.foldl (fun s e => s.hubReply e.1 e.2 0) s

/-- GANGFAIL (R380): the launch fails with reason 5. -/
def evGangfail (core slot : Nat) (blk : BitVec 512) (s : State) : State :=
  s.ofBlock core slot (.gangfail core slot blk) fun s g _ => (s.hubReply core slot 0).failGang g

/-- CADDY (R380): a counter is set, with NEXT 0. -/
def evCaddy (core slot : Nat) (blk : BitVec 512) (s : State) : State :=
  s.ofBlock core slot (.caddy core slot blk) fun s g x =>
    let k := blkWord blk 1
    let w := blkWord blk 2
    if k > 7 || fld w 48 16 != 0 then s.hubReply core slot 2
    else (s.setGang g { x with caddy := vset x.caddy k ⟨fld w 0 32, fld w 32 16, 0⟩ }).hubReply core slot 0

/-! ### PGFORK (R367) -/

/-- The PGFORK of an entry that has passed its check and is not finished. -/
def State.forking (s : State) (e : SqEntry) : Option Work :=
  match s.workOf e.queue e.seq with
  | some w => if w.begun && w.state < 4 then some w else none
  | none => none

/-- The fork goes on with its next page, in a later cycle, or is done (R367). -/
def State.forkNext (s : State) (e : SqEntry) (page : Nat) : State :=
  if page ≥ fld (sqWord e 3) 0 32 then s.doneCmd e 0
  else
    let s : State := { s with hub := { s.hub with work := s.hub.work.map fun w =>
      if w.e.queue = e.queue && w.e.seq = e.seq then { w with page := page } else w } }
    s.after 1 (.pgfork e)

/-- PGFORK (R367, R377): the check of the whole, and then one step for each page. -/
def evPgfork (e : SqEntry) (s : State) : State :=
  let w := sqWord e 3
  match s.forking e with
  | some k =>
    (s.forkPage k.ctx (sqWord e 1 + 65536 * k.page) (sqWord e 2 + 65536 * k.page) (fld w 32 16)).forkNext e (k.page + 1)
  | none =>
    s.beginCmd e fun s ctx =>
      if (s.ctxTable ctx).isNone then s.failCmd e 2
      else if fld w 48 16 != 0 then s.failCmd e 1
      else if sqWord e 1 % 65536 != 0 || sqWord e 2 % 65536 != 0 then s.failCmd e 8
      else
        match s.forkCheck ctx (sqWord e 1) (sqWord e 2) [] [] (fld w 0 32) with
        | 0 => s.forkNext e 0
        | r => s.failCmd e r

/-! ### CANCEL-FAULTS (R331) -/

/-- The pending faults that a CANCEL-FAULTS names (R331, R377). -/
def State.namedFaults (s : State) (e : SqEntry) (ctx : Nat) : List Pending :=
  let w := sqWord e 1
  let ids := (steps 0 1 (fld w 8 4)).map fun k => fld e.data.toNat (128 + 16 * k) 16
  s.hub.faults.filter fun f => f.info.ctx = ctx && (fld w 0 1 = 1 || ids.contains f.info.fid)

/-- A held request and the rest of its command are discarded; its issuer stops (R331). -/
def State.dropFault (s : State) (f : Pending) : State :=
  let c := f.info.pcore
  let s := s.stoke c
  let s : State := { s with hub := { s.hub with faults := s.hub.faults.filter fun g => g.info.fid != f.info.fid } }
  let s := s.modCore c fun x =>
    { x with
      busy := true
      cq := x.cq.map fun l => l.map fun k =>
        if k.fid = some f.info.fid then
          { k with fid := none, status := 1, got := [], unread := none, todo := some [], left := [], due := s.now }
        else k
      su := x.su.map fun u =>
        if u.fid = some f.info.fid then
          if u.write then { u with fid := none, staged := u.staged.tail, moved := u.moved + 1, flight := false }
          else { u with fid := none, failed := some f.info.fid, flight := false, ticket := none }
        else u }
  let h := s.ofTid c f.info.tid
  (s.stoke h.1).requestStop h.1 h.2 ⟨cPAGEFATAL, BitVec.ofNat 32 f.info.fid, false, false, false⟩

/-- CANCEL_FAULTS (R331, R377): the named faults are cancelled, and the others of their gangs translate again. -/
def evCancelFaults (e : SqEntry) (s : State) : State :=
  s.beginCmd e fun s ctx =>
    let l := s.namedFaults e ctx
    let gs := l.filterMap fun f => (s.core f.info.pcore).gang
    let s := l.foldl State.dropFault s
    let s := (s.hub.faults.filter fun f => (s.core f.info.pcore).gang.any gs.contains).foldl State.retryFault s
    s.doneCmd e l.length

/-! ### Meanings -/

/-- SAVED (R334). -/
def execSaved (core slot : Nat) (blk : BitVec 512) (s : State) : Host.Outcome State Fault Refusal :=
  .next (evSaved core slot blk s)
/-- RESTORED (R336). -/
def execRestored (core slot : Nat) (blk : BitVec 512) (s : State) : Host.Outcome State Fault Refusal :=
  .next (evRestored core slot blk s)
/-- GANGFAIL (R380). -/
def execGangfail (core slot : Nat) (blk : BitVec 512) (s : State) : Host.Outcome State Fault Refusal :=
  .next (evGangfail core slot blk s)
/-- CADDY (R380). -/
def execCaddy (core slot : Nat) (blk : BitVec 512) (s : State) : Host.Outcome State Fault Refusal :=
  .next (evCaddy core slot blk s)
/-- LAUNCH (R378). -/
def execLaunch (e : SqEntry) (s : State) : Host.Outcome State Fault Refusal := .next (evLaunch e s)
/-- GANG_PLACE (R355). -/
def execGangPlace (gang : Nat) (s : State) : Host.Outcome State Fault Refusal := .next (evGangPlace gang s)
/-- LAUNCH_DONE (R379). -/
def execLaunchDone (gang : Nat) (s : State) : Host.Outcome State Fault Refusal := .next (evLaunchDone gang s)
/-- PGFORK (R367). -/
def execPgfork (e : SqEntry) (s : State) : Host.Outcome State Fault Refusal := .next (evPgfork e s)
/-- CANCEL (R377). -/
def execCancel (e : SqEntry) (s : State) : Host.Outcome State Fault Refusal := .next (evCancel e s)
/-- KILL (R337). -/
def execKill (e : SqEntry) (s : State) : Host.Outcome State Fault Refusal := .next (evKill e s)
/-- KILL_DRAINED (R337). -/
def execKillDrained (ctx : Nat) (s : State) : Host.Outcome State Fault Refusal := .next (evKillDrained ctx s)
/-- CANCEL_FAULTS (R331). -/
def execCancelFaults (e : SqEntry) (s : State) : Host.Outcome State Fault Refusal := .next (evCancelFaults e s)
/-- PREEMPT (R334). -/
def execPreempt (e : SqEntry) (s : State) : Host.Outcome State Fault Refusal := .next (evPreempt e s)
/-- RESUME (R377). -/
def execResume (e : SqEntry) (s : State) : Host.Outcome State Fault Refusal := .next (evResume e s)

end Sys2Proof.Machine
end

