-- ==== Sys2Proof/Machine/Move.lean ====
section
/-! DEFINITION. The move of a rank onto a spare core (R353, R354). -/

namespace Sys2Proof.Machine

/-! ### Names of the moved core -/

/-- A core's id after a move from `a` to `b`. -/
def moved (a b c : Nat) : Nat := if c = a then b else c

/-- A message at a network interface, renamed. -/
def movedMsg (a b : Nat) (m : NetMsg) : NetMsg :=
  match m with
  | .builtin r => .builtin { r with src := moved a b r.src }
  | .active m => .active { m with src := moved a b m.src }

/-- A mailbox message, renamed. -/
def movedMail (a b : Nat) (m : Msg) : Msg := { m with src := m.src.map fun e => (moved a b e.1, e.2) }

/-- A push, renamed. -/
def movedPush (a b : Nat) (p : Push) : Push :=
  { p with src := moved a b p.src, dest := if p.toQueue then p.dest else moved a b p.dest }

/-- A message or a step of a core, renamed. -/
def movedEvent (a b : Nat) (e : Event) : Event :=
  let m := moved a b
  match e with
  | .publishedBundleArrive c i u => .publishedBundleArrive (m c) i u
  | .joinRequestArrive c i t => .joinRequestArrive (m c) i t
  | .subscrRefusalArrive c i => .subscrRefusalArrive (m c) i
  | .rdvReportArrive c i t => .rdvReportArrive (m c) i t
  | .rdvCompletionArrive c i r k => .rdvCompletionArrive (m c) i r k
  | .membershipNoticeArrive c i t n => .membershipNoticeArrive (m c) i t n
  | .publishEndArrive c i n => .publishEndArrive (m c) i n
  | .remoteRequestArrive c q => .remoteRequestArrive (m c) (movedMsg a b q)
  | .remoteReply c r => .remoteReply (m c) { r with home := m r.home }
  | .feWithdrawalArrive c k i => .feWithdrawalArrive (m c) (m k) i
  | .pushArrive p => .pushArrive (movedPush a b p)
  | .pushAckArrive p => .pushAckArrive (movedPush a b p)
  | .pushRefusalArrive p => .pushRefusalArrive (movedPush a b p)
  | .stealRequestArrive c q => .stealRequestArrive (m c) { q with src := m q.src }
  | .stealAnswerArrive c i w r => .stealAnswerArrive (m c) i w { r with src := m r.src }
  | .dieQueueRequest d q => .dieQueueRequest d { q with src := m q.src }
  | .joinCounterUpdate c x u => .joinCounterUpdate (m c) x u
  | .cancelArrive c g t => .cancelArrive (m c) g t
  | .flueMessageArrive c q => .flueMessageArrive (m c) q
  | .buffreeCredit c i t => .buffreeCredit (m c) i t
  | .portStripArrive c p v l k i n => .portStripArrive (m c) p v l (m k) i n
  | .messageArrive c i q => .messageArrive (m c) i (movedMail a b q)
  | .caddyQuery c i k x => .caddyQuery (m c) i k x
  | .caddyAnswer c i x w => .caddyAnswer (m c) i x w
  | .pageFault c g u v w r => .pageFault (m c) g u v w r
  | .engineEccError c g u t v => .engineEccError (m c) g u t v
  | .preemptArrive c => .preemptArrive (m c)
  | e => e

/-- A slot's outstanding accesses, renamed. -/
def Slot.renamed (t : Slot) (a b : Nat) : Slot :=
  { t with
    relaxed := t.relaxed.map fun r => { r with home := moved a b r.home }
    mailHeld := t.mailHeld.map (movedMail a b)
    held := match t.held with
      | .remote h y => .remote (moved a b h) y
      | h => h }

/-- A core's references to another, renamed. -/
def Core.renamed (x : Core) (a b : Nat) : Core :=
  let req := fun (r : Req) => { r with src := moved a b r.src }
  let wr := fun (w : WrOp) => if w.space = 0 then { w with who := moved a b w.who } else w
  let place := fun (p : Place) => if p.space = 0 then { p with who := moved a b p.who } else p
  { x with
    slots := x.slots.map fun t => t.renamed a b
    netq := x.netq.map req
    amq := x.amq.map fun q => { q with src := moved a b q.src }
    feWait := x.feWait.map fun w => { w with remote := w.remote.map req }
    owed := x.owed.map fun o => { o with req := { o.req with src := moved a b o.req.src } }
    port := x.port.map fun p => { p with waits := p.waits.map fun w => { w with src := moved a b w.src } }
    scan := { x.scan with sends := x.scan.sends.map fun q => { q with dest := moved a b q.dest } }
    cq := x.cq.map fun l => l.map fun k => { k with
      got := k.got.map wr, todo := k.todo.map fun l => l.map wr
      unread := k.unread.map fun u => (u.1, u.2.map fun e => (place e.1, e.2.map place)) } }

/-- The hub's references to a core, renamed; the position has its spare. -/
def Hub.renamed (h : Hub) (a b pos gang rank : Nat) : Hub :=
  let m := moved a b
  { h with
    gangs := h.gangs.map fun g => if g.1 = gang then
      (g.1, { g.2 with ranks := g.2.ranks.mapIdx fun k r => if k = rank then ⟨b, r.pos, false⟩ else r }) else g
    spares := tput pos b h.spares
    bufs := h.bufs.map fun r => { r with core := m r.core, last := m r.last }
    held := h.held.map fun e => (m e.1, m e.2.1, movedEvent a b e.2.2)
    wires := h.wires.map fun e => (e.1, movedEvent a b e.2)
    faults := h.faults.map fun f => { f with info := { f.info with pcore := m f.info.pcore } }
    xfers := h.xfers.map fun t => if t.notice then { t with core := m t.core } else t
    catoms := h.catoms.map fun t => { t with core := m t.core }
    cancels := h.cancels.map fun q =>
      { q with core := m q.core, marks := q.marks.map fun e => (m e.1, e.2), asked := q.asked.map fun e => (m e.1, e.2) }
    bars := h.bars.map fun t => { t with tell := t.tell.map fun e => (m e.1, e.2) } }

/-! ### RANK_MOVE (R354) -/

/-- Whether an event is a message of another agent to a core (R354). -/
def isMessageTo (c : Nat) (e : Event) : Bool :=
  forCore e = some c && match e with
    | .publishedBundleArrive _ _ _ | .joinRequestArrive _ _ _ | .rdvReportArrive _ _ _ | .membershipNoticeArrive _ _ _ _
    | .publishEndArrive _ _ _ | .remoteRequestArrive _ _ | .feWithdrawalArrive _ _ _ | .pushArrive _
    | .rdvCompletionArrive _ _ _ _ | .subscrRefusalArrive _ _ | .buffreeCredit _ _ _
    | .stealRequestArrive _ _ | .flueMessageArrive _ _ | .portStripArrive _ _ _ _ _ _ _ | .messageArrive _ _ _ => true
    | _ => false

/-- Whether every message sent to a core has been performed and answered: a SEND once its handler has started (R269, R354). -/
def State.answered (s : State) (c : Nat) : Bool :=
  !(s.agenda.any fun e => isMessageTo c e.2) && !(s.hub.wires.any fun e => isMessageTo c e.2)
    && (s.core c).netq.isEmpty && (s.core c).amq.isEmpty && (s.core c).owed.isEmpty

/-- Whether an event is for a core and does not move with it: a Caddy answer is held at the hub (R354). -/
def isStepOf (c : Nat) (e : Event) : Bool :=
  forCore e = some c && match e with
    | .caddyQuery _ _ _ _ | .caddyAnswer _ _ _ _ => false
    | _ => true

/-- Whether a core that has stopped may be saved (R334, R354). -/
def State.stillToMove (s : State) (c : Nat) : Bool :=
  let x := s.core c
  x.allStill && x.cq.toList.all (·.isEmpty) && x.mx.run.isNone && x.mx.queue.isEmpty && x.div.isEmpty
    && x.scan.tiles.isEmpty && x.scan.fix.isNone && x.scan.image.isNone
    && x.su.toList.all (fun u => !(u.write && u.kind = .global) || u.staged.isEmpty)
    && !(s.agenda.any fun e => isStepOf c e.2)

/-- The latency of a message that has a fixed one: the skew in force of a channel's (R209), the Flue's path (R254), and one cycle
of a Caddy answer that the hub held. -/
def State.fixedWay (s : State) (e : Event) : Option Nat :=
  let skew := fun (h : Nat × Nat) => some (s.slot h.1 h.2).skew
  match e with
  | .publishedBundleArrive _ _ u => some u.skew
  | .rdvCompletionArrive _ _ _ k => some k
  | .joinRequestArrive c _ t | .rdvReportArrive c _ t | .membershipNoticeArrive c _ t _ => skew (s.ofTid c t)
  | .subscrRefusalArrive c i | .publishEndArrive c i _ => skew (c, i)
  | .flueMessageArrive c m =>
    some (match m.part with
      | .carryL | .carryC => 16
      | .total => s.flueEndWay (s.rankCore c m.src) c m
      | _ => s.junctionWay (s.rankDie c m.src) (s.die c) m)
  | .caddyAnswer _ _ _ _ => some 1
  | _ => none

/-- A message held for a moved rank leaves its sender (R354): it takes its own latency from now, and the bounds of steals count
from now (R232). -/
def State.releaseOne (s : State) (src c : Nat) (e : Event) : State :=
  match s.fixedWay e, e with
  | some d, e => s.after d e
  | none, .pushArrive p => s.toDeque (s.pushWay p) e
  | none, .stealRequestArrive _ q =>
    s.toDeque (s.stealWay q.src c q.why) (.stealRequestArrive c { q with till := s.now + s.latBound q.src c })
  | none, e => s.afterIn 1 (s.oneWay src c) (isMessageTo c) e

/-- The messages held for a moved rank are released, each sender's in the order in which it held them (R354). -/
def State.release (s : State) (c : Nat) : State :=
  let l := s.hub.held.filter fun e => e.2.1 = c
  let s : State := { s with hub := { s.hub with held := s.hub.held.filter fun e => e.2.1 != c } }
  l.foldl (fun s e => s.releaseOne e.1 c e.2.2) s

/-- Slot 15 of a core is its own firmware's. -/
def Core.ownSystem (x y : Core) : Core := { x with slots := vset x.slots 15 (y.slot 15) }

/-- The frame of a core is restored onto a spare, and its slots go on (R354). -/
def State.moveCore (s : State) (gang rank pos a b : Nat) : State :=
  let x := (s.core a).ownSystem (s.core b)
  let y := Core.reset.ownSystem (s.core a)
  let s := (s.setCore b { x with preempt := false, banked := false, restart := none, busy := true }).setCore a y
  let s : State := { s with
    cores := s.cores.map fun e => (e.1, e.2.renamed a b)
    agenda := s.agenda.map fun e => (e.1, movedEvent a b e.2)
    hub := s.hub.renamed a b pos gang rank }
  let s := (steps 0 1 15).foldl (fun s i =>
    let t := s.slot b i
    if t.st = .stopped && fld t.tcause.toNat 0 5 = cPREEMPT then s.resumeSlot b i else s) s
  s.release b

/-- RANK_MOVE (R354): the entry is in transit; the old core answers what was sent to it, stops, and moves. A core whose
state cannot be saved fails its gang. -/
def evRankMove (gang rank spx : Nat) (s : State) : State :=
  let e : Event := .rankMove gang rank spx
  match s.gang? gang with
  | none => s
  | some g =>
    match g.ranks[rank]? with
    | none => s
    | some r =>
      let a := r.core
      let b := 2048 + r.pos / 256 * 16 + spx
      if !r.transit then
        if g.st != .running || spx ≥ 16 || (s.core b).gang.isSome || s.hub.spares.any (fun p => p.2 = b) then s
        else
          let rs := g.ranks.mapIdx fun k r => if k = rank then { r with transit := true } else r
          (s.setGang gang { g with ranks := rs }).after 1 e
      else if !(s.core a).preempt then
        if s.answered a then ((s.stoke a).preemptCore a).after 1 e else s.after 1 e
      else if !s.stillToMove a then s.after 1 e
      else if !(s.core a).err2.isEmpty then s.failGang gang
      else s.moveCore gang rank r.pos a b

/-! ### Meanings -/

/-- RANK_MOVE (R354). -/
def execRankMove (gang rank spx : Nat) (s : State) : Host.Outcome State Fault Refusal :=
  .next (evRankMove gang rank spx s)

end Sys2Proof.Machine
end

