-- ==== Sys2Proof/Machine/Link.lean ====
section
/-! DEFINITION. Links: lane sparing, reroute, isolation and heal (R358 to R363). -/

namespace Sys2Proof.Machine

/-- Sets the hub link of a die. -/
def State.setLink (s : State) (d : Nat) (x : Link) : State := { s with hub := { s.hub with links := vset s.hub.links d x } }

/-- Posts a LINK record (R361): kind, reason, link, via and lanes. -/
def State.linkRecord (s : State) (kind reason link via lanes : Nat) : State :=
  s.postRecord (faultBits ⟨0, 0, 0, false, 5, kind, false, reason, link + via * 2 ^ 8 + lanes * 2 ^ 16, 0, 0⟩)

/-- The data lanes of a link that is no die-hub link: the spec does not give them (log entry 14). -/
def State.freeLanes (s : State) : Nat × State := ((Config.freeByte s.nonce).toNat, { s with nonce := s.nonce + 1 })

/-! ### Messages on a link -/

/-- The dies between which a message travels (R231, R351); a message to or from the hub has one, and what is no message none. -/
def State.ends (s : State) (e : Event) : List Nat :=
  let two := fun (a b : Nat) => [s.die a, s.die b]
  let push := fun (p : Push) => [s.die p.src, if p.toQueue then p.dest else s.die p.dest]
  let chan := fun (c tid : Nat) => two c (s.ofTid c tid).1
  match e with
  | .remoteRequestArrive c (.builtin r) => two c r.src
  | .remoteRequestArrive c (.active m) => two c m.src
  | .remoteReply c r => two c r.home
  | .feWithdrawalArrive c k _ => two c k
  | .pushArrive p | .pushAckArrive p | .pushRefusalArrive p => push p
  | .stealRequestArrive c q => two c q.src
  | .stealAnswerArrive c _ _ a => if 4096 ≤ a.src then [s.die c, a.src - 4096] else two c a.src
  | .dieQueueRequest d q => [s.die q.src, d]
  | .publishedBundleArrive c _ u => chan c u.chan
  | .rdvCompletionArrive c _ r _ => chan c r.chan
  | .publishEndArrive c _ t | .joinRequestArrive c _ t | .rdvReportArrive c _ t | .membershipNoticeArrive c _ t _ => chan c t
  | .subscrRefusalArrive c i => chan c (s.slot c i).chan.toNat
  | .flueMessageArrive c m => two c (s.rankCore c m.src)
  | .portStripArrive c _ _ _ k _ _ => two c k
  | .messageArrive c _ m =>
    match m.src with
    | some k => two c k.1
    | none => [s.die c]
  | .wakeArrive f _ => ((s.hub.faults.find? fun p => p.info.fid = f).map fun p => s.die p.info.pcore).toList
  | .buffreeCredit c i t =>
    match s.hub.bufs.find? fun b => b.core = c && b.slot = i && b.tag = t with
    | some b => two c b.last
    | none => []
  | .caddyQuery c _ _ _ | .caddyAnswer c _ _ _ | .preemptArrive c | .cancelArrive c _ _ => [s.die c]
  | .saved c _ _ | .restored c _ _ | .gangfail c _ _ | .caddy c _ _ | .cwrite c _ _ | .cread c _ _ | .catom c _ _
  | .cbar c _ _ => [s.die c]
  | _ => []

/-- Whether a message crosses no link but goes within a die (R351). -/
def State.within (s : State) (e : Event) : Bool :=
  match s.ends e with
  | [a, b] => a = b
  | [] => true
  | _ => false

/-- The die whose path holds a message, if one does (R358, R359). -/
def State.heldBy (s : State) (e : Event) : Option Nat :=
  if s.within e then none else (s.ends e).find? s.pathHeld

/-- Whether a message crosses the link of a die (R360). -/
def State.crosses (s : State) (d : Nat) (e : Event) : Bool := !s.within e && (s.ends e).contains d

/-- Whether an arrival at a deque comes behind another at it, whose sender has a lower position (R224). -/
def State.comesBehind (s : State) (e f : Event) : Bool :=
  match dequeKey e, dequeKey f with
  | some a, some b => a.1 = b.1 && s.pos b.2 < s.pos a.2
  | _, _ => false

/-- The messages that links held are delivered, in their order and once each (R358, R359), before those due in this cycle
that were sent behind them; of those at one deque each has its place by sender (R224). -/
def State.releaseWires (s : State) : State :=
  let out := s.hub.wires.filter fun w => !s.pathHeld w.1
  let s : State := { s with hub := { s.hub with wires := s.hub.wires.filter fun w => s.pathHeld w.1 } }
  { s with agenda := out.foldr (fun w l => agendaFront (s.comesBehind w.2) s.now w.2 l) s.agenda }

/-! ### Reroute (R359, R360) -/

/-- Whether a hub link carries its die's traffic itself. -/
def State.sound (s : State) (d : Nat) : Bool := (s.link d).via.isNone && !(s.link d).isolated

/-- The die through whose hub link a failed link's traffic goes (R359). -/
def State.reroute (s : State) (d : Nat) : Option Nat :=
  let up := (d + 1) % 8
  let down := (d + 7) % 8
  if vget s.hub.side d false && s.sound up then some up
  else if vget s.hub.side down false && s.sound down then some down else none

/-- The cycle in which the changeovers of the paths that a message crosses end (R359); none where there is none. -/
def State.changeEnd (s : State) (e : Event) : Option Nat :=
  s.agenda.foldl (fun m x => match x.2 with
    | .changeoverEnd d => if s.crosses d e then some (max x.1 (m.getD 0)) else m
    | _ => m) none

/-- Whether two accesses of a slot touch a word of one home, so that they keep their order (R271, R360). -/
def sameWord (e f : Event) : Bool :=
  match e, f with
  | .remoteRequestArrive h (.builtin r), .remoteRequestArrive k (.builtin q) =>
    h = k && r.src = q.src && r.slot = q.slot && reqMeets r q
  | _, _ => false

/-- Of messages in the order in which they were sent, the relaxed ones across the link of a die that lose their one-home order
(R360): those behind which no message that keeps its place touches the same word. -/
def State.losers (s : State) (d : Nat) : List Event → List Event
  | [] => []
  | e :: l =>
    let r := s.losers d l
    let relaxed : Bool := match e with
      | .remoteRequestArrive _ (.builtin q) => q.relaxed
      | .remoteRequestArrive _ (.active m) => m.relaxed
      | _ => false
    if relaxed && s.crosses d e && !(l.any fun f => !r.contains f && sameWord e f) then e :: r else r

/-- The relaxed accesses on their way across the link of a die lose their one-home order: each arrives within the rerouted bound
of the changeover's end, in an order that keeps those of one word (R359, R360). -/
def State.shuffle (s : State) (d : Nat) : State :=
  let l := s.losers d (s.hub.wires.map (·.2) ++ s.agenda.map (·.2))
  let s : State := { s with
    agenda := s.agenda.filter fun e => !l.contains e.2
    hub := { s.hub with wires := s.hub.wires.filter fun e => !l.contains e.2 } }
  l.foldl (fun s e =>
    let w := (s.changeEnd e).getD s.now - s.now
    match e with
    | .remoteRequestArrive h (.builtin r) => s.afterIn w (w + s.oneWay r.src h) (s.sameOrder h r) e
    | .remoteRequestArrive h (.active m) => s.afterIn w (w + s.oneWay m.src h) (fun _ => false) e
    | _ => s) s

/-- A reroute raises the skew of the channels that cross the link of a die, for what is sent from now on (R209, R360). -/
def State.raiseSkews (s : State) (d : Nat) : State :=
  let up := fun (c chan k : Nat) =>
    let p := (s.ofTid c chan).1
    if s.die c != s.die p && (s.die c = d || s.die p = d) then max k 160 else k
  { s with cores := s.cores.map fun e => (e.1, { e.2 with slots := e.2.slots.map fun t =>
      { t with
        skew := if t.mst = .none then t.skew else up e.1 t.chan.toNat t.skew
        members := t.members.map fun m => { m with skew := up e.1 m.tid m.skew } } }) }

/-- Takes a path for a die whose own link is failed; without one the die is isolated and its gangs fail (R359). -/
def State.findPath (s : State) (d : Nat) : State :=
  match s.reroute d with
  | some v =>
    let s := s.setLink d { s.link d with via := some v, change := true, isolated := false, retrain := false }
    let s := (s.linkRecord 0 1 d v 0).afterIn 1 (s.usCycles 10) (fun _ => false) (.changeoverEnd d)
    (s.shuffle d).raiseSkews d
  | none =>
    let s := s.setLink d { s.link d with via := none, change := false, isolated := true, retrain := false }
    let s := s.linkRecord 0 4 d 0 0
    (s.hub.gangs.filter fun g => g.2.ranks.any fun r => r.pos / 256 = d).foldl (fun s g => s.failGang g.1) s

/-- The dies whose traffic used a path that is gone. -/
def State.losing (s : State) (p : Nat → Nat → Bool) : List Nat :=
  (List.range 8).filter fun d => (s.link d).via.any (p d)

/-- LINK_FAIL (R359): of a die-hub link (0 to 7), or of the side link of dies d and d + 1 (8 + d). -/
def evLinkFail (die : Nat) (s : State) : State :=
  if die < 8 then
    if !s.sound die then s
    else
      let s := s.findPath die
      ((s.losing fun _ v => v = die).foldl State.findPath s).releaseWires
  else if die < 16 then
    let k := die - 8
    let s : State := { s with hub := { s.hub with side := vset s.hub.side k false } }
    ((s.losing fun d v => (d = k && v = (k + 1) % 8) || (v = k && d = (k + 1) % 8)).foldl State.findPath s).releaseWires
  else s

/-- LANE_SPARE (R358, R359): a lane of a die-hub link fails; it retrains onto a spare lane, or a third loss fails it. -/
def evLaneSpare (die : Nat) (s : State) : State :=
  if die ≥ 8 || !s.sound die then s
  else if (s.link die).lost ≥ 2 then evLinkFail die s
  else
    let l := s.link die
    let s := s.setLink die { l with lost := l.lost + 1, retrain := true }
    let s := s.linkRecord 0 3 die 0 64
    s.afterIn 1 (s.usCycles 2 - 1) (fun _ => false) (.retrainingEnd die)

/-- RETRAINING_END (R358). -/
def evRetrainingEnd (die : Nat) (s : State) : State :=
  if s.agenda.any fun e => e.2 = .retrainingEnd die then s
  else (s.setLink die { s.link die with retrain := false }).releaseWires

/-- CHANGEOVER_END (R359). -/
def evChangeoverEnd (die : Nat) (s : State) : State :=
  if s.agenda.any fun e => e.2 = .changeoverEnd die then s
  else (s.setLink die { s.link die with change := false }).releaseWires

/-- FLIT_RETRY (R358, R383, R394): the flit is resent, which counts as a corrected error. -/
def evFlitRetry (_kind _link : Nat) (s : State) : State := s.corrected 1

/-! ### Heal (R362, R363) -/

/-- Isolated dies that have a path again take it. -/
def State.rejoin (s : State) : State :=
  ((List.range 8).filter fun d => (s.link d).isolated && (s.reroute d).isSome).foldl State.findPath s

/-- Whether a held request meets its memory die again (R363). -/
def State.reaches (s : State) (f : Pending) : Bool :=
  f.info.reason = 5 && match s.xlate f.info.ctx f.host f.info.va (some f.info.wr) with
    | .error r => r != 5
    | .ok _ => true

/-- The Flue's rounds in which a member has taken part (R362): of each engine those that it has ended, and its own round once
it takes part. -/
def State.flueRounds (s : State) : List FlueRounds :=
  s.cores.filterMap fun e =>
    let x := e.2.scan
    match e.2.gang with
    | some g =>
      let on : Bool := x.flue.any fun f => f.part.any (· ≤ s.now)
      if x.gv then some ⟨g, x.first, x.count, (x.round + on.toNat) % 65536⟩ else none
    | none => none

/-- The messages to network interfaces on their way across the link of a die (R362). -/
def State.flying (s : State) (d : Nat) : List NetMsg :=
  (s.hub.wires.map (·.2) ++ s.agenda.map (·.2)).filterMap fun e =>
    match e with
    | .remoteRequestArrive _ m => if s.crosses d e then some m else none
    | _ => none

/-- LINK_HEAL (R350, R362, R363): of a die-hub link (0 to 7), a side link (8 to 15), a memory-die link (16 to 19) or a Cord
link (20 to 35). -/
def evLinkHeal (die : Nat) (s : State) : State :=
  if die < 8 then
    if s.sound die then s
    else
      let l := { Link.healthy with early := s.flying die, slow := if s.rerouted die then s.flueRounds else [] }
      (((s.setLink die l).linkRecord 0 2 die 0 64).rejoin).releaseWires
  else if die < 16 then
    let s : State := { s with hub := { s.hub with side := vset s.hub.side (die - 8) true } }
    let l := s.freeLanes
    ((l.2.linkRecord 1 2 (die - 8) 0 l.1).rejoin).releaseWires
  else if die < 20 then
    let s : State := { s with hub := { s.hub with memlink := vset s.hub.memlink (die - 16) true } }
    let l := s.freeLanes
    let s := l.2.linkRecord 2 2 (die - 16) 0 l.1
    (s.hub.faults.filter s.reaches).foldl (fun s f =>
      s.afterIn 1 (s.usCycles 2) (fun _ => false) (.wakeArrive f.info.fid f.info.tid)) s
  else if die < 36 then
    let s : State := { s with hub := { s.hub with cord := vset s.hub.cord (die - 20) true } }
    let l := s.freeLanes
    l.2.linkRecord 3 2 (die - 20) 0 l.1
  else s

/-- MEMORY_LINK_FAIL (R363). -/
def evMemoryLinkFail (die : Nat) (s : State) : State :=
  { s with hub := { s.hub with memlink := vset s.hub.memlink die false } }

/-! ### Meanings -/

/-- LANE_SPARE (R358). -/
def execLaneSpare (die : Nat) (s : State) : Host.Outcome State Fault Refusal := .next (evLaneSpare die s)
/-- FLIT_RETRY (R358). -/
def execFlitRetry (kind link : Nat) (s : State) : Host.Outcome State Fault Refusal := .next (evFlitRetry kind link s)
/-- LINK_FAIL (R359). -/
def execLinkFail (die : Nat) (s : State) : Host.Outcome State Fault Refusal := .next (evLinkFail die s)
/-- LINK_HEAL (R362). -/
def execLinkHeal (die : Nat) (s : State) : Host.Outcome State Fault Refusal := .next (evLinkHeal die s)
/-- MEMORY_LINK_FAIL (R363). -/
def execMemoryLinkFail (die : Nat) (s : State) : Host.Outcome State Fault Refusal := .next (evMemoryLinkFail die s)
/-- RETRAINING_END (R358). -/
def execRetrainingEnd (die : Nat) (s : State) : Host.Outcome State Fault Refusal := .next (evRetrainingEnd die s)
/-- CHANGEOVER_END (R359). -/
def execChangeoverEnd (die : Nat) (s : State) : Host.Outcome State Fault Refusal := .next (evChangeoverEnd die s)

end Sys2Proof.Machine
end

