-- ==== Sys2Proof/Machine/Cord.lean ====
section
/-! DEFINITION. Copies of the host's queues, and Cord links: transfers, atomics and barriers between packages (R377, R380,
R383 to R385). -/

namespace Sys2Proof.Machine

/-! ### Paths (R372, R383) -/

/-- Whether a package can be reached: a link of its CROUTE mask works. -/
def State.cordPath (s : State) (pkg : Nat) : Bool :=
  (List.range 16).any fun k => (tget 0 pkg s.hub.croute).getLsbD k && vget s.hub.cord k false

/-- CORD_LINK_DROP (R361, R383): the link leaves every mask; what has no path left fails. -/
def evCordLinkDrop (link : Nat) (s : State) : State :=
  if !vget s.hub.cord link false then s
  else
    let s : State := { s with hub := { s.hub with
      cord := vset s.hub.cord link false
      croute := s.hub.croute.map fun e => (e.1, BitVec.ofNat 64 (bitSet e.2.toNat link false)) } }
    let s := s.linkRecord 3 1 link 0 0
    let l := s.hub.xfers.map fun x => { x with failed := x.failed || !s.cordPath x.pkg }
    { s with hub := { s.hub with xfers := l } }

/-! ### Transfers (R380, R383) -/

/-- A hub notice (R301, R380). -/
def hubNotice (tag st m1 : Nat) : Msg :=
  ⟨BitVec.ofNat 64 (tag % 65536 * 2 ^ 48 + 0xFFFF * 2 ^ 32 + st * 16 + 2), BitVec.ofNat 64 m1, none⟩

/-- Sends a hub notice to a slot. -/
def State.notify (s : State) (c i tag st m1 : Nat) : State :=
  s.afterIn 1 (s.hubWay c) (fun _ => false) (.messageArrive c i (hubNotice tag st m1))

/-- Sends a transfer on its way; it completes after a free time (R383). -/
def State.sendXfer (s : State) (x : CordXfer) : State :=
  let id := s.nonce
  let s : State := { s with nonce := id + 1, hub := { s.hub with xfers := s.hub.xfers ++ [{ x with id := id }] } }
  s.afterIn 1 (s.usCycles 100) (fun _ => false) (.cordTransferComplete id)

/-- `n` bytes as a list. -/
def bytesOf (x n : Nat) : List Byte := (List.range n).map fun k => BitVec.ofNat 8 (x / 2 ^ (8 * k))

/-- `n` bytes that another package supplies: nothing here says which. -/
def freeBytes (nonce n : Nat) : Nat := packN 8 (fun k => (Config.freeByte (nonce + 2 ^ 64 * (k + 1))).toNat) n

/-- CWRITE and CREAD (R380): the reply at acceptance, the completion a notice. -/
def State.cordBlock (s : State) (wr : Bool) (c i : Nat) (blk : BitVec 512) (x : Gang) : State :=
  let w := blkWord blk
  let n := w 3
  if fld (w 4) 16 48 != 0 || fld (w 5) 16 48 != 0 then s.hubReply c i 2
  else if !s.rangeOk x.ctx false (if wr then w 1 else w 2) n (!wr) then s.hubReply c i 3
  else if !s.cordPath (w 4) then s.hubReply c i 4
  else
    let data := if wr then bytesOf ((s.readVa x.ctx false (w 1) n).getD 0) n else []
    (s.hubReply c i 0).sendXfer ⟨0, true, c, i, w 5, wr, w 1, w 2, n, w 4, data, false, x.ctx, false, false⟩

/-- CWRITE (R380). -/
def evCwrite (core slot : Nat) (blk : BitVec 512) (s : State) : State :=
  s.ofBlock core slot (.cwrite core slot blk) fun s _ x => s.cordBlock true core slot blk x

/-- CREAD (R380). -/
def evCread (core slot : Nat) (blk : BitVec 512) (s : State) : State :=
  s.ofBlock core slot (.cread core slot blk) fun s _ x => s.cordBlock false core slot blk x

/-- The flags of a COPY (R377): source HOST, destination HOST, source remote, destination remote. -/
def copyFlag (e : SqEntry) (k : Nat) : Bool := fld (sqWord e 4) k 1 = 1

/-- A COPY within the package; it waits for copies on write (R368, R377). -/
def State.copyHere (s : State) (e : SqEntry) (ctx : Nat) : State :=
  let n := sqWord e 3
  if !s.rangeOk ctx (copyFlag e 1) (sqWord e 2) n true then s.failCmd e 4
  else
    match s.readVa ctx (copyFlag e 0) (sqWord e 1) n with
    | none => s.failCmd e 4
    | some x =>
      match s.writeVa ctx (copyFlag e 1) (sqWord e 2) n x with
      | .done s => s.doneCmd e n
      | .bad => s.failCmd e 4
      | .wait s => s.after 1 (.copy e)

/-- A COPY to or from another package (R377, R383). -/
def State.copyAway (s : State) (e : SqEntry) (ctx : Nat) : State :=
  let n := sqWord e 3
  let away := copyFlag e 3
  let pkg := fld (sqWord e 4) 16 16
  if !s.cordPath pkg then s.failCmd e 7
  else if !copyFlag e 2 && !s.rangeOk ctx (copyFlag e 0) (sqWord e 1) n false then s.failCmd e 4
  else if !away && !s.rangeOk ctx (copyFlag e 1) (sqWord e 2) n true then s.failCmd e 4
  else
    let data := if copyFlag e 2 then [] else bytesOf ((s.readVa ctx (copyFlag e 0) (sqWord e 1) n).getD 0) n
    s.sendXfer ⟨0, false, e.queue, e.seq, 0, away, sqWord e 1, sqWord e 2, n, pkg, data, false, ctx, false, false⟩

/-- Whether a COPY is under way in the package: begun, with no transfer (R377). -/
def State.copying (s : State) (e : SqEntry) : Option Nat :=
  match s.workOf e.queue e.seq with
  | some w =>
    if w.begun && w.state < 4 && !(s.hub.xfers.any fun x => !x.notice && x.core = e.queue && x.slot = e.seq) then some w.ctx
    else none
  | none => none

/-- COPY (R377). -/
def evCopy (e : SqEntry) (s : State) : State :=
  match s.copying e with
  | some ctx => s.copyHere e ctx
  | none =>
    s.beginCmd e fun s ctx =>
      let w := sqWord e 4
      let plain : Bool := (copyFlag e 0 || copyFlag e 2) && (copyFlag e 1 || copyFlag e 3)
      if sqWord e 3 % 64 != 0 || fld w 4 12 != 0 || fld w 42 22 != 0 then s.failCmd e 1
      else if (s.ctxTable ctx).isNone && !plain then s.failCmd e 2
      else if copyFlag e 2 || copyFlag e 3 then s.copyAway e ctx
      else s.copyHere e ctx

/-- The address at which a transfer writes here, and whether it is a HOST one; none where it writes nothing here (R383). -/
def State.xferDest (s : State) (x : CordXfer) : Option (Bool × Nat) :=
  if x.write != x.far then none
  else if x.far || x.notice then some (false, x.dst)
  else
    match s.workOf x.core x.slot with
    | some w => some (copyFlag w.e 1, x.dst)
    | none => none

/-- What a transfer writes here: another package's write its data, and a read what the other supplies. -/
def xferBytes (x : CordXfer) (nonce : Nat) : Nat :=
  if x.far then packN 8 (fun k => (x.data.getD k 0).toNat) x.len else freeBytes nonce x.len

/-- A transfer ends, `why` the reason for which a COPY fails: its notice, or the end of its COPY (R377, R380); another package's,
and one that nobody awaits, end in silence. The notice of one whose path failed says so; that of another, INDETERMINATE or a failed
path, a free choice; a read that fails has written no byte, and how many of a write's the far memory took is free: DESIGN CHOICE
(log entry 129). -/
def State.endXfer (s : State) (x : CordXfer) (why : Option Nat) : State :=
  let s : State := { s with hub := { s.hub with xfers := s.hub.xfers.filter fun y => y.id != x.id } }
  if x.far || x.orphan then s
  else
    match why with
    | none => if x.notice then s.notify x.core x.slot x.tag 0 x.len else s.finishCmd x.core x.slot 4 x.len
    | some r =>
      if x.notice then
        let d := s.draw (if r = 7 then 7 else 6) 7
        let n := d.2.draw 0 (if x.write then x.len else 0)
        n.2.notify x.core x.slot x.tag d.1 n.1
      else s.finishCmd x.core x.slot 5 r

/-- CORD_TRANSFER_COMPLETE (R383): every write is performed, here where this package is the far memory, and the completion is
posted. -/
def evCordTransferComplete (xid : Nat) (s : State) : State :=
  match s.hub.xfers.find? fun x => x.id = xid with
  | none => s
  | some x =>
    if x.failed then s.endXfer x (some 7)
    else
      match s.xferDest x with
      | none => s.endXfer x none
      | some d =>
        let n := s.nonce
        match State.writeVa { s with nonce := n + 1 } x.ctx d.1 d.2 x.len (xferBytes x n) with
        | .done s => s.endXfer x none
        | .bad => s.endXfer x (some 4)
        | .wait s => s.after 1 (.cordTransferComplete xid)

/-! ### Atomics of this package at another (R380, R384) -/

/-- The engine's writes into a CATOM's block, and the reply (R380). -/
def State.catomReply (s : State) (q : CatomRun) (st : Nat) (old : Option Nat) : State :=
  let s : State := { s with hub := { s.hub with catoms := s.hub.catoms.filter fun r => r != q } }
  let s := s.modCore q.core fun x =>
    let x := x.engWr (q.block + 48) 2 q.seq
    match old with
    | some v => x.engWr (q.block + 56) 8 v
    | none => x
  s.hubReply q.core q.slot st

/-- Whether a CATOM's block is malformed: an operation beyond R66's list, or a reserved bit (R380). -/
def catomBad (blk : BitVec 512) : Bool := fld (blkWord blk 2) 22 10 != 0 || fld (blkWord blk 2) 48 16 != 0 || fld (blkWord blk 2) 16 4 > 9

/-- CATOM (R380, R384): the request leaves, and the reply comes within 50 µs or not at all, a free choice; its value is
another package's, and free. -/
def evCatom (core slot : Nat) (blk : BitVec 512) (s : State) : State :=
  s.ofBlock core slot (.catom core slot blk) fun s _ _ =>
    match s.hub.catoms.find? fun q => q.core = core && q.slot = slot with
    | some q =>
      let d := s.draw 0 (2 ^ (if fld (blkWord blk 2) 20 1 = 1 then 64 else 32) - 1)
      d.2.catomReply q 0 (some d.1)
    | none =>
      let w := blkWord blk 2
      if catomBad blk then s.hubReply core slot 2
      else if !s.cordPath (fld w 0 16) then s.hubReply core slot 4
      else
        match (s.slot core slot).held with
        | .hubcmd _ a =>
          let q : CatomRun := ⟨core, slot, fld w 32 16, a⟩
          let s : State := { s with hub := { s.hub with catoms := s.hub.catoms ++ [q] } }
          let t := s.usCycles 50
          let s := s.after t (.cordAtomicTimeout q.seq)
          let d := s.draw 1 (2 * t)
          if d.1 < t then d.2.after d.1 (.catom core slot blk) else d.2
        | _ => s

/-- CORD_ATOMIC_TIMEOUT (R380, R384): INDETERMINATE, with the SEQ. -/
def evCordAtomicTimeout (seq : Nat) (s : State) : State :=
  match s.hub.catoms.find? fun q => q.seq = seq with
  | none => s
  | some q => s.arrive q.core (.cordAtomicTimeout seq) fun s => s.catomReply q 5 none

/-! ### Atomics of other packages here (R384) -/

/-- The cycles of 100 µs. -/
def State.replyAge (s : State) : Nat := s.usCycles 100

/-- The cached results of a link. -/
def State.cacheOf (s : State) (link : Nat) : List ReplyEnt := s.hub.replies.filter fun r => r.link = link

/-- Whether a link's cache can take a result: it has a place, or an entry of 100 µs (R384). -/
def State.cacheRoom (s : State) (link : Nat) : Bool :=
  (s.cacheOf link).length < 1024 || (s.cacheOf link).any fun r => s.now ≥ r.since + s.replyAge

/-- Makes room in a link's cache by dropping its oldest entry, when it is full. -/
def State.cacheDrop (s : State) (link : Nat) : State :=
  if (s.cacheOf link).length < 1024 then s
  else { s with hub := { s.hub with replies := s.hub.replies.eraseP fun r => r.link = link } }

/-- The result of a remote atomic goes back to its requester, on the link on which the request came (R384). -/
def State.giveBack (s : State) (q : CordAtomic) (v : W64) : State :=
  { s with hub := { s.hub with returned := s.hub.returned ++ [⟨q.link, q.pkg, q.seq, v, s.now⟩] } }

/-- Applies a remote atomic at its word, and keeps and returns its result (R279, R384). -/
def State.applyAtomic (s : State) (q : CordAtomic) : State :=
  let n := if q.wide then 8 else 4
  let a := q.addr / n * n
  let old := Memory.read s.hbm a n
  let new := amoNew q.op (8 * n) old (q.operand.toNat % 2 ^ (8 * n)) (q.newval.toNat % 2 ^ (8 * n))
  let s := (s.cacheDrop q.link).giveBack q (BitVec.ofNat 64 old)
  { s with
    hbm := Memory.write s.hbm a n new
    hub := { s.hub with replies := s.hub.replies ++ [⟨q.link, q.pkg, q.seq, BitVec.ofNat 64 old, s.now⟩] } }

/-- Waits until the oldest entry of a link reaches 100 µs. -/
def State.awaitAge (s : State) (link : Nat) : State :=
  match s.cacheOf link with
  | [] => s
  | r :: _ => s.after (r.since + s.replyAge - s.now) (.replyCacheEntryAge link)

/-- The result that a cache holds of a retry (R384): the latest of its requester and SEQ. -/
def State.retryHit (s : State) (q : CordAtomic) : Option ReplyEnt :=
  if q.retry then s.hub.replies.reverse.find? fun r => r.pkg = q.pkg && r.seq = q.seq else none

/-- CORD_ATOMIC_ARRIVE (R384): a retry that hits returns the cached result and applies nothing; a new atomic is applied, or held
while the cache of its link is full of young entries. -/
def evCordAtomicArrive (req : CordAtomic) (s : State) : State :=
  match s.retryHit req with
  | some r => s.giveBack req r.result
  | none =>
    if s.cacheRoom req.link && !s.hub.atomics.any (fun q => q.link = req.link) then s.applyAtomic req
    else State.awaitAge { s with hub := { s.hub with atomics := s.hub.atomics ++ [req] } } req.link

/-- REPLY_CACHE_ENTRY_AGE (R384): the atomics that waited are applied while there is room, but for a retry that by then hits. -/
def evReplyCacheEntryAge (link : Nat) (s : State) : State :=
  let rec go : Nat → State → State
    | 0, s => s
    | n + 1, s =>
      match s.hub.atomics.find? fun q => q.link = link with
      | none => s
      | some q =>
        let t : State := { s with hub := { s.hub with atomics := s.hub.atomics.erase q } }
        match s.retryHit q with
        | some r => go n (t.giveBack q r.result)
        | none => if s.cacheRoom link then go n (t.applyAtomic q) else s.awaitAge link
  go (s.hub.atomics.length + 1) s

/-! ### Barriers (R385) -/

/-- The barrier of an id. -/
def State.bar (s : State) (id : Nat) : Bar := (s.hub.bars.find? fun b => b.id = id).getD ⟨id, 0, [], []⟩

/-- An arrival at a barrier; the last completes the generation, and its notices go out (R385). -/
def State.barArrive (s : State) (id pkg count : Nat) (tell : List (Nat × Nat × Nat)) : State :=
  let b := s.bar id
  let came := insertNat pkg b.came
  let rest := s.hub.bars.filter fun c => c.id != id
  let l := b.tell ++ tell
  if came.length < count then { s with hub := { s.hub with bars := rest ++ [⟨id, b.gen, came, l⟩] } }
  else
    let s : State := { s with hub := { s.hub with bars := rest ++ [⟨id, b.gen + 1, [], []⟩] } }
    l.foldl (fun s t => s.notify t.1 t.2.1 t.2.2 0 b.gen) s

/-- CBAR (R380, R385). Its block gives no TAG, and its notice's TAG is free (log entry 15). -/
def evCbar (core slot : Nat) (blk : BitVec 512) (s : State) : State :=
  s.ofBlock core slot (.cbar core slot blk) fun s _ _ =>
    let w := blkWord blk 1
    if fld w 24 40 != 0 || fld w 8 16 = 0 then s.hubReply core slot 2
    else
      let d := s.draw 0 65535
      (d.2.hubReply core slot 0).barArrive (fld w 0 8) (s.hub.pkgid.toNat % 65536) (fld w 8 16) [(core, slot, d.1)]

/-- CBAR_ARRIVE (R385): another package arrives. -/
def evCbarArrive (bid pkg count : Nat) (s : State) : State := s.barArrive bid pkg count []

/-! ### Meanings -/

/-- CORD_LINK_DROP (R383). -/
def execCordLinkDrop (link : Nat) (s : State) : Host.Outcome State Fault Refusal := .next (evCordLinkDrop link s)
/-- CORD_ATOMIC_ARRIVE (R384). -/
def execCordAtomicArrive (req : CordAtomic) (s : State) : Host.Outcome State Fault Refusal :=
  .next (evCordAtomicArrive req s)
/-- CORD_ATOMIC_TIMEOUT (R384). -/
def execCordAtomicTimeout (seq : Nat) (s : State) : Host.Outcome State Fault Refusal :=
  .next (evCordAtomicTimeout seq s)
/-- CORD_TRANSFER_COMPLETE (R383). -/
def execCordTransferComplete (xid : Nat) (s : State) : Host.Outcome State Fault Refusal :=
  .next (evCordTransferComplete xid s)
/-- CBAR_ARRIVE (R385). -/
def execCbarArrive (bid pkg count : Nat) (s : State) : Host.Outcome State Fault Refusal :=
  .next (evCbarArrive bid pkg count s)
/-- CWRITE (R380). -/
def execCwrite (core slot : Nat) (blk : BitVec 512) (s : State) : Host.Outcome State Fault Refusal :=
  .next (evCwrite core slot blk s)
/-- CREAD (R380). -/
def execCread (core slot : Nat) (blk : BitVec 512) (s : State) : Host.Outcome State Fault Refusal :=
  .next (evCread core slot blk s)
/-- CATOM (R380). -/
def execCatom (core slot : Nat) (blk : BitVec 512) (s : State) : Host.Outcome State Fault Refusal :=
  .next (evCatom core slot blk s)
/-- CBAR (R380). -/
def execCbar (core slot : Nat) (blk : BitVec 512) (s : State) : Host.Outcome State Fault Refusal :=
  .next (evCbar core slot blk s)
/-- COPY (R377). -/
def execCopy (e : SqEntry) (s : State) : Host.Outcome State Fault Refusal := .next (evCopy e s)
/-- REPLY_CACHE_ENTRY_AGE (R384). -/
def execReplyCacheEntryAge (link : Nat) (s : State) : Host.Outcome State Fault Refusal :=
  .next (evReplyCacheEntryAge link s)

end Sys2Proof.Machine
end

