-- ==== Sys2Proof/Machine/Mgmt.lean ====
section
/-! DEFINITION. Bring-up, firmware, SPDM, power and reliability (R386 to R396). -/

namespace Sys2Proof.Machine

/-! ### Reset and bring-up (R386, R387) -/

/-- Whether an event is an input from outside the package, which a reset does not take back. -/
def isOutside (e : Event) : Bool :=
  match e with
  | .sqtailWrite _ _ | .sqctlEn _ _ | .sqctlRst _ | .wake _ | .fqcons _ | .hubRegisterWrite _ _ | .hostMemWrite _ _
  | .hostMemRead _ | .powerOn | .perst | .rst | .svncommit | .pwrlimWrite _ | .mgmtRegisterWrite _ _
  | .firmwareImageLoad _ _ _ _ | .powerSample _ _ _ | .getVersion | .getCapabilities | .negotiateAlgorithms _ _
  | .getDigests | .getCertificate _ _ _ | .challenge _ | .getMeasurements _ _ | .spdmUnsupportedRequest _ | .laneSpare _
  | .flitRetry _ _ | .linkFail _ | .linkHeal _ | .memoryLinkFail _ | .cordLinkDrop _ | .cordAtomicArrive _
  | .cbarArrive _ _ _ | .scrub _ _ => true
  | _ => false

/-- A package reset (R386 to R389): bring-up begins anew with the images last loaded, the fuses kept; every gang is gone, and
the cycle count starts again (R103). Host memory is not the package's (log entry 93). -/
def State.packageReset (s : State) : State :=
  let images := s.mg.pending.foldl (fun v e => vset v (e.1 - 1) e.2) s.mg.images
  let r : State :=
    { State.reset with
      nonce := s.nonce
      host := s.host
      agenda := (s.agenda.filter fun e => isOutside e.2).map fun e => (e.1 - s.now, e.2)
      mg := { Mgmt.reset with
        epoch := s.mg.epoch + s.now
        fuse := s.mg.fuse, keyDigest := s.mg.keyDigest, debugLock := s.mg.debugLock, images := images, faulty := s.mg.faulty } }
  r.after 1 .bringUpStage

/-- POWER_ON (R386). -/
def evPowerOn (s : State) : State := s.packageReset
/-- PERST (R386). -/
def evPerst (s : State) : State := s.packageReset
/-- RST (R386, R396). -/
def evRst (s : State) : State := s.packageReset

/-- A stage of bring-up fails (R386, R396). -/
def State.stageFail (s : State) (code : Nat) : State := { s with mg := { s.mg with err := true, ecode := code } }

/-- Whether VERIFY accepts an image (R388). -/
def Image.ok (i : Image) (fuse : BitVec 16) : Bool := i.keyok && i.sigok && fuse ≤ i.svn

/-- Measurements 1 to 4 and the device key, as VERIFY fixes them (R389, R390). -/
def Mgmt.measure (g : Mgmt) : Mgmt :=
  let of := fun (k : Nat) => Config.digest [k + 1, (vget g.images k ⟨0, false, false, 0⟩).content]
  let m := ((g.measured.set 0 (of 0)).set 1 (of 1)).set 2 (of 2)
  { g with
    measured := m.set 3 (Config.digest [4, g.fuse.toNat, g.keyDigest.toNat, g.debugLock.toNat])
    devKey := Config.deviceKey (of 0) }

/-- The spare cores that stand in for failing ones: of each die the first of its spare row (R353; log entry 94). -/
def spareMap (failing : List Nat) : List (Nat × Nat) :=
  (List.range 2048).filterMap fun p =>
    if failing.contains p then
      some (p, 2048 + p / 256 * 16 + ((failing.eraseDups).filter fun q => q / 256 = p / 256 && q < p).length)
    else none

/-- Whether a die has more failing cores than spare ones. -/
def overSpare (failing : List Nat) : Bool :=
  (List.range 8).any fun d => 16 < ((failing.eraseDups).filter fun p => p / 256 = d).length

/-- `k` links from link `from_` on train, with the lanes that fail spared: the masks of their enabled lanes are free, since the spec
gives their lanes no number (R386, R389; log entry 94). -/
def State.trainLanes (s : State) (from_ k : Nat) : State :=
  { s with
    nonce := s.nonce + k
    mg := { s.mg with
      lanes := (List.range k).foldl (fun v j => vset v (from_ + j) (Config.free (s.nonce + j))) s.mg.lanes } }

/-- The lanes of a die-hub link's 66 that fail as it trains: at most the two that spare lanes make good (R358), and which is free.
-/
def failedLanes (n : Nat) : List Nat :=
  let a := Config.free n % 66
  [a, (a + 1 + Config.free (n + 1) % 65) % 66].take (Config.free (n + 2) % 3)

/-- The 64 lanes of a die-hub link that are enabled, as a mask: the first that have not failed (R358). -/
def enabledLanes (failed : List Nat) : Nat :=
  (((List.range 66).filter fun k => !failed.contains k).take 64).foldl (fun m k => m + 2 ^ k) 0

/-- DIES (R353, R358, R386, R389): die-hub and side links train, onto spare lanes where lanes fail; cores are tested and spares
assigned; and measurement 5 is fixed, of the spare map and the lanes that every link has enabled by then: a Cord link has none
before LINKS. Which lanes and cores fail is free (log entry 94). -/
def State.trainDies (s : State) : State :=
  let n := s.nonce + 1
  let links := Vector.ofFn fun (d : Fin 8) => { Link.healthy with lost := (failedLanes (n + 3 * d.val)).length }
  let spares := spareMap (Config.failing s.nonce)
  let s := State.trainLanes { s with nonce := n + 24 } 8 8
  let lanes := (List.range 8).foldl (fun v d => vset v d (enabledLanes (failedLanes (n + 3 * d)))) s.mg.lanes
  { s with
    hub := { s.hub with links := links, side := Hub.reset.side, spares := spares }
    mg := { s.mg with
      lanes := lanes
      measured := s.mg.measured.set 4 (Config.digest (5 :: lanes.toList ++ spares.flatMap fun e => [e.1, e.2])) } }

/-- What a stage of bring-up leaves (R386). -/
def State.stageWork (s : State) (k : Nat) : State :=
  match k with
  | 1 => { s with mg := s.mg.measure }
  | 2 =>
    let s := s.trainLanes 16 4
    { s with hbm := [], hub := { s.hub with memlink := Hub.reset.memlink, badLines := [], weakLines := [] } }
  | 3 => s.trainDies
  | 4 => { s with cores := [] }
  | 5 =>
    let s := s.trainLanes 20 17
    { s with hub := { s.hub with cord := Hub.reset.cord }, mg := { s.mg with memActive := true } }
  | _ => s

/-- Whether a stage finds what makes it fail (R386, R388): a rejected image, too few spare cores, or a fault that the model leaves
open. -/
def State.stageBad (s : State) (k : Nat) : Bool :=
  match k with
  | 1 => s.mg.images.toList.any fun i => !i.ok s.mg.fuse
  | 3 => s.mg.faulty = some 3 || overSpare (Config.failing s.nonce)
  | k => 2 ≤ k && s.mg.faulty = some k

/-- BRING_UP_STAGE (R386, R388): the stage in progress succeeds and the next one starts, or it fails and bring-up stops. -/
def evBringUpStage (s : State) : State :=
  let k := s.mg.stage
  if k ≥ 6 || s.mg.err then s
  else if s.stageBad k then s.stageFail k
  else
    let s := s.stageWork k
    let s : State := { s with mg := { s.mg with stage := k + 1 } }
    if k + 1 = 6 then s else s.afterIn 1 (s.usCycles 400000) (fun _ => false) .bringUpStage

/-- FIRMWARE_IMAGE_LOAD (R388, R389): image 1 to 3, by its measurement's index. A VERIFY that a rejected image stopped accepts a
replacement, of the management connector, and goes on; otherwise the image awaits the next reset. -/
def evFirmwareImageLoad (img : Nat) (svn : BitVec 16) (keyok sigok : Bool) (s : State) : State :=
  let i : Image := ⟨svn, keyok, sigok, s.nonce + 1⟩
  let g := s.mg
  if img = 0 || 3 < img then s
  else if g.stage = 1 && g.err && g.ecode = 1 then
    if i.ok g.fuse then
      State.after { s with
        nonce := s.nonce + 1
        mg := { g with images := vset g.images (img - 1) i, err := false, ecode := 0 } } 1 .bringUpStage
    else s
  else { s with nonce := s.nonce + 1, mg := { g with pending := tput img i g.pending } }

/-! ### Registers (R388, R396) -/

/-- The SVN of the running images: the lowest of the three (log entry 133). -/
def Mgmt.svn (g : Mgmt) : BitVec 16 := g.images.toList.foldl (fun m i => if i.svn < m then i.svn else m) 0xFFFF#16

/-- SVNCOMMIT (R388, R396): only in READY, and never downwards. -/
def evSvncommit (s : State) : State :=
  if s.mg.stage = 6 && s.mg.fuse < s.mg.svn then { s with mg := { s.mg with fuse := s.mg.svn } } else s

/-- PWRLIM written (R396): it governs the next average of 1 ms, that of the next sample (log entry 92). -/
def evPwrlimWrite (val : W32) (s : State) : State :=
  let v := val.toNat % 4096
  { s with mg := { s.mg with pwrlim := if v > 2000 then 2000 else if v < 600 then 600 else v } }

/-- A write of a management register (R396), in configuration space or, always after a trip, through the management connector (R393;
log entry 133). -/
def evMgmtRegisterWrite (off : Nat) (val : W32) (s : State) : State :=
  if off = 0x14 then
    let s := if val.getLsbD 1 then evSvncommit s else s
    if val.getLsbD 0 then s.packageReset else s
  else if off = 0x18 then evPwrlimWrite val s
  else if off = 0x20 then
    { s with mg := { s.mg with cecnt := ((BitVec.ofNat 32 s.mg.cecnt : W32) &&& ~~~val).toNat } }
  else s

/-- What a read of a management register returns, in configuration space or through the management connector (R396): after a
trip only the connector answers (R393); the capability's header has its ID and its vendor's (log entry 133). -/
def State.mgmtRead (s : State) (connector : Bool) (off : Nat) : W32 :=
  let g := s.mg
  if g.tripped && !connector then 0
  else if off = 0x00 then BitVec.ofNat 32 (0x0023 + (Config.capHeader 0).toNat * 2 ^ 16)
  else if off = 0x04 then BitVec.ofNat 32 (Config.vendorId.toNat + (Config.capHeader 1).toNat * 2 ^ 16)
  else if off = 0x10 then
    BitVec.ofNat 32 (g.fuse.toNat * 2 ^ 16 + g.ecode % 16 * 2 ^ 8 + g.err.toNat * 2 ^ 7 + g.step % 4 * 2 ^ 5 + g.stage % 8)
  else if off = 0x18 then BitVec.ofNat 32 g.pwrlim
  else if off = 0x1C then BitVec.ofNat 32 g.pwrnow
  else if off = 0x20 then BitVec.ofNat 32 g.cecnt
  else 0

/-! ### Power (R391 to R393) -/

/-- A trip (R393): every gang stops, every unfinished command is FAILED with reason 5, and core power goes. -/
def State.trip (s : State) : State :=
  let s := s.hub.gangs.foldl (fun s g => s.stopGang g.1 g.2) s
  let s := s.hub.work.foldl (fun s w =>
    let l := s.hub.work.map fun v =>
      if v.e.queue = w.e.queue && v.e.seq = w.e.seq then { v with state := 5, detail := 5 } else v
    evCommandFinish w.e.queue w.e.seq { s with hub := { s.hub with work := l } }) s
  { s with
    cores := [], turn := [], early := []
    agenda := s.agenda.filter fun e => isOutside e.2
    hub := { s.hub with gangs := [], held := [], wires := [], cancels := [], xfers := [], catoms := [] }
    mg := { s.mg with tripped := true, err := true, ecode := 7 } }

/-- Asks for a clock step; it takes effect at the next frame start (R391, R392). -/
def State.askStep (s : State) (n : Nat) : State :=
  State.after { s with mg := { s.mg with stepNext := some n } } (32 - s.now % 32) .clockStepChange

/-- POWER_SAMPLE (R391, R393, R396): milliwatts, amperes and the hottest die in °C, every 10 µs. -/
def evPowerSample (mw amps temp : Nat) (s : State) : State :=
  if s.mg.tripped || s.now < s.mg.sampleAt then s
  else
    let g := s.mg
    let power := (mw :: g.power).take 100
    let lim := g.pwrlim * 1000 * power.length
    let full : Bool := power.length = 100 && 100 ≤ g.fresh + 1
    let high : Bool := full && power.sum > lim
    let step := g.stepNext.getD g.step
    let calm : Bool := full && power.sum + 100000 * power.length < lim && temp < 100
    let cool := if calm then g.cool + 1 else 0
    let hot := if amps > 4000 then g.amps + 1 else 0
    let held3 := if g.step = 3 then g.held3 + 1 else 0
    let g : Mgmt := { g with
      power := power, pwrnow := power.sum / power.length, fresh := g.fresh + 1, cool := cool, amps := hot, since := g.since + 1
      held3 := held3, sampleAt := s.now + s.usCycles 10 }
    let s : State := { s with mg := g }
    if temp ≥ 115 || (held3 ≥ 100 && (high || amps > 4000)) then s.trip
    else if hot ≥ 2 && step != 3 then s.askStep 3
    else if (high || temp > 105) && step < 3 && g.since ≥ 100 then
      State.askStep { s with mg := { g with since := 0 } } (step + 1)
    else if cool ≥ 1000 && step > 0 then State.askStep { s with mg := { g with cool := 0 } } (step - 1)
    else s

/-- The sample that is due: what the sensors report (R391; log entry 132). -/
def State.sampleDue (s : State) : Option Event :=
  if s.mg.tripped || s.now < s.mg.sampleAt then none
  else
    let v := Config.sensors (s.mg.epoch + s.now)
    some (.powerSample v.1 v.2.1 v.2.2)

/-- The clock of a step, in units of 100 MHz (R391). -/
def stepClock (k : Nat) : Nat := [14, 12, 10, 8].getD k 14

/-- Whether the cycle `t` of an event is kept by the hub, the memory dies or the links (R392): that of a wake is, but for one that
awaits the end of its core's restart (R200). -/
def State.hubTimed (s : State) (t : Nat) (e : Event) : Bool :=
  match e with
  | .bringUpStage | .changeoverEnd _ | .retrainingEnd _ | .cowCopyComplete _ _ | .spdmSignedResponse
  | .cordAtomicTimeout _ | .replyCacheEntryAge _ | .cordTransferComplete _ => true
  | .wakeArrive fid tid =>
    match s.hub.faults.find? fun f => f.info.fid = fid with
    | some f => (s.core (s.ofTid f.info.pcore tid).1).restart != some t
    | none => true
  | _ => false

/-- The cycle of an event after a change of the clock (R392): a message in flight over a changeover keeps what it takes behind the
changeover's end in cycles (R359). -/
def State.rescaled (s : State) (onward : Nat → Nat) (t : Nat) (e : Event) : Nat :=
  if s.hubTimed t e then onward t
  else
    match e with
    | .remoteRequestArrive _ _ =>
      match s.changeEnd e with
      | some m => if m < t then onward m + (t - m) else min t (onward m)
      | none => t
    | _ => t

/-- The times that the hub keeps stay as they are in microseconds when the clock changes (R392): what is still to come, and what has
passed, is counted in the new cycles. -/
def State.rescale (s : State) (old new : Nat) : State :=
  let onward := fun (t : Nat) => if t ≤ s.now then t else s.now + (t - s.now) * stepClock new / stepClock old
  let back := fun (t : Nat) => if s.now ≤ t then t else s.now - (s.now - t) * stepClock new / stepClock old
  { s with
    agenda := s.agenda.foldl (fun m e => agendaPut (s.rescaled onward e.1 e.2) e.2 m) []
    hub := { s.hub with
      work := s.hub.work.map fun w => { w with since := back w.since }
      gangs := s.hub.gangs.map fun g => (g.1, { g.2 with since := back g.2.since })
      replies := s.hub.replies.map fun r => { r with since := back r.since } }
    mg := { s.mg with sampleAt := onward s.mg.sampleAt } }

/-- CLOCK_STEP_CHANGE (R392): at a frame start, with its record. -/
def evClockStepChange (s : State) : State :=
  match s.mg.stepNext with
  | none => s
  | some n =>
    if s.now % 32 != 0 then s
    else
      let s := s.rescale s.mg.step n
      State.postRecord { s with mg := { s.mg with step := n, stepNext := none } } (faultBits ⟨0, 0, 0, false, 4, 0, false, n, 0, 0, 0⟩)

/-! ### Scrubbing (R395) -/

/-- The cycles for which a scrub leaves its bank to slots and engines, at most: with as many before its time comes, a word takes no
more than 304, and a pass no more than 100 ms, at any clock step (R391, R395; log entry 134). -/
def scrubWait : Nat := 152

/-- The word that a core scrubs, once its time has come, in a cycle that slots and engines leave free (R25, R395). -/
def State.scrubDue (s : State) (c : Nat) : Option Event :=
  let x := s.core c
  let used := x.engaged || x.bankBusy s.now [x.scrub]
  if s.now < x.scrubAt || (used && s.now < x.scrubAt + scrubWait) then none else some (.scrub c (4 * x.scrub))

/-- A core goes on to its next word, after a free time (R395; log entry 134). -/
def State.scrubNext (s : State) (c a : Nat) : State :=
  if (s.core c).scrub = a / 4 then
    let d := s.draw 1 scrubWait
    d.2.modCore c fun x => { x with scrub := (x.scrub + 1) % 2 ^ 18, scrubAt := s.now + d.1 }
  else s

/-- SCRUB (R395): one local word of a core; a banked core is not stoked. -/
def evScrub (core addr : Nat) (s : State) : State :=
  let a := addr / 4 * 4
  let s := s.scrubNext core a
  if (s.core core).bad a 4 then
    s.postRecord (faultBits ⟨0, s.ctxOf core, 0, false, 3, 0, false, 4, a, (s.core core).rank, core⟩)
  else s.touch core a 4

/-! ### SPDM (R387, R390) -/

/-- A request of the DOE mailbox: answered from stage 2 on, with Busy while a response is being signed. -/
def State.spdm (s : State) (k : State → State) : State :=
  if s.mg.stage < 2 || s.mg.tripped then s
  else if s.mg.spdm.signing.isSome then
    { s with mg := { s.mg with spdm := { s.mg.spdm with resp := some .errorBusy } } }
  else k s

/-- Answers a request. -/
def State.answerSpdm (s : State) (r : SpdmResp) : State :=
  { s with mg := { s.mg with spdm := { s.mg.spdm with resp := some r } } }

/-- Begins to sign a response: it takes up to 150 ms (R390). -/
def State.sign (s : State) (r : Signing) : State :=
  State.afterIn { s with mg := { s.mg with spdm := { s.mg.spdm with signing := some r } } } 1 (s.usCycles 150000)
    (fun _ => false) .spdmSignedResponse

/-- GET_VERSION (R390). -/
def evGetVersion (s : State) : State := s.spdm fun s => s.answerSpdm .version
/-- GET_CAPABILITIES (R390). -/
def evGetCapabilities (s : State) : State := s.spdm fun s => s.answerSpdm .capabilities

/-- Preotte's entry of an algorithm: SLH-DSA-SHAKE-256s is 1, SHAKE256 is 2 (R390). -/
def extAlg (id : Nat) : ExtAlg := ⟨3, Config.vendorId, id⟩

/-- NEGOTIATE_ALGORITHMS (R390): no base algorithm is selected, nor an entry that the requester omits. -/
def evNegotiateAlgorithms (extasym exthash : Bool) (s : State) : State :=
  s.spdm fun s =>
    State.answerSpdm { s with mg := { s.mg with spdm := { s.mg.spdm with asym := extasym, hash := exthash } } }
      (.algorithms 0 0 (if extasym then some (extAlg 1) else none) (if exthash then some (extAlg 2) else none))

/-- GET_DIGESTS (R390): the digest of slot 0's chain, which the spec does not give. -/
def evGetDigests (s : State) : State :=
  s.spdm fun s =>
    if !s.mg.spdm.hash then s.answerSpdm .errorUnsupported else s.answerSpdm (.digests (Config.digest [0]))

/-- GET_CERTIFICATE (R390): slot 0 only. -/
def evGetCertificate (slot off len : Nat) (s : State) : State :=
  s.spdm fun s => s.answerSpdm (if slot = 0 then .certificate off len else .errorUnsupported)

/-- CHALLENGE (R390): slot 0 only; it needs a signature and a hash. -/
def evChallenge (slot : Nat) (s : State) : State :=
  s.spdm fun s =>
    if slot != 0 || !s.mg.spdm.asym || !s.mg.spdm.hash then s.answerSpdm .errorUnsupported else s.sign .challenge

/-- The value of a measurement (R389). -/
def Mgmt.measurement (g : Mgmt) (idx : Nat) : BitVec 512 := vget g.measured (idx - 1) 0

/-- GET_MEASUREMENTS (R387, R389, R390): Busy before stage 4. -/
def evGetMeasurements (idx : Nat) (signed : Bool) (s : State) : State :=
  s.spdm fun s =>
    if s.mg.stage < 4 then s.answerSpdm .errorBusy
    else if idx = 0 || idx > 5 || !s.mg.spdm.hash || (signed && !s.mg.spdm.asym) then s.answerSpdm .errorUnsupported
    else if signed then s.sign (.measurement idx) else s.answerSpdm (.measurements idx (s.mg.measurement idx) none)

/-- SPDM_UNSUPPORTED_REQUEST (R390). -/
def evSpdmUnsupportedRequest (_code : Nat) (s : State) : State := s.spdm fun s => s.answerSpdm .errorUnsupported

/-- A signed response (R390): the signature is the device key's. -/
def State.signed (s : State) (r : Signing) : SpdmResp :=
  let sig := Config.signature s.mg.devKey s.nonce
  match r with
  | .challenge => .challengeAuth sig
  | .measurement idx => .measurements idx (s.mg.measurement idx) (some sig)

/-- SPDM_SIGNED_RESPONSE (R390): the signed response goes out. -/
def evSpdmSignedResponse (s : State) : State :=
  match s.mg.spdm.signing with
  | none => s
  | some r =>
    { s with
      nonce := s.nonce + 1
      mg := { s.mg with spdm := { s.mg.spdm with signing := none, resp := some (s.signed r) } } }

/-! ### Meanings -/

/-- POWER_ON (R386). -/
def execPowerOn (s : State) : Host.Outcome State Fault Refusal := .next (evPowerOn s)
/-- PERST (R386). -/
def execPerst (s : State) : Host.Outcome State Fault Refusal := .next (evPerst s)
/-- BRING_UP_STAGE (R386). -/
def execBringUpStage (s : State) : Host.Outcome State Fault Refusal := .next (evBringUpStage s)
/-- RST (R396). -/
def execRst (s : State) : Host.Outcome State Fault Refusal := .next (evRst s)
/-- SVNCOMMIT (R388). -/
def execSvncommit (s : State) : Host.Outcome State Fault Refusal := .next (evSvncommit s)
/-- PWRLIM_WRITE (R396). -/
def execPwrlimWrite (val : W32) (s : State) : Host.Outcome State Fault Refusal := .next (evPwrlimWrite val s)
/-- MGMT_REGISTER_WRITE (R396). -/
def execMgmtRegisterWrite (off : Nat) (val : W32) (s : State) : Host.Outcome State Fault Refusal :=
  .next (evMgmtRegisterWrite off val s)
/-- FIRMWARE_IMAGE_LOAD (R388). -/
def execFirmwareImageLoad (img : Nat) (svn : BitVec 16) (keyok sigok : Bool) (s : State) : Host.Outcome State Fault Refusal :=
  .next (evFirmwareImageLoad img svn keyok sigok s)
/-- POWER_SAMPLE (R391). -/
def execPowerSample (mw amps temp : Nat) (s : State) : Host.Outcome State Fault Refusal :=
  .next (evPowerSample mw amps temp s)
/-- CLOCK_STEP_CHANGE (R392). -/
def execClockStepChange (s : State) : Host.Outcome State Fault Refusal := .next (evClockStepChange s)
/-- SCRUB (R395). -/
def execScrub (core addr : Nat) (s : State) : Host.Outcome State Fault Refusal := .next (evScrub core addr s)
/-- GET_VERSION (R390). -/
def execGetVersion (s : State) : Host.Outcome State Fault Refusal := .next (evGetVersion s)
/-- GET_CAPABILITIES (R390). -/
def execGetCapabilities (s : State) : Host.Outcome State Fault Refusal := .next (evGetCapabilities s)
/-- NEGOTIATE_ALGORITHMS (R390). -/
def execNegotiateAlgorithms (extasym exthash : Bool) (s : State) : Host.Outcome State Fault Refusal :=
  .next (evNegotiateAlgorithms extasym exthash s)
/-- GET_DIGESTS (R390). -/
def execGetDigests (s : State) : Host.Outcome State Fault Refusal := .next (evGetDigests s)
/-- GET_CERTIFICATE (R390). -/
def execGetCertificate (slot off len : Nat) (s : State) : Host.Outcome State Fault Refusal :=
  .next (evGetCertificate slot off len s)
/-- CHALLENGE (R390). -/
def execChallenge (slot : Nat) (s : State) : Host.Outcome State Fault Refusal := .next (evChallenge slot s)
/-- GET_MEASUREMENTS (R390). -/
def execGetMeasurements (idx : Nat) (signed : Bool) (s : State) : Host.Outcome State Fault Refusal :=
  .next (evGetMeasurements idx signed s)
/-- SPDM_UNSUPPORTED_REQUEST (R390). -/
def execSpdmUnsupportedRequest (code : Nat) (s : State) : Host.Outcome State Fault Refusal :=
  .next (evSpdmUnsupportedRequest code s)
/-- SPDM_SIGNED_RESPONSE (R390). -/
def execSpdmSignedResponse (s : State) : Host.Outcome State Fault Refusal := .next (evSpdmSignedResponse s)

end Sys2Proof.Machine
end

