-- ==== Sys2Proof/Machine/Units.lean ====
section
/-! DEFINITION. The ends of the waits for units (R139, R153, R158 to R164, R242 to R246, R313, R314, R342) and for strips
(R312). -/

namespace Sys2Proof.Machine

/-- Whether what a parked instruction of a slot awaits has come about. -/
def State.unitReady (s : State) (c i : Nat) (k : Instr) (data : BitVec 256) : Bool :=
  let x := s.core c
  match k with
  | .ringcfg d _ | .ringcfgRel d => x.ringIdle d.toNat i
  | .mzeroRel d => x.accIdle d.toNat i
  | .repcap _ | .repcapRel | .repgo _ _ | .repwait _ => !x.seqr.run
  | .scngrp _ _ _ | .scngrpRel | .scnop _ => x.scan.tiles.isEmpty
  | .scntile _ => x.scan.tiles.length < 2
  | .sclose d => x.closeReady (x.suOf (d.toNat - 24))
  | .ssave d _ => (x.suOf (d.toNat - 24)).saveReady
  | .slotxferDump _ | .slotxferLoad _ => data.toNat / 2 ^ 20 ≤ s.now
  | .slotstopStop _ _ =>
    let t := x.slot (fld data.toNat 0 4)
    t.st = .stopped || t.st = .idle
  | .slotstopIdle _ _ =>
    let j := fld data.toNat 0 4
    s.drained c j && (match x.haltUnit j with
      | some u => x.closeReady (x.suOf u)
      | none => true)
  | _ => false

/-- A repetition instruction whose wait ends: it delivers a fault of the sequence, or acts (R164). -/
def State.repEnd (s : State) (c i : Nat) (k : State → State) : State :=
  match (s.core c).seqr.fault with
  | some f => (s.modCore c fun x => { x with seqr := { x.seqr with fault := none } }).stopAt c i f.req
  | none => (k s).wake c i

/-- A parked instruction of a slot acts. -/
def State.unitAct (s : State) (c i : Nat) (k : Instr) (data : BitVec 256) : State :=
  match k with
  | .ringcfg d _ => (s.modCore c fun x => x.ringSetup d.toNat i data).wake c i
  | .ringcfgRel d => (s.modCore c fun x => x.ringFree d.toNat).wake c i
  | .mzeroRel d => (s.modCore c fun x => x.accFree d.toNat).wake c i
  | .repcap n => s.repEnd c i fun s => s.modCore c fun x => x.capOpen i n.toNat
  | .repcapRel => s.repEnd c i fun s => s.modCore c Core.capFree
  | .repgo _ _ => s.repEnd c i fun s => s.modCore c fun x => x.repStart s.now i data
  | .repwait d =>
    s.repEnd c i fun s => s.modSlot c i fun t => t.ws d.toNat (BitVec.ofNat 64 (s.core c).seqr.done)
  | .scngrp ch _ _ => (s.scanGroup c i (ch = 1) data).wake c i
  | .scngrpRel => (s.modScan c Scan.free).wake c i
  | .scnop _ => (s.modScan c fun e => e.setOp data.toNat).wake c i
  | .scntile _ => (s.tileQueue c i data).wake c i
  | .sclose d => (s.modCore c fun x => x.closeUnit (d.toNat - 24)).wake c i
  | .ssave d _ =>
    let s := s.modCore c fun x => x.wr data.toNat 128 (x.suOf (d.toNat - 24)).image
    (s.takeBanks c (wordsOf data.toNat 128)).wake c i
  | .slotxferDump _ => (s.dumpAll c (data.toNat % 2 ^ 20)).wake c i
  | .slotxferLoad _ => (s.loadAll c i (data.toNat % 2 ^ 20)).wake c i
  | .slotstopStop d _ => (s.modSlot c i fun t => t.ws d.toNat (BitVec.ofNat 64 (fld data.toNat 4 8))).wake c i
  | .slotstopIdle d _ =>
    let j := fld data.toNat 0 4
    match (s.core c).haltUnit j with
    | some u => s.modCore c fun x => x.closeUnit u
    | none => ((s.goIdle c j).modSlot c i fun t => t.ws d.toNat (BitVec.ofNat 64 (fld data.toNat 4 8))).wake c i
  | _ => s

/-- Whether UNIT_WAIT_END has something to do for a slot. -/
def State.unitDue (s : State) (c i : Nat) : Bool :=
  match (s.slot c i).held with
  | .unit k data => s.unitReady c i k data
  | .seqEnd => !(s.core c).seqr.run
  | _ => false

/-- UNIT_WAIT_END (R139, R153, R158 to R164, R242 to R246, R313, R314, R342, R343): the parked instruction acts, and its slot is
READY in the next cycle; a V syllable that waited for the sequence issues afresh. -/
def evUnitWaitEnd (core slot : Nat) (s : State) : State :=
  if !s.unitDue core slot then s
  else
    match (s.slot core slot).held with
    | .unit k data => s.unitAct core slot k data
    | .seqEnd => s.rearm core slot
    | _ => s

/-- Whether the strips and places that a slot's bundle waits for are there (R312). -/
def State.stripsThere (s : State) (c i : Nat) (srcs dsts : List Nat) : Bool :=
  let s : State := { s with cur := (c, i) }
  srcs.all (fun r => !(srcPop s true r).any PopR.waits) && dsts.all fun r => !(dstCheck s true false r).any PopR.waits

/-- Whether STRIP_READY has something to do for a slot. -/
def State.stripDue (s : State) (c i : Nat) : Bool :=
  match (s.slot c i).held with
  | .strip a b => s.stripsThere c i a b
  | _ => false

/-- STRIP_READY (R191, R312): the slot is READY in the next cycle, and its bundle issues afresh. -/
def evStripReady (core slot : Nat) (s : State) : State :=
  if s.stripDue core slot then s.rearm core slot else s

/-! ### Meanings -/

/-- UNIT_WAIT_END (R139). -/
def execUnitWaitEnd (core slot : Nat) (s : State) : Host.Outcome State Fault Refusal :=
  .next (evUnitWaitEnd core slot s)
/-- STRIP_READY (R312). -/
def execStripReady (core slot : Nat) (s : State) : Host.Outcome State Fault Refusal :=
  .next (evStripReady core slot s)

end Sys2Proof.Machine
end

