-- ==== Sys2Proof/Machine/Dispatch.lean ====
section
/-! DEFINITION. One arm for each instruction of the opcode table: its meaning. -/

namespace Sys2Proof.Machine

/-- What an instruction does, issued in a bundle of its own, or as a step of the machine. -/
def exec (i : Instr) (s : State) : Host.Outcome State Fault Refusal :=
  match i with
  | .vnop => Sys2Proof.Machine.execVnop s
  | .vadd d a b m t => Sys2Proof.Machine.execVadd d a b m t s
  | .vsub d a b m t => Sys2Proof.Machine.execVsub d a b m t s
  | .vmul d a b m t => Sys2Proof.Machine.execVmul d a b m t s
  | .vmin d a b m t => Sys2Proof.Machine.execVmin d a b m t s
  | .vmax d a b m t => Sys2Proof.Machine.execVmax d a b m t s
  | .vabs d a m t => Sys2Proof.Machine.execVabs d a m t s
  | .vneg d a m t => Sys2Proof.Machine.execVneg d a m t s
  | .vclass d a m t => Sys2Proof.Machine.execVclass d a m t s
  | .vrndi d a m t => Sys2Proof.Machine.execVrndi d a m t s
  | .vaddScalar d a sc m t => Sys2Proof.Machine.execVaddScalar d a sc m t s
  | .vsubScalar d a sc m t => Sys2Proof.Machine.execVsubScalar d a sc m t s
  | .vmulScalar d a sc m t => Sys2Proof.Machine.execVmulScalar d a sc m t s
  | .vfma d a b c m t => Sys2Proof.Machine.execVfma d a b c m t s
  | .vfms d a b c m t => Sys2Proof.Machine.execVfms d a b c m t s
  | .vfnma d a b c m t => Sys2Proof.Machine.execVfnma d a b c m t s
  | .vcmpEq d a b m t => Sys2Proof.Machine.execVcmpEq d a b m t s
  | .vcmpNe d a b m t => Sys2Proof.Machine.execVcmpNe d a b m t s
  | .vcmpLt d a b m t => Sys2Proof.Machine.execVcmpLt d a b m t s
  | .vcmpLe d a b m t => Sys2Proof.Machine.execVcmpLe d a b m t s
  | .vcmpUn d a b m t => Sys2Proof.Machine.execVcmpUn d a b m t s
  | .vcmpOr d a b m t => Sys2Proof.Machine.execVcmpOr d a b m t s
  | .vcvtF16F32 d a b m t => Sys2Proof.Machine.execVcvtF16F32 d a b m t s
  | .vcvtBf16F32 d a b m t => Sys2Proof.Machine.execVcvtBf16F32 d a b m t s
  | .vcvtF32F16 d a m t => Sys2Proof.Machine.execVcvtF32F16 d a m t s
  | .vcvtF32Bf16 d a m t => Sys2Proof.Machine.execVcvtF32Bf16 d a m t s
  | .vcvtI32F32 d a m t => Sys2Proof.Machine.execVcvtI32F32 d a m t s
  | .vcvtN32F32 d a m t => Sys2Proof.Machine.execVcvtN32F32 d a m t s
  | .vcvtF32I32 d a m t => Sys2Proof.Machine.execVcvtF32I32 d a m t s
  | .vcvtF32N32 d a m t => Sys2Proof.Machine.execVcvtF32N32 d a m t s
  | .vrcp d a m t => Sys2Proof.Machine.execVrcp d a m t s
  | .vrsq d a m t => Sys2Proof.Machine.execVrsq d a m t s
  | .vexp2 d a m t => Sys2Proof.Machine.execVexp2 d a m t s
  | .vlog2 d a m t => Sys2Proof.Machine.execVlog2 d a m t s
  | .vtanh d a m t => Sys2Proof.Machine.execVtanh d a m t s
  | .vsig d a m t => Sys2Proof.Machine.execVsig d a m t s
  | .vaddi d a b m t => Sys2Proof.Machine.execVaddi d a b m t s
  | .vsubi d a b m t => Sys2Proof.Machine.execVsubi d a b m t s
  | .vmuli d a b m t => Sys2Proof.Machine.execVmuli d a b m t s
  | .vmulhi d a b m t => Sys2Proof.Machine.execVmulhi d a b m t s
  | .vmini d a b m t => Sys2Proof.Machine.execVmini d a b m t s
  | .vmaxi d a b m t => Sys2Proof.Machine.execVmaxi d a b m t s
  | .vabsdi d a b m t => Sys2Proof.Machine.execVabsdi d a b m t s
  | .vand d a b m t => Sys2Proof.Machine.execVand d a b m t s
  | .vor d a b m t => Sys2Proof.Machine.execVor d a b m t s
  | .vxor d a b m t => Sys2Proof.Machine.execVxor d a b m t s
  | .vnot d a m t => Sys2Proof.Machine.execVnot d a m t s
  | .vshl d a b m t => Sys2Proof.Machine.execVshl d a b m t s
  | .vshr d a b m t => Sys2Proof.Machine.execVshr d a b m t s
  | .vsra d a b m t => Sys2Proof.Machine.execVsra d a b m t s
  | .vrshr d a b m t => Sys2Proof.Machine.execVrshr d a b m t s
  | .vaddiSat d a b m t => Sys2Proof.Machine.execVaddiSat d a b m t s
  | .vsubiSat d a b m t => Sys2Proof.Machine.execVsubiSat d a b m t s
  | .vaddiScalar d a sc m t => Sys2Proof.Machine.execVaddiScalar d a sc m t s
  | .vsubiScalar d a sc m t => Sys2Proof.Machine.execVsubiScalar d a sc m t s
  | .vmuliScalar d a sc m t => Sys2Proof.Machine.execVmuliScalar d a sc m t s
  | .vminiScalar d a sc m t => Sys2Proof.Machine.execVminiScalar d a sc m t s
  | .vmaxiScalar d a sc m t => Sys2Proof.Machine.execVmaxiScalar d a sc m t s
  | .vshlImm d a imm m t => Sys2Proof.Machine.execVshlImm d a imm m t s
  | .vshrImm d a imm m t => Sys2Proof.Machine.execVshrImm d a imm m t s
  | .vsraImm d a imm m t => Sys2Proof.Machine.execVsraImm d a imm m t s
  | .vrshrImm d a imm m t => Sys2Proof.Machine.execVrshrImm d a imm m t s
  | .vmac2 d a b m t => Sys2Proof.Machine.execVmac2 d a b m t s
  | .vmac2Sat d a b m t => Sys2Proof.Machine.execVmac2Sat d a b m t s
  | .vdot4 d a b m t => Sys2Proof.Machine.execVdot4 d a b m t s
  | .vdot4Sat d a b m t => Sys2Proof.Machine.execVdot4Sat d a b m t s
  | .vsatn d a b m t => Sys2Proof.Machine.execVsatn d a b m t s
  | .vwidenLo d a m t => Sys2Proof.Machine.execVwidenLo d a m t s
  | .vwidenHi d a m t => Sys2Proof.Machine.execVwidenHi d a m t s
  | .vcmpiEq d a b m t => Sys2Proof.Machine.execVcmpiEq d a b m t s
  | .vcmpiNe d a b m t => Sys2Proof.Machine.execVcmpiNe d a b m t s
  | .vcmpiLt d a b m t => Sys2Proof.Machine.execVcmpiLt d a b m t s
  | .vcmpiLe d a b m t => Sys2Proof.Machine.execVcmpiLe d a b m t s
  | .vpopc d a m t => Sys2Proof.Machine.execVpopc d a m t s
  | .vprepop d a m t => Sys2Proof.Machine.execVprepop d a m t s
  | .vclz d a m t => Sys2Proof.Machine.execVclz d a m t s
  | .vslideUp d a imm m => Sys2Proof.Machine.execVslideUp d a imm m s
  | .vslideDn d a imm m => Sys2Proof.Machine.execVslideDn d a imm m s
  | .vperm d a b m => Sys2Proof.Machine.execVperm d a b m s
  | .vcmprs d a m => Sys2Proof.Machine.execVcmprs d a m s
  | .vexpnd d a m => Sys2Proof.Machine.execVexpnd d a m s
  | .viota d m => Sys2Proof.Machine.execViota d m s
  | .vselv d a b m => Sys2Proof.Machine.execVselv d a b m s
  | .vmov d a m => Sys2Proof.Machine.execVmov d a m s
  | .vbcast d sc m => Sys2Proof.Machine.execVbcast d sc m s
  | .vredAddInt d a m t => Sys2Proof.Machine.execVredAddInt d a m t s
  | .vredMinInt d a m t => Sys2Proof.Machine.execVredMinInt d a m t s
  | .vredMaxInt d a m t => Sys2Proof.Machine.execVredMaxInt d a m t s
  | .vredAddFloat d a m t => Sys2Proof.Machine.execVredAddFloat d a m t s
  | .vredMinFloat d a m t => Sys2Proof.Machine.execVredMinFloat d a m t s
  | .vredMaxFloat d a m t => Sys2Proof.Machine.execVredMaxFloat d a m t s
  | .vscaniAddInt d a m t => Sys2Proof.Machine.execVscaniAddInt d a m t s
  | .vscaniMaxInt d a m t => Sys2Proof.Machine.execVscaniMaxInt d a m t s
  | .vscaniAddFloat d a m t => Sys2Proof.Machine.execVscaniAddFloat d a m t s
  | .vqnt d a b m t => Sys2Proof.Machine.execVqnt d a b m t s
  | .vdqnt d a b m t => Sys2Proof.Machine.execVdqnt d a b m t s
  | .vtopk d a b m t => Sys2Proof.Machine.execVtopk d a b m t s
  | .vtopkNz d a b m t => Sys2Proof.Machine.execVtopkNz d a b m t s
  | .mand d a b => Sys2Proof.Machine.execMand d a b s
  | .mor d a b => Sys2Proof.Machine.execMor d a b s
  | .mxor d a b => Sys2Proof.Machine.execMxor d a b s
  | .mnot d a => Sys2Proof.Machine.execMnot d a s
  | .mset d n => Sys2Proof.Machine.execMset d n s
  | .mma acc qa qb sat clr ha hb => Sys2Proof.Machine.execMma acc qa qb sat clr ha hb s
  | .movl d imm => Sys2Proof.Machine.execMovl d imm s
  | .movhi d imm => Sys2Proof.Machine.execMovhi d imm s
  | .amoadd d a b sg scope order rx w imm => Sys2Proof.Machine.execAmoadd d a b sg scope order rx w imm s
  | .amoand d a b sg scope order rx w imm => Sys2Proof.Machine.execAmoand d a b sg scope order rx w imm s
  | .amoor d a b sg scope order rx w imm => Sys2Proof.Machine.execAmoor d a b sg scope order rx w imm s
  | .amoxor d a b sg scope order rx w imm => Sys2Proof.Machine.execAmoxor d a b sg scope order rx w imm s
  | .amomin d a b sg scope order rx w imm => Sys2Proof.Machine.execAmomin d a b sg scope order rx w imm s
  | .amomax d a b sg scope order rx w imm => Sys2Proof.Machine.execAmomax d a b sg scope order rx w imm s
  | .amominn d a b sg scope order rx w imm => Sys2Proof.Machine.execAmominn d a b sg scope order rx w imm s
  | .amomaxn d a b sg scope order rx w imm => Sys2Proof.Machine.execAmomaxn d a b sg scope order rx w imm s
  | .amoswap d a b sg scope order rx w imm => Sys2Proof.Machine.execAmoswap d a b sg scope order rx w imm s
  | .amocas d a b sg c scope order rx w imm => Sys2Proof.Machine.execAmocas d a b sg c scope order rx w imm s
  | .wdq a c => Sys2Proof.Machine.execWdq a c s
  | .sbind e k t r u => Sys2Proof.Machine.execSbind e k t r u s
  | .scfg n k r u => Sys2Proof.Machine.execScfg n k r u s
  | .mcast n a => Sys2Proof.Machine.execMcast n a s
  | .cpyt n => Sys2Proof.Machine.execCpyt n s
  | .cpys n => Sys2Proof.Machine.execCpys n s
  | .cpyg n => Sys2Proof.Machine.execCpyg n s
  | .cpyw n => Sys2Proof.Machine.execCpyw n s
  | .cpy n => Sys2Proof.Machine.execCpy n s
  | .steal n a k => Sys2Proof.Machine.execSteal n a k s
  | .split n k => Sys2Proof.Machine.execSplit n k s
  | .dqpushr n a k => Sys2Proof.Machine.execDqpushr n a k s
  | .dqpop n j scope w k => Sys2Proof.Machine.execDqpop n j scope w k s
  | .forkd n k => Sys2Proof.Machine.execForkd n k s
  | .fork n k => Sys2Proof.Machine.execFork n k s
  | .psende n => Sys2Proof.Machine.execPsende n s
  | .psend n => Sys2Proof.Machine.execPsend n s
  | .send n a rx h => Sys2Proof.Machine.execSend n a rx h s
  | .ringcfg d a => Sys2Proof.Machine.execRingcfg d a s
  | .ringcfgRel d => Sys2Proof.Machine.execRingcfgRel d s
  | .ringadv d => Sys2Proof.Machine.execRingadv d s
  | .ringadvPop d => Sys2Proof.Machine.execRingadvPop d s
  | .ringstat d a which => Sys2Proof.Machine.execRingstat d a which s
  | .mzero d => Sys2Proof.Machine.execMzero d s
  | .mzeroRel d => Sys2Proof.Machine.execMzeroRel d s
  | .mload c d a b => Sys2Proof.Machine.execMload c d a b s
  | .mdrain c d a b => Sys2Proof.Machine.execMdrain c d a b s
  | .geomset a => Sys2Proof.Machine.execGeomset a s
  | .geommask d c => Sys2Proof.Machine.execGeommask d c s
  | .repcap n => Sys2Proof.Machine.execRepcap n s
  | .repcapRel => Sys2Proof.Machine.execRepcapRel s
  | .repgo a b => Sys2Proof.Machine.execRepgo a b s
  | .repwait d => Sys2Proof.Machine.execRepwait d s
  | .cxopen d a side => Sys2Proof.Machine.execCxopen d a side s
  | .cxopenRel d => Sys2Proof.Machine.execCxopenRel d s
  | .cxand d a b => Sys2Proof.Machine.execCxand d a b s
  | .cxor d a b => Sys2Proof.Machine.execCxor d a b s
  | .cxdiff d a b => Sys2Proof.Machine.execCxdiff d a b s
  | .cxnext d c p m => Sys2Proof.Machine.execCxnext d c p m s
  | .cxnextW d c p m => Sys2Proof.Machine.execCxnextW d c p m s
  | .cxsplit d a p => Sys2Proof.Machine.execCxsplit d a p s
  | .cxsave a b => Sys2Proof.Machine.execCxsave a b s
  | .cxrest d a => Sys2Proof.Machine.execCxrest d a s
  | .cxstat d a which => Sys2Proof.Machine.execCxstat d a which s
  | .scngrp c a b => Sys2Proof.Machine.execScngrp c a b s
  | .scngrpRel => Sys2Proof.Machine.execScngrpRel s
  | .scnop a => Sys2Proof.Machine.execScnop a s
  | .scntile a => Sys2Proof.Machine.execScntile a s
  | .scnxch d f => Sys2Proof.Machine.execScnxch d f s
  | .scnfix a => Sys2Proof.Machine.execScnfix a s
  | .scnfixSt a => Sys2Proof.Machine.execScnfixSt a s
  | .fbar d => Sys2Proof.Machine.execFbar d s
  | .fcomb a c => Sys2Proof.Machine.execFcomb a c s
  | .buffree a => Sys2Proof.Machine.execBuffree a s
  | .cpyqstat d q => Sys2Proof.Machine.execCpyqstat d q s
  | .sclose d => Sys2Proof.Machine.execSclose d s
  | .ssave d a => Sys2Proof.Machine.execSsave d a s
  | .srest d a => Sys2Proof.Machine.execSrest d a s
  | .pubon d => Sys2Proof.Machine.execPubon d s
  | .puboff => Sys2Proof.Machine.execPuboff s
  | .subscr d a t => Sys2Proof.Machine.execSubscr d a t s
  | .unsub => Sys2Proof.Machine.execUnsub s
  | .unsubp p => Sys2Proof.Machine.execUnsubp p s
  | .unsubm m => Sys2Proof.Machine.execUnsubm m s
  | .resub d a => Sys2Proof.Machine.execResub d a s
  | .rdv d a => Sys2Proof.Machine.execRdv d a s
  | .leave => Sys2Proof.Machine.execLeave s
  | .join a => Sys2Proof.Machine.execJoin a s
  | .taskend => Sys2Proof.Machine.execTaskend s
  | .cancell d a => Sys2Proof.Machine.execCancell d a s
  | .pipebind e a c => Sys2Proof.Machine.execPipebind e a c s
  | .pipebindRel e => Sys2Proof.Machine.execPipebindRel e s
  | .mbpop d => Sys2Proof.Machine.execMbpop d s
  | .mbpeek d => Sys2Proof.Machine.execMbpeek d s
  | .mbcnt d which => Sys2Proof.Machine.execMbcnt d which s
  | .segld d a => Sys2Proof.Machine.execSegld d a s
  | .segst d a => Sys2Proof.Machine.execSegst d a s
  | .istset a => Sys2Proof.Machine.execIstset a s
  | .slotstart a b => Sys2Proof.Machine.execSlotstart a b s
  | .slotstopStop d a => Sys2Proof.Machine.execSlotstopStop d a s
  | .slotstopResume d a => Sys2Proof.Machine.execSlotstopResume d a s
  | .slotstopIdle d a => Sys2Proof.Machine.execSlotstopIdle d a s
  | .slotxferRd d a => Sys2Proof.Machine.execSlotxferRd d a s
  | .slotxferWr d a => Sys2Proof.Machine.execSlotxferWr d a s
  | .slotxferVrd d a => Sys2Proof.Machine.execSlotxferVrd d a s
  | .slotxferVwr d a => Sys2Proof.Machine.execSlotxferVwr d a s
  | .slotxferTq d => Sys2Proof.Machine.execSlotxferTq d s
  | .slotxferDump a => Sys2Proof.Machine.execSlotxferDump a s
  | .slotxferLoad a => Sys2Proof.Machine.execSlotxferLoad a s
  | .hubcmd d a => Sys2Proof.Machine.execHubcmd d a s
  | .yield => Sys2Proof.Machine.execYield s
  | .sleep d a => Sys2Proof.Machine.execSleep d a s
  | .waitmsg c => Sys2Proof.Machine.execWaitmsg c s
  | .halt => Sys2Proof.Machine.execHalt s
  | .getid d which => Sys2Proof.Machine.execGetid d which s
  | .mfs d c => Sys2Proof.Machine.execMfs d c s
  | .mts c a => Sys2Proof.Machine.execMts c a s
  | .trap n => Sys2Proof.Machine.execTrap n s
  | .eret a => Sys2Proof.Machine.execEret a s
  | .ulion => Sys2Proof.Machine.execUlion s
  | .ulioff => Sys2Proof.Machine.execUlioff s
  | .uliret => Sys2Proof.Machine.execUliret s
  | .timerset a u => Sys2Proof.Machine.execTimerset a u s
  | .idem => Sys2Proof.Machine.execIdem s
  | .idemEnd => Sys2Proof.Machine.execIdemEnd s
  | .evcrd d n => Sys2Proof.Machine.execEvcrd d n s
  | .evcclr n => Sys2Proof.Machine.execEvcclr n s
  | .jr a => Sys2Proof.Machine.execJr a s
  | .callr a => Sys2Proof.Machine.execCallr a s
  | .call d => Sys2Proof.Machine.execCall d s
  | .bmnz m d => Sys2Proof.Machine.execBmnz m d s
  | .bmz m d => Sys2Proof.Machine.execBmz m d s
  | .bnc p d => Sys2Proof.Machine.execBnc p d s
  | .bc p d => Sys2Proof.Machine.execBc p d s
  | .br d => Sys2Proof.Machine.execBr d s
  | .vstx d a sg rx vi m => Sys2Proof.Machine.execVstx d a sg rx vi m s
  | .vldx d a sg rx vi m => Sys2Proof.Machine.execVldx d a sg rx vi m s
  | .vldb d a sg imm => Sys2Proof.Machine.execVldb d a sg imm s
  | .vst d a sg rx imm => Sys2Proof.Machine.execVst d a sg rx imm s
  | .vld d a sg rx imm => Sys2Proof.Machine.execVld d a sg rx imm s
  | .fetest p a sg imm => Sys2Proof.Machine.execFetest p a sg imm s
  | .feclr a sg imm => Sys2Proof.Machine.execFeclr a sg imm s
  | .feset a sg imm => Sys2Proof.Machine.execFeset a sg imm s
  | .lea d a sg imm => Sys2Proof.Machine.execLea d a sg imm s
  | .stwfill d a sg rx imm => Sys2Proof.Machine.execStwfill d a sg rx imm s
  | .ldwtake d a sg imm => Sys2Proof.Machine.execLdwtake d a sg imm s
  | .ldwsync d a sg imm => Sys2Proof.Machine.execLdwsync d a sg imm s
  | .std d a sg rx imm => Sys2Proof.Machine.execStd d a sg rx imm s
  | .stw d a sg rx imm => Sys2Proof.Machine.execStw d a sg rx imm s
  | .sth d a sg rx imm => Sys2Proof.Machine.execSth d a sg rx imm s
  | .stb d a sg rx imm => Sys2Proof.Machine.execStb d a sg rx imm s
  | .ldd d a sg rx imm => Sys2Proof.Machine.execLdd d a sg rx imm s
  | .ldws d a sg rx imm => Sys2Proof.Machine.execLdws d a sg rx imm s
  | .ldw d a sg rx imm => Sys2Proof.Machine.execLdw d a sg rx imm s
  | .ldhs d a sg rx imm => Sys2Proof.Machine.execLdhs d a sg rx imm s
  | .ldh d a sg rx imm => Sys2Proof.Machine.execLdh d a sg rx imm s
  | .ldbs d a sg rx imm => Sys2Proof.Machine.execLdbs d a sg rx imm s
  | .ldb d a sg rx imm => Sys2Proof.Machine.execLdb d a sg rx imm s
  | .fencee scope => Sys2Proof.Machine.execFencee scope s
  | .fence scope => Sys2Proof.Machine.execFence scope s
  | .movtk a k => Sys2Proof.Machine.execMovtk a k s
  | .movk d k => Sys2Proof.Machine.execMovk d k s
  | .pand d a b => Sys2Proof.Machine.execPand d a b s
  | .por d a b => Sys2Proof.Machine.execPor d a b s
  | .pxor d a b => Sys2Proof.Machine.execPxor d a b s
  | .ptos d => Sys2Proof.Machine.execPtos d s
  | .stop a => Sys2Proof.Machine.execStop a s
  | .mtos d a => Sys2Proof.Machine.execMtos d a s
  | .stom d a => Sys2Proof.Machine.execStom d a s
  | .vmovs d a b => Sys2Proof.Machine.execVmovs d a b s
  | .smovv d a b => Sys2Proof.Machine.execSmovv d a b s
  | .cmp c p a b => Sys2Proof.Machine.execCmp c p a b s
  | .div d a b => Sys2Proof.Machine.execDiv d a b s
  | .divn d a b => Sys2Proof.Machine.execDivn d a b s
  | .rem d a b => Sys2Proof.Machine.execRem d a b s
  | .remn d a b => Sys2Proof.Machine.execRemn d a b s
  | .add d a b => Sys2Proof.Machine.execAdd d a b s
  | .sub d a b => Sys2Proof.Machine.execSub d a b s
  | .mul d a b => Sys2Proof.Machine.execMul d a b s
  | .mulh d a b => Sys2Proof.Machine.execMulh d a b s
  | .mulhn d a b => Sys2Proof.Machine.execMulhn d a b s
  | .and d a b => Sys2Proof.Machine.execAnd d a b s
  | .or d a b => Sys2Proof.Machine.execOr d a b s
  | .xor d a b => Sys2Proof.Machine.execXor d a b s
  | .andn d a b => Sys2Proof.Machine.execAndn d a b s
  | .shl d a b => Sys2Proof.Machine.execShl d a b s
  | .shr d a b => Sys2Proof.Machine.execShr d a b s
  | .sra d a b => Sys2Proof.Machine.execSra d a b s
  | .rotr d a b => Sys2Proof.Machine.execRotr d a b s
  | .min d a b => Sys2Proof.Machine.execMin d a b s
  | .max d a b => Sys2Proof.Machine.execMax d a b s
  | .minn d a b => Sys2Proof.Machine.execMinn d a b s
  | .maxn d a b => Sys2Proof.Machine.execMaxn d a b s
  | .clz d a => Sys2Proof.Machine.execClz d a s
  | .ctz d a => Sys2Proof.Machine.execCtz d a s
  | .popc d a => Sys2Proof.Machine.execPopc d a s
  | .brev d a => Sys2Proof.Machine.execBrev d a s
  | .bext d a b => Sys2Proof.Machine.execBext d a b s
  | .bdep d a b => Sys2Proof.Machine.execBdep d a b s
  | .sext d a n => Sys2Proof.Machine.execSext d a n s
  | .zext d a n => Sys2Proof.Machine.execZext d a n s
  | .sel d a b p => Sys2Proof.Machine.execSel d a b p s
  | .cmpi c p a imm => Sys2Proof.Machine.execCmpi c p a imm s
  | .srai d a n => Sys2Proof.Machine.execSrai d a n s
  | .shri d a n => Sys2Proof.Machine.execShri d a n s
  | .shli d a n => Sys2Proof.Machine.execShli d a n s
  | .xori d a imm => Sys2Proof.Machine.execXori d a imm s
  | .ori d a imm => Sys2Proof.Machine.execOri d a imm s
  | .andi d a imm => Sys2Proof.Machine.execAndi d a imm s
  | .addi d a imm => Sys2Proof.Machine.execAddi d a imm s
  | .divideStart core => Sys2Proof.Machine.execDivideStart core s
  | .divideComplete core => Sys2Proof.Machine.execDivideComplete core s
  | .haltDrainComplete core slot => Sys2Proof.Machine.execHaltDrainComplete core slot s
  | .fenceComplete core slot => Sys2Proof.Machine.execFenceComplete core slot s
  | .taskendComplete core slot => Sys2Proof.Machine.execTaskendComplete core slot s
  | .unitWaitEnd core slot => Sys2Proof.Machine.execUnitWaitEnd core slot s
  | .ringWaitEnd core slot => Sys2Proof.Machine.execRingWaitEnd core slot s
  | .stripReady core slot => Sys2Proof.Machine.execStripReady core slot s
  | .copyQueuePlaceFree core slot => Sys2Proof.Machine.execCopyQueuePlaceFree core slot s
  | .timerExpiry core slot => Sys2Proof.Machine.execTimerExpiry core slot s
  | .sleepTimeout core slot => Sys2Proof.Machine.execSleepTimeout core slot s
  | .istSwitch core => Sys2Proof.Machine.execIstSwitch core s
  | .coreBank core => Sys2Proof.Machine.execCoreBank core s
  | .restartEnd core => Sys2Proof.Machine.execRestartEnd core s
  | .publishedBundleArrive core slot bun => Sys2Proof.Machine.execPublishedBundleArrive core slot bun s
  | .joinRequestArrive core slot tid => Sys2Proof.Machine.execJoinRequestArrive core slot tid s
  | .subscrRefusalArrive core slot => Sys2Proof.Machine.execSubscrRefusalArrive core slot s
  | .rdvReportArrive core slot tid => Sys2Proof.Machine.execRdvReportArrive core slot tid s
  | .rdvCompletionArrive core slot fin skew => Sys2Proof.Machine.execRdvCompletionArrive core slot fin skew s
  | .membershipNoticeArrive core slot tid note => Sys2Proof.Machine.execMembershipNoticeArrive core slot tid note s
  | .publishEndArrive core slot chan => Sys2Proof.Machine.execPublishEndArrive core slot chan s
  | .remoteRequestArrive core msg => Sys2Proof.Machine.execRemoteRequestArrive core msg s
  | .builtinRequestPerform core => Sys2Proof.Machine.execBuiltinRequestPerform core s
  | .remoteReply core rep => Sys2Proof.Machine.execRemoteReply core rep s
  | .feWithdrawalArrive core src slot => Sys2Proof.Machine.execFeWithdrawalArrive core src slot s
  | .handlerStart core => Sys2Proof.Machine.execHandlerStart core s
  | .pushArrive push => Sys2Proof.Machine.execPushArrive push s
  | .pushAckArrive push => Sys2Proof.Machine.execPushAckArrive push s
  | .pushRefusalArrive push => Sys2Proof.Machine.execPushRefusalArrive push s
  | .stealRequestArrive core req => Sys2Proof.Machine.execStealRequestArrive core req s
  | .stealAnswerArrive core slot why ans => Sys2Proof.Machine.execStealAnswerArrive core slot why ans s
  | .dieQueueRequest die req => Sys2Proof.Machine.execDieQueueRequest die req s
  | .dqpopPass core slot => Sys2Proof.Machine.execDqpopPass core slot s
  | .joinCounterUpdate core addr up => Sys2Proof.Machine.execJoinCounterUpdate core addr up s
  | .cancelArrive core gang tag => Sys2Proof.Machine.execCancelArrive core gang tag s
  | .cancellComplete core slot => Sys2Proof.Machine.execCancellComplete core slot s
  | .accumulatorClear core => Sys2Proof.Machine.execAccumulatorClear core s
  | .mmaStepStart core => Sys2Proof.Machine.execMmaStepStart core s
  | .mmaStepRetire core => Sys2Proof.Machine.execMmaStepRetire core s
  | .matrixOpComplete core => Sys2Proof.Machine.execMatrixOpComplete core s
  | .sequencerIssue core => Sys2Proof.Machine.execSequencerIssue core s
  | .sequenceEnd core => Sys2Proof.Machine.execSequenceEnd core s
  | .scanTileRow core => Sys2Proof.Machine.execScanTileRow core s
  | .scnfixRow core => Sys2Proof.Machine.execScnfixRow core s
  | .flueMessageArrive core msg => Sys2Proof.Machine.execFlueMessageArrive core msg s
  | .flueDeferredSend core => Sys2Proof.Machine.execFlueDeferredSend core s
  | .flueOperationComplete core => Sys2Proof.Machine.execFlueOperationComplete core s
  | .copyCommandStart core queue => Sys2Proof.Machine.execCopyCommandStart core queue s
  | .copyCommandComplete core queue => Sys2Proof.Machine.execCopyCommandComplete core queue s
  | .copyRingPushDeferred core queue => Sys2Proof.Machine.execCopyRingPushDeferred core queue s
  | .mcastTargetComplete core queue rank => Sys2Proof.Machine.execMcastTargetComplete core queue rank s
  | .buffreeCredit core slot tag => Sys2Proof.Machine.execBuffreeCredit core slot tag s
  | .streamRefill core unit => Sys2Proof.Machine.execStreamRefill core unit s
  | .streamDrain core unit => Sys2Proof.Machine.execStreamDrain core unit s
  | .portStripArrive core port strip last src slot id => Sys2Proof.Machine.execPortStripArrive core port strip last src slot id s
  | .messageArrive core slot msg => Sys2Proof.Machine.execMessageArrive core slot msg s
  | .mailboxHeldEntry core slot => Sys2Proof.Machine.execMailboxHeldEntry core slot s
  | .uliDeliver core slot => Sys2Proof.Machine.execUliDeliver core slot s
  | .caddyQuery core slot counter addr => Sys2Proof.Machine.execCaddyQuery core slot counter addr s
  | .caddyAnswer core slot addr ans => Sys2Proof.Machine.execCaddyAnswer core slot addr ans s
  | .pageFault core eng unit va wr reason => Sys2Proof.Machine.execPageFault core eng unit va wr reason s
  | .wakeArrive fid tid => Sys2Proof.Machine.execWakeArrive fid tid s
  | .engineEccError core eng unit tid va => Sys2Proof.Machine.execEngineEccError core eng unit tid va s
  | .preemptArrive core => Sys2Proof.Machine.execPreemptArrive core s
  | .slot15Restart core => Sys2Proof.Machine.execSlot15Restart core s
  | .rankMove gang rank spx => Sys2Proof.Machine.execRankMove gang rank spx s
  | .cowCopy ctx va => Sys2Proof.Machine.execCowCopy ctx va s
  | .frameReturn frame => Sys2Proof.Machine.execFrameReturn frame s
  | .laneSpare die => Sys2Proof.Machine.execLaneSpare die s
  | .flitRetry kind link => Sys2Proof.Machine.execFlitRetry kind link s
  | .linkFail die => Sys2Proof.Machine.execLinkFail die s
  | .linkHeal die => Sys2Proof.Machine.execLinkHeal die s
  | .memoryLinkFail die => Sys2Proof.Machine.execMemoryLinkFail die s
  | .cordLinkDrop link => Sys2Proof.Machine.execCordLinkDrop link s
  | .cordAtomicArrive req => Sys2Proof.Machine.execCordAtomicArrive req s
  | .cordAtomicTimeout seq => Sys2Proof.Machine.execCordAtomicTimeout seq s
  | .cordTransferComplete xid => Sys2Proof.Machine.execCordTransferComplete xid s
  | .cbarArrive bid pkg count => Sys2Proof.Machine.execCbarArrive bid pkg count s
  | .saved core slot blk => Sys2Proof.Machine.execSaved core slot blk s
  | .restored core slot blk => Sys2Proof.Machine.execRestored core slot blk s
  | .gangfail core slot blk => Sys2Proof.Machine.execGangfail core slot blk s
  | .caddy core slot blk => Sys2Proof.Machine.execCaddy core slot blk s
  | .cwrite core slot blk => Sys2Proof.Machine.execCwrite core slot blk s
  | .cread core slot blk => Sys2Proof.Machine.execCread core slot blk s
  | .catom core slot blk => Sys2Proof.Machine.execCatom core slot blk s
  | .cbar core slot blk => Sys2Proof.Machine.execCbar core slot blk s
  | .sqtailWrite queue val => Sys2Proof.Machine.execSqtailWrite queue val s
  | .entryAccept => Sys2Proof.Machine.execEntryAccept s
  | .sqctlEn queue val => Sys2Proof.Machine.execSqctlEn queue val s
  | .sqctlRst queue => Sys2Proof.Machine.execSqctlRst queue s
  | .wake val => Sys2Proof.Machine.execWake val s
  | .fqcons val => Sys2Proof.Machine.execFqcons val s
  | .hubRegisterWrite off val => Sys2Proof.Machine.execHubRegisterWrite off val s
  | .launch e => Sys2Proof.Machine.execLaunch e s
  | .gangPlace gang => Sys2Proof.Machine.execGangPlace gang s
  | .launchDone gang => Sys2Proof.Machine.execLaunchDone gang s
  | .copy e => Sys2Proof.Machine.execCopy e s
  | .pgfork e => Sys2Proof.Machine.execPgfork e s
  | .cancel e => Sys2Proof.Machine.execCancel e s
  | .kill e => Sys2Proof.Machine.execKill e s
  | .killDrained ctx => Sys2Proof.Machine.execKillDrained ctx s
  | .queueFence e => Sys2Proof.Machine.execQueueFence e s
  | .signal e => Sys2Proof.Machine.execSignal e s
  | .cancelFaults e => Sys2Proof.Machine.execCancelFaults e s
  | .preempt e => Sys2Proof.Machine.execPreempt e s
  | .resume e => Sys2Proof.Machine.execResume e s
  | .commandFinish queue seq => Sys2Proof.Machine.execCommandFinish queue seq s
  | .hostMemWrite addr line => Sys2Proof.Machine.execHostMemWrite addr line s
  | .hostMemRead addr => Sys2Proof.Machine.execHostMemRead addr s
  | .powerOn => Sys2Proof.Machine.execPowerOn s
  | .perst => Sys2Proof.Machine.execPerst s
  | .bringUpStage => Sys2Proof.Machine.execBringUpStage s
  | .rst => Sys2Proof.Machine.execRst s
  | .svncommit => Sys2Proof.Machine.execSvncommit s
  | .pwrlimWrite val => Sys2Proof.Machine.execPwrlimWrite val s
  | .mgmtRegisterWrite off val => Sys2Proof.Machine.execMgmtRegisterWrite off val s
  | .firmwareImageLoad img svn keyok sigok => Sys2Proof.Machine.execFirmwareImageLoad img svn keyok sigok s
  | .powerSample mw amps temp => Sys2Proof.Machine.execPowerSample mw amps temp s
  | .clockStepChange => Sys2Proof.Machine.execClockStepChange s
  | .scrub core addr => Sys2Proof.Machine.execScrub core addr s
  | .getVersion => Sys2Proof.Machine.execGetVersion s
  | .getCapabilities => Sys2Proof.Machine.execGetCapabilities s
  | .negotiateAlgorithms extasym exthash => Sys2Proof.Machine.execNegotiateAlgorithms extasym exthash s
  | .getDigests => Sys2Proof.Machine.execGetDigests s
  | .getCertificate slot off len => Sys2Proof.Machine.execGetCertificate slot off len s
  | .challenge slot => Sys2Proof.Machine.execChallenge slot s
  | .getMeasurements idx signed => Sys2Proof.Machine.execGetMeasurements idx signed s
  | .spdmUnsupportedRequest code => Sys2Proof.Machine.execSpdmUnsupportedRequest code s
  | .spdmSignedResponse => Sys2Proof.Machine.execSpdmSignedResponse s
  | .unassignedEncoding vhalf => Sys2Proof.Machine.execUnassignedEncoding vhalf s
  | .cowCopyComplete ctx va => Sys2Proof.Machine.execCowCopyComplete ctx va s
  | .scanImageStripWrite core => Sys2Proof.Machine.execScanImageStripWrite core s
  | .replyCacheEntryAge link => Sys2Proof.Machine.execReplyCacheEntryAge link s
  | .retrainingEnd die => Sys2Proof.Machine.execRetrainingEnd die s
  | .changeoverEnd die => Sys2Proof.Machine.execChangeoverEnd die s

end Sys2Proof.Machine
end

