-- ==== Sys2Proof/Machine/Issue.lean ====
section
/-! DEFINITION. Which bundle a core issues in a cycle, and its issue: the issue-slot table and donation (R193, R196),
lockstep issue (R210), the handler port (R264), and the contest with the sequencer (R161, R197). -/

namespace Sys2Proof.Machine

/-- Whether the entry of a cycle names a slot (R193). -/
def Core.names (x : Core) (cycle i : Nat) : Bool :=
  let b := (vget x.ist (cycle % 32) 0).toNat
  128 ≤ b && b % 16 = i

/-- Whether the least interval since a slot's latest issue has passed (R21, R96, R196). -/
def Slot.spaced (t : Slot) (now : Nat) : Bool :=
  match t.last with
  | none => true
  | some l => l + t.gap ≤ now

/-- elig of R196: a JOINED member issues by R210 alone, and waiting built-in requests stand for a READY slot 14 (R264). -/
def State.elig (s : State) (c i : Nat) : Bool :=
  let t := s.slot c i
  ((t.st = .ready && t.mst != .joined) || (i = 14 && !(s.core c).netq.isEmpty)) && t.spaced s.now && t.bar.isNone

/-- Whether a donation leaves a slot eligible at its own next entry (R196). -/
def Core.mayTake (x : Core) (now i : Nat) : Bool :=
  match (steps 1 1 32).find? fun k => x.names (now + k) i with
  | none => true
  | some k => 8 ≤ k

/-- How late a slot last issued; one that has not is older than any that has (R196). -/
def Slot.age (t : Slot) : Nat :=
  match t.last with
  | none => 0
  | some l => l + 1

/-- The slot of a list that issued longest ago; of two alike the first (R196). -/
def State.oldestOf (s : State) (c : Nat) (l : List Nat) : Option Nat :=
  l.foldl (fun w i =>
    match w with
    | none => some i
    | some j => if (s.slot c i).age < (s.slot c j).age then some i else some j) none

/-- The bundle of a cycle: its slot, the due bundle of a lockstep issue, and whether it is a donation. -/
structure Pick where
  slot : Nat
  due : Option Due
  donated : Bool
  deriving DecidableEq, Repr

/-- R196: the slot that the entry names, or one that takes the donation. -/
def State.pickOwn (s : State) (c : Nat) : Option Pick :=
  let x := s.core c
  match slotNums.find? fun i => x.names s.now i && s.elig c i with
  | some i => some ⟨i, none, false⟩
  | none => (s.oldestOf c (slotNums.filter fun i => s.elig c i && x.mayTake s.now i)).map fun i => ⟨i, none, true⟩

/-- The due bundle that a JOINED member may issue (R210). -/
def State.dueOf (s : State) (c i : Nat) : Option Due :=
  let t := s.slot c i
  match t.due with
  | d :: _ => if t.mst = .joined && t.st = .ready && d.cycle ≤ s.now && t.spaced s.now then some d else none
  | [] => none

/-- The member whose oldest due bundle has the earliest due cycle; of two alike the lower slot (R210). -/
def State.pickMember (s : State) (c : Nat) : Option Pick :=
  slotNums.foldl (fun w i =>
    match s.dueOf c i with
    | none => w
    | some d =>
      match w with
      | some ⟨_, some e, _⟩ => if d.cycle < e.cycle then some ⟨i, some d, false⟩ else w
      | _ => some ⟨i, some d, false⟩) none

/-- The bundle that a core selects in a cycle (R196, R210). -/
def State.pick (s : State) (c : Nat) : Option Pick :=
  let x := s.core c
  if (x.names s.now 14 && s.elig c 14) || (x.names s.now 15 && s.elig c 15) then s.pickOwn c
  else
    match s.pickMember c with
    | some p => some p
    | none => s.pickOwn c

/-! ### The contest with the sequencer -/

/-- Whether a bundle uses the vector pipe: its V part is not VNOP (R161). -/
def usesV (w : Nat) : Bool := fld w 31 1 = 0 && fld w 32 32 != 0

/-- The sequencer's syllable waits for a later cycle (R161, R197, R210). -/
def State.holdSeq (s : State) (c : Nat) : State :=
  s.modCore c fun x => { x with seqr := { x.seqr with next := max x.seqr.next (s.now + 1) } }

/-- What R161 makes of a bundle of a slot beside a syllable of the sequencer: the state in which it issues, or none where
it loses. A bundle of the sequence's owner that only parks takes no part. -/
def State.contest (s : State) (c i w : Nat) (lockstep : Bool) : Option State :=
  let q := (s.core c).seqr
  if !usesV w || q.owner = some i || !s.seqWants c then some s
  else if i ≥ 14 || lockstep then some (s.holdSeq c)
  else if q.lost then none
  else some ((s.holdSeq c).modCore c fun x => { x with seqr := { x.seqr with lost := true } })

/-- A bundle that has issued with a V part leaves its cycle's vector pipe to no syllable of the sequencer, whether or not one
was able before it (R161). -/
def State.sharePipe (s : State) (c i w : Nat) : State :=
  let q := (s.core c).seqr
  if usesV w && q.run && q.owner != some i && (s.slot c i).last = some s.now then s.holdSeq c else s

/-- The bundle lost its contest (R161, R201): the cycle is neither used nor donated. -/
def State.lose (s : State) (c : Nat) : State :=
  s.modCore c fun x => { x.count 11 1 with seqr := { x.seqr with lost := false } }

/-! ### Issue -/

/-- A slot of a core whose bundle is to execute. -/
def State.atSlot (s : State) (c i : Nat) : State := State.modMe { s with cur := (c, i) } fun t => { t with gap := 8 }

/-- Changes the next state of an outcome. -/
def onNext (o : Host.Outcome State Fault Refusal) (f : State → State) : Host.Outcome State Fault Refusal :=
  match o with
  | .next s => .next (f s)
  | .fault e => .fault e
  | .refused r => .refused r

/-- What an issue counts in a cycle (R201): DONATED, or EMPTY where no bundle has issued (R71, R312). -/
def State.tally (s : State) (c i : Nat) (donated : Bool) : State :=
  if (s.slot c i).last = some s.now then (if donated then s.modCore c fun x => x.count 9 1 else s)
  else s.modCore c fun x => x.count 10 1

/-- The executing slot's bundle of its own code, its word fetched: a lone instruction of a slot that does not publish is
that instruction. -/
noncomputable def State.runFetched (s : State) (w : Nat) : Host.Outcome State Fault Refusal :=
  match soleInstr (decodeBundle w) with
  | some i => if s.me.pub then .next (s.runWord w) else exec i s
  | none => .next (s.runWord w)

/-- The instructions of a half. -/
def Half.instrs : Half → List Instr
  | .run i => [i]
  | _ => []

/-- The instructions of a bundle's word. -/
noncomputable def instrsOf (w : Nat) : List Instr := (halves w).1.instrs ++ (halves w).2.instrs

/-- A slot's own bundle: its fetch, its contest, its execution (R57, R161, R196). -/
noncomputable def State.issueOwn (s : State) (c i : Nat) (donated : Bool) : Host.Outcome State Fault Refusal :=
  let s := s.atSlot c i
  match s.fetchAt with
  | .error e => .next ((s.takeTrap e.1 e.2 false true).tally c i donated)
  | .ok a =>
    let s := s.touch c a 8
    let w := s.wordAtPc a
    match s.contest c i w false with
    | none => .next (s.lose c)
    | some s => onNext (s.runFetched w) fun t => ((s.charge t c (some a) (instrsOf w)).tally c i donated).sharePipe c i w

/-- A core's cycle (R196, R201, R210, R264). -/
noncomputable def State.issueCore (s : State) (c : Nat) : Host.Outcome State Fault Refusal :=
  let x := s.core c
  if x.banked || x.restart.isSome then .next s
  else
    match s.pick c with
    | none => .next (s.modCore c fun x => x.count 10 1)
    | some ⟨i, some d, _⟩ =>
      match s.contest c i d.bun.word.toNat true with
      | none => .next s
      | some s =>
        let s := s.atSlot c i
        let w := d.bun.word.toNat
        .next (((s.charge (s.runMember d) c none (instrsOf w)).tally c i false).sharePipe c i w)
    | some ⟨i, none, donated⟩ =>
      if i = 14 && !x.netq.isEmpty then
        let ws := (x.netq.head?.map fun r => wordsOf r.addr (reqSize r.op)).getD []
        onNext (exec (.builtinRequestPerform c) s) fun t =>
          (t.takeBanks c ws).tally c 14 donated
      else s.issueOwn c i donated

end Sys2Proof.Machine
end

