-- ==== Sys2Proof/Machine/Row.lean ====
section
/-! DEFINITION. The instruction that each step of a unit, the hub, the host or the controller is, and the cores, slots and
dies that it names. -/

namespace Sys2Proof.Machine

/-- The row of the opcode table that a step is. -/
noncomputable def instrOf (e : Event) : Instr :=
  match e with
  | .divideStart core => .divideStart core
  | .divideComplete core => .divideComplete core
  | .haltDrainComplete core slot => .haltDrainComplete core slot
  | .fenceComplete core slot => .fenceComplete core slot
  | .taskendComplete core slot => .taskendComplete core slot
  | .unitWaitEnd core slot => .unitWaitEnd core slot
  | .ringWaitEnd core slot => .ringWaitEnd core slot
  | .stripReady core slot => .stripReady core slot
  | .copyQueuePlaceFree core slot => .copyQueuePlaceFree core slot
  | .timerExpiry core slot => .timerExpiry core slot
  | .sleepTimeout core slot => .sleepTimeout core slot
  | .istSwitch core => .istSwitch core
  | .coreBank core => .coreBank core
  | .restartEnd core => .restartEnd core
  | .publishedBundleArrive core slot bun => .publishedBundleArrive core slot bun
  | .joinRequestArrive core slot tid => .joinRequestArrive core slot tid
  | .subscrRefusalArrive core slot => .subscrRefusalArrive core slot
  | .rdvReportArrive core slot tid => .rdvReportArrive core slot tid
  | .rdvCompletionArrive core slot fin skew => .rdvCompletionArrive core slot fin skew
  | .membershipNoticeArrive core slot tid note => .membershipNoticeArrive core slot tid note
  | .publishEndArrive core slot chan => .publishEndArrive core slot chan
  | .remoteRequestArrive core msg => .remoteRequestArrive core msg
  | .builtinRequestPerform core => .builtinRequestPerform core
  | .remoteReply core rep => .remoteReply core rep
  | .feWithdrawalArrive core src slot => .feWithdrawalArrive core src slot
  | .handlerStart core => .handlerStart core
  | .pushArrive push => .pushArrive push
  | .pushAckArrive push => .pushAckArrive push
  | .pushRefusalArrive push => .pushRefusalArrive push
  | .stealRequestArrive core req => .stealRequestArrive core req
  | .stealAnswerArrive core slot why ans => .stealAnswerArrive core slot why ans
  | .dieQueueRequest die req => .dieQueueRequest die req
  | .dqpopPass core slot => .dqpopPass core slot
  | .joinCounterUpdate core addr up => .joinCounterUpdate core addr up
  | .cancelArrive core gang tag => .cancelArrive core gang tag
  | .cancellComplete core slot => .cancellComplete core slot
  | .accumulatorClear core => .accumulatorClear core
  | .mmaStepStart core => .mmaStepStart core
  | .mmaStepRetire core => .mmaStepRetire core
  | .matrixOpComplete core => .matrixOpComplete core
  | .sequencerIssue core => .sequencerIssue core
  | .sequenceEnd core => .sequenceEnd core
  | .scanTileRow core => .scanTileRow core
  | .scnfixRow core => .scnfixRow core
  | .flueMessageArrive core msg => .flueMessageArrive core msg
  | .flueDeferredSend core => .flueDeferredSend core
  | .flueOperationComplete core => .flueOperationComplete core
  | .copyCommandStart core queue => .copyCommandStart core queue
  | .copyCommandComplete core queue => .copyCommandComplete core queue
  | .copyRingPushDeferred core queue => .copyRingPushDeferred core queue
  | .mcastTargetComplete core queue rank => .mcastTargetComplete core queue rank
  | .buffreeCredit core slot tag => .buffreeCredit core slot tag
  | .streamRefill core unit => .streamRefill core unit
  | .streamDrain core unit => .streamDrain core unit
  | .portStripArrive core port strip last src slot id => .portStripArrive core port strip last src slot id
  | .messageArrive core slot msg => .messageArrive core slot msg
  | .mailboxHeldEntry core slot => .mailboxHeldEntry core slot
  | .uliDeliver core slot => .uliDeliver core slot
  | .caddyQuery core slot counter addr => .caddyQuery core slot counter addr
  | .caddyAnswer core slot addr ans => .caddyAnswer core slot addr ans
  | .pageFault core eng unit va wr reason => .pageFault core eng unit va wr reason
  | .wakeArrive fid tid => .wakeArrive fid tid
  | .engineEccError core eng unit tid va => .engineEccError core eng unit tid va
  | .preemptArrive core => .preemptArrive core
  | .slot15Restart core => .slot15Restart core
  | .rankMove gang rank spx => .rankMove gang rank spx
  | .cowCopy ctx va => .cowCopy ctx va
  | .frameReturn frame => .frameReturn frame
  | .laneSpare die => .laneSpare die
  | .flitRetry kind link => .flitRetry kind link
  | .linkFail die => .linkFail die
  | .linkHeal die => .linkHeal die
  | .memoryLinkFail die => .memoryLinkFail die
  | .cordLinkDrop link => .cordLinkDrop link
  | .cordAtomicArrive req => .cordAtomicArrive req
  | .cordAtomicTimeout seq => .cordAtomicTimeout seq
  | .cordTransferComplete xid => .cordTransferComplete xid
  | .cbarArrive bid pkg count => .cbarArrive bid pkg count
  | .saved core slot blk => .saved core slot blk
  | .restored core slot blk => .restored core slot blk
  | .gangfail core slot blk => .gangfail core slot blk
  | .caddy core slot blk => .caddy core slot blk
  | .cwrite core slot blk => .cwrite core slot blk
  | .cread core slot blk => .cread core slot blk
  | .catom core slot blk => .catom core slot blk
  | .cbar core slot blk => .cbar core slot blk
  | .sqtailWrite queue val => .sqtailWrite queue val
  | .entryAccept => .entryAccept
  | .sqctlEn queue val => .sqctlEn queue val
  | .sqctlRst queue => .sqctlRst queue
  | .wake val => .wake val
  | .fqcons val => .fqcons val
  | .hubRegisterWrite off val => .hubRegisterWrite off val
  | .launch e => .launch e
  | .gangPlace gang => .gangPlace gang
  | .launchDone gang => .launchDone gang
  | .copy e => .copy e
  | .pgfork e => .pgfork e
  | .cancel e => .cancel e
  | .kill e => .kill e
  | .killDrained ctx => .killDrained ctx
  | .queueFence e => .queueFence e
  | .signal e => .signal e
  | .cancelFaults e => .cancelFaults e
  | .preempt e => .preempt e
  | .resume e => .resume e
  | .commandFinish queue seq => .commandFinish queue seq
  | .hostMemWrite addr line => .hostMemWrite addr line
  | .hostMemRead addr => .hostMemRead addr
  | .powerOn => .powerOn
  | .perst => .perst
  | .bringUpStage => .bringUpStage
  | .rst => .rst
  | .svncommit => .svncommit
  | .pwrlimWrite val => .pwrlimWrite val
  | .mgmtRegisterWrite off val => .mgmtRegisterWrite off val
  | .firmwareImageLoad img svn keyok sigok => .firmwareImageLoad img svn keyok sigok
  | .powerSample mw amps temp => .powerSample mw amps temp
  | .clockStepChange => .clockStepChange
  | .scrub core addr => .scrub core addr
  | .getVersion => .getVersion
  | .getCapabilities => .getCapabilities
  | .negotiateAlgorithms extasym exthash => .negotiateAlgorithms extasym exthash
  | .getDigests => .getDigests
  | .getCertificate slot off len => .getCertificate slot off len
  | .challenge slot => .challenge slot
  | .getMeasurements idx signed => .getMeasurements idx signed
  | .spdmUnsupportedRequest code => .spdmUnsupportedRequest code
  | .spdmSignedResponse => .spdmSignedResponse
  | .cowCopyComplete ctx va => .cowCopyComplete ctx va
  | .scanImageStripWrite core => .scanImageStripWrite core
  | .replyCacheEntryAge link => .replyCacheEntryAge link
  | .retrainingEnd die => .retrainingEnd die
  | .changeoverEnd die => .changeoverEnd die

/-- Whether the package has the core, slot and die that a step names (R351, R352): 2,048 cores and 16 spares a die. -/
def eventOk (e : Event) : Bool :=
  match e with
  | .divideStart core => core < 2176
  | .divideComplete core => core < 2176
  | .haltDrainComplete core slot => core < 2176 && slot < 16
  | .fenceComplete core slot => core < 2176 && slot < 16
  | .taskendComplete core slot => core < 2176 && slot < 16
  | .unitWaitEnd core slot => core < 2176 && slot < 16
  | .ringWaitEnd core slot => core < 2176 && slot < 16
  | .stripReady core slot => core < 2176 && slot < 16
  | .copyQueuePlaceFree core slot => core < 2176 && slot < 16
  | .timerExpiry core slot => core < 2176 && slot < 16
  | .sleepTimeout core slot => core < 2176 && slot < 16
  | .istSwitch core => core < 2176
  | .coreBank core => core < 2176
  | .restartEnd core => core < 2176
  | .publishedBundleArrive core slot _ => core < 2176 && slot < 16
  | .joinRequestArrive core slot _ => core < 2176 && slot < 16
  | .subscrRefusalArrive core slot => core < 2176 && slot < 16
  | .rdvReportArrive core slot _ => core < 2176 && slot < 16
  | .rdvCompletionArrive core slot _ _ => core < 2176 && slot < 16
  | .membershipNoticeArrive core slot _ _ => core < 2176 && slot < 16
  | .publishEndArrive core slot _ => core < 2176 && slot < 16
  | .remoteRequestArrive core _ => core < 2176
  | .builtinRequestPerform core => core < 2176
  | .remoteReply core _ => core < 2176
  | .feWithdrawalArrive core _ slot => core < 2176 && slot < 16
  | .handlerStart core => core < 2176
  | .stealRequestArrive core _ => core < 2176
  | .stealAnswerArrive core slot _ _ => core < 2176 && slot < 16
  | .dieQueueRequest die _ => die < 8
  | .dqpopPass core slot => core < 2176 && slot < 16
  | .joinCounterUpdate core _ _ => core < 2176
  | .cancelArrive core _ _ => core < 2176
  | .cancellComplete core slot => core < 2176 && slot < 16
  | .accumulatorClear core => core < 2176
  | .mmaStepStart core => core < 2176
  | .mmaStepRetire core => core < 2176
  | .matrixOpComplete core => core < 2176
  | .sequencerIssue core => core < 2176
  | .sequenceEnd core => core < 2176
  | .scanTileRow core => core < 2176
  | .scnfixRow core => core < 2176
  | .flueMessageArrive core _ => core < 2176
  | .flueDeferredSend core => core < 2176
  | .flueOperationComplete core => core < 2176
  | .copyCommandStart core queue => core < 2176 && queue < 4
  | .copyCommandComplete core queue => core < 2176 && queue < 4
  | .copyRingPushDeferred core queue => core < 2176 && queue < 4
  | .mcastTargetComplete core queue _ => core < 2176 && queue < 4
  | .buffreeCredit core slot _ => core < 2176 && slot < 16
  | .streamRefill core unit => core < 2176 && unit < 8
  | .streamDrain core unit => core < 2176 && unit < 8
  | .portStripArrive core port _ _ _ slot _ => core < 2176 && port < 4 && slot < 16
  | .messageArrive core slot _ => core < 2176 && slot < 16
  | .mailboxHeldEntry core slot => core < 2176 && slot < 16
  | .uliDeliver core slot => core < 2176 && slot < 16
  | .caddyQuery core slot _ _ => core < 2176 && slot < 16
  | .caddyAnswer core slot _ _ => core < 2176 && slot < 16
  | .pageFault core _ _ _ _ _ => core < 2176
  | .engineEccError core _ _ _ _ => core < 2176
  | .preemptArrive core => core < 2176
  | .slot15Restart core => core < 2176
  | .saved core slot _ => core < 2176 && slot < 16
  | .restored core slot _ => core < 2176 && slot < 16
  | .gangfail core slot _ => core < 2176 && slot < 16
  | .caddy core slot _ => core < 2176 && slot < 16
  | .cwrite core slot _ => core < 2176 && slot < 16
  | .cread core slot _ => core < 2176 && slot < 16
  | .catom core slot _ => core < 2176 && slot < 16
  | .cbar core slot _ => core < 2176 && slot < 16
  | .scrub core _ => core < 2176
  | .scanImageStripWrite core => core < 2176
  | _ => true

end Sys2Proof.Machine
end

