-- ==== Sys2Proof/Machine/Cycle.lean ====
section
/-! DEFINITION. A cycle of the package: the steps that come before its issues, the steps of units whose conditions hold
after them, the services of its step 3 (R98, R224, R235), and its passing to the next. -/

namespace Sys2Proof.Machine

/-- A step that is due. -/
def due (b : Bool) (e : Event) : Option Event := if b then some e else none

/-- The first step that one of a core's slots is due. -/
def someSlot (f : Nat → Option Event) : Option Event := slotNums.findSome? f

/-- The cores touched so far, and those of them whose clocks run (R199, R200). -/
def State.listed (s : State) : List Nat := s.cores.map (·.1)
def State.running (s : State) : List Nat := (s.cores.filter fun e => !e.2.banked && e.2.restart.isNone).map (·.1)

/-! ### Conditions -/

/-- Whether a slot's SLEEP has lasted its time (R106). -/
def State.sleepOver (s : State) (i c : Nat) : Bool :=
  match (s.slot c i).held with
  | .sleep _ (some t) => t ≤ s.now
  | _ => false

/-- Whether a core's clock runs, or its slots' timers would start it (R200). -/
def State.timed (s : State) (c : Nat) : Bool := (s.core c).banked || s.awake c

/-- The operation that the free matrix unit starts in this cycle, as a step (R149, R153). -/
def State.unitStart (s : State) (c : Nat) : Option Event :=
  let x := s.core c
  if !x.canStart s.now then none
  else
    match x.nextOp with
    | some (.clear _, _) => some (.accumulatorClear c)
    | some _ => some (.mmaStepStart c)
    | none => none

/-- Whether the scan engine has a row of a tile to do; of an SCNFIX; a strip of an image (R246, R251, R258). -/
def State.rowDue (s : State) (c : Nat) : Bool := ((s.core c).scan.tiles.head?).any fun t => t.ready ≤ s.now
def State.fixDue (s : State) (c : Nat) : Bool :=
  (s.core c).scan.tiles.isEmpty && (s.core c).scan.fix.any fun t => t.ready ≤ s.now
def State.imageDue (s : State) (c : Nat) : Bool :=
  (s.core c).scan.tiles.isEmpty && (s.core c).scan.image.any fun t => t.2.2 ≤ s.now

/-- Whether a queue's engine has work to do, or a command to end (R285, R294, R295). -/
def State.copyEnds (s : State) (c q : Nat) : Bool := (s.copyDue c q).isSome || ((s.core c).endable q).isSome

/-! ### The steps at the end of a cycle -/

/-- The next step that a core's matrix unit, sequencer or slots are due. -/
def State.pollUnits (s : State) (c : Nat) : Option Event :=
  (someSlot fun i => due ((s.core c).ringReady (s.slot c i).held) (.ringWaitEnd c i))
    <|> s.unitStart c
    <|> due (s.seqWants c) (.sequencerIssue c)
    <|> due (s.core c).seqOver (.sequenceEnd c)
    <|> (someSlot fun i =>
      due (s.unitDue c i) (.unitWaitEnd c i)
        <|> due (s.fenceDone c i) (.fenceComplete c i)
        <|> due (s.haltDue c i) (.haltDrainComplete c i)
        <|> due (s.taskendReady c i) (.taskendComplete c i)
        <|> due (s.passDue c i) (.dqpopPass c i)
        <|> due (s.placeFree c i) (.copyQueuePlaceFree c i)
        <|> due (s.slot c i).heldDue (.mailboxHeldEntry c i)
        <|> due (s.stripDue c i) (.stripReady c i)
        <|> due (s.timed c && (s.slot c i).timerOut) (.timerExpiry c i))
    <|> due (s.handlerDue c) (.handlerStart c)

/-- The next step that a core's engines are due. -/
def State.pollEngines (s : State) (c : Nat) : Option Event :=
  due (s.rowDue c) (.scanTileRow c)
    <|> due (s.fixDue c) (.scnfixRow c)
    <|> due (s.imageDue c) (.scanImageStripWrite c)
    <|> due (s.flueFlush c (s.core c).scan.sends).isSome (.flueDeferredSend c)
    <|> due (s.flueStep c).isSome (.flueOperationComplete c)
    <|> ([0, 1, 2, 3].findSome? fun q =>
      due (s.nextCmd c q).isSome (.copyCommandStart c q)
        <|> due (s.copyEnds c q) (.copyCommandComplete c q)
        <|> ((s.mcastDue c q).map fun e => .mcastTargetComplete c q e.2)
        <|> due ((s.pushDue c q).isSome || (q = 0 && (s.receiverDue c).isSome)) (.copyRingPushDeferred c q)
        <|> (((s.core c).portDue q).map fun w => .portStripArrive c q w.strip.v w.strip.last w.src w.slot w.id))
    <|> ([0, 1, 2, 3, 4, 5, 6, 7].findSome? fun u =>
      due (s.refillDue c u) (.streamRefill c u) <|> due (s.drainDue c u) (.streamDrain c u))

/-- The next step that the hub is due. -/
def State.pollHub (s : State) : Option Event :=
  (s.hub.cancels.findSome? fun q =>
    match q.queue with
    | none => due (s.cancelDue q) (.cancellComplete q.core q.slot)
    | some k => if s.cancelDue q then (s.workOf k.1 k.2).map fun w => .cancel w.e else none)
    <|> (s.hub.dying.findSome? fun f => due (!s.frameUsed f) (.frameReturn f))
    <|> due s.acceptFrom.isSome .entryAccept
    <|> (s.nextWork.map fun w => cmdStep w.e)
    <|> (s.hub.work.findSome? fun w => due (s.resumeOver w) (.resume w.e))
    <|> (s.placeDue.map fun g => .gangPlace g)
    <|> (s.hub.gangs.findSome? fun g => due (s.doneDue g.2) (.launchDone g.1))
    <|> (s.hub.kills.findSome? fun k => due (s.killOver k) (.killDrained k))
    <|> s.sampleDue
    <|> s.listed.findSome? s.scrubDue

/-- The next SLEEP of a core whose time is over, which every message of the cycle comes before (R106). -/
def State.pollSleep (s : State) (c : Nat) : Option Event :=
  someSlot fun i => due (s.timed c && s.sleepOver i c) (.sleepTimeout c i)

/-- The next step whose condition holds in a cycle. -/
def State.poll (s : State) : Option Event :=
  s.listed.findSome? s.pollUnits <|> s.listed.findSome? s.pollEngines <|> s.pollHub <|> s.listed.findSome? s.pollSleep

/-- The next core to bank at the end of a cycle (R199). -/
def State.pollBank (s : State) : Option Event := s.listed.findSome? fun c => due (s.bankable c) (.coreBank c)

/-- The delivery of records to waiting DQPOPs, behind the cycle's deque operations (R224). -/
def State.takers (s : State) : State := s.running.foldl State.serveDeque s

/-- The services of a cycle, behind its slot accesses and engine writes: waiters of full words and JOINs (R98, R235). -/
def State.services (s : State) : State := s.running.foldl (fun s c => (s.serveWaiters c).serveJoins c) s

/-! ### Passing to the next cycle -/

/-- TIMER in the coming cycle (R28). -/
def Slot.tick (t : Slot) : Slot :=
  if t.st != .idle && t.timer.toNat % 2 ^ 63 != 0 then { t with timer := t.timer - 1 } else t

/-- Whether the table in force has an entry of a slot (R193). -/
def Core.listed (x : Core) (i : Nat) : Bool := (List.range 32).any fun e => x.names e i

/-- A bar after a cycle: YIELD's falls behind the slot's next entry, or behind 32 cycles where the slot has none (R105); that of an
interrupt's cycle, 0, falls with the cycle (R305). -/
def Core.unbar (x : Core) (now i : Nat) (t : Slot) : Slot :=
  match t.bar with
  | some lim =>
    if lim = 0 || (lim < now + 32 && x.names now i) || (lim ≤ now && !x.listed i) then { t with bar := none } else t
  | none => t

/-- The flags that a cycle's first steps gave a slot join its STICKY (R55). -/
def Core.late (x : Core) (i : Nat) (t : Slot) : Slot :=
  (x.flags.filter fun f => f.1 = i).foldl (fun t f => { t with sticky := t.sticky ||| f.2 }) t

/-- A core at the end of cycle `now` (R28, R55, R105, R201); the coming cycle counts as banked where the core is banked or
in its restart. -/
def Core.endCycle (x : Core) (now : Nat) : Core :=
  let parked := (slotNums.filter fun i => (x.slot i).st = .parked).length
  let off := x.banked || x.restart.isSome
  let x := ((x.count 12 parked).count 13 off.toNat).count 15 x.woken
  { x with
    busy := false, woken := 0, flags := [], zeroed := [], taken := x.taken.filter fun e => now < e.1
    engaged := false
    slots := x.slots.mapIdx fun i t => x.unbar now i (x.late i (if x.preempt then t else t.tick)) }

/-- Slot 15 learns of a record in its core's trap queue (R326). -/
def State.tellSystem (s : State) (c : Nat) : State :=
  if (s.core c).trapq.isEmpty then s
  else
    match (s.slot c 15).held with
    | .waitmsg _ => s.wake c 15
    | .sleep d _ => s.endSleep c 15 d
    | _ => s

/-- A slot whose stop awaited the end of its operation stops in the cycle after (R151, R192). -/
def State.lateStops (s : State) (c : Nat) : State :=
  slotNums.foldl (fun s i =>
    let t := s.slot c i
    if t.stop.isSome && (t.st = .ready || (t.held = .mma && !(s.core c).mmaStarted i)) then s.restop c i else s) s

/-- The steps that come before a cycle's issues: a table's switch, timers, interrupts, and the matrix unit's start (R28,
R149, R195, R305). -/
def State.earlySteps (s : State) (c : Nat) : List Event :=
  let x := s.core c
  (due (x.istDue s.now) (.istSwitch c)).toList
    ++ (slotNums.filter fun i => s.timed c && (s.slot c i).timerOut).map (fun i => .timerExpiry c i)
    ++ (slotNums.filter fun i => s.awake c && ((s.slot c i).uliDue i || (s.slot c i).timerOut)).map
      (fun i => .uliDeliver c i)
    ++ (s.unitStart c).toList

/-- Whether an event is a published bundle that falls due in the cycle that begins and whose path is not held: its
member may issue it in that cycle (R209). -/
def State.fallsDue (s : State) (e : Nat × Event) : Bool :=
  match e.2 with
  | .publishedBundleArrive _ _ _ => e.1 ≤ s.now && (s.heldBy e.2).isNone
  | _ => false

/-- The next cycle begins. -/
def State.endCycle (s : State) : State :=
  let s := s.running.foldl State.tellSystem s
  let s : State := { s with cores := s.cores.map (fun e => (e.1, e.2.endCycle s.now)), now := s.now + 1 }
  let s := s.listed.foldl State.lateStops s
  { s with
    turn := s.running
    early := ((s.agenda.filter s.fallsDue).map (·.2)) ++ s.listed.flatMap s.earlySteps
    agenda := s.agenda.filter fun e => !s.fallsDue e }

end Sys2Proof.Machine
end

