-- ==== Sys2Proof/Machine/Run.lean ====
section
/-! DEFINITION. What one step of the package is: a step that a cycle begins with, a core's issue, an event that has come
about, a step that a unit is due at the cycle's end, or the passing to the next cycle (log entry 2); and how a word is
placed for the next step to fetch. -/

namespace Sys2Proof.Machine

/-- The cores whose local stores an engine's step accesses (R25). -/
def State.engines (s : State) (e : Event) : List Nat :=
  let copy := fun (c q : Nat) => match (s.core c).runningCmd q with
    | some k => [c, s.sideCore c k.src, s.sideCore c k.dst]
    | none => [c]
  match e with
  | .copyCommandStart c q | .copyCommandComplete c q => copy c q
  | .mcastTargetComplete c q r => s.rankCore c r :: copy c q
  | .streamRefill c _ | .streamDrain c _ | .scanTileRow c | .scnfixRow c | .scanImageStripWrite c | .flueOperationComplete c
  | .mmaStepStart c | .matrixOpComplete c | .caddyAnswer c _ _ _ | .catom c _ _ => [c]
  | _ => []

/-- The engine accesses of a step are noted: a scrub leaves the cycle to them (R395). -/
def State.engage (s : State) (e : Event) : State :=
  (s.engines e).foldl (fun s c => s.modCore c fun x => { x with engaged := true }) s

/-- A step of a unit, the hub, the host or the controller, with its engine's accesses noted (R395); one that names what the
package does not have is no input. -/
noncomputable def State.take (s : State) (e : Event) : Host.Outcome State Fault Refusal :=
  if eventOk e then exec (instrOf e) (s.engage e) else .fault .noSuchUnit

/-- A message whose path is held waits on its link (R358, R359); any other event comes about. -/
noncomputable def State.takeDue (s : State) (e : Event) : Host.Outcome State Fault Refusal :=
  match s.heldBy e with
  | some d => .next { s with hub := { s.hub with wires := s.hub.wires ++ [(d, e)] } }
  | none => s.take e

/-- The end of a cycle: what a unit is due; then step 3's services, and what a unit is due for them or a core that banks;
or else the next cycle (R98). -/
noncomputable def State.closeCycle (s : State) : Host.Outcome State Fault Refusal :=
  let s := s.takers
  match s.poll with
  | some e => s.take e
  | none =>
    let s := s.services
    match s.poll <|> s.pollBank with
    | some e => s.take e
    | none => .next s.endCycle

/-- One step of the package. -/
noncomputable def State.advance (s : State) : Host.Outcome State Fault Refusal :=
  match s.early, s.turn with
  | e :: l, _ => State.take { s with early := l } e
  | [], c :: l => State.issueCore { s with turn := l } c
  | [], [] =>
    match s.agenda with
    | (t, e) :: l => if t ≤ s.now then State.takeDue { s with agenda := l } e else s.closeCycle
    | [] => s.closeCycle

/-! ### Placing a word -/

/-- The code segment of a placed word: the whole local store, LOCAL, with the fetch right (R15). -/
def placedSeg : W128 := BitVec.ofNat 128 (0xFFFFF * 2 ^ 80 + 2 ^ 10 + 4)

/-- Slot 0 as it is to be for its bundle at offset 0 to be the next issued. -/
def Slot.placed (t : Slot) : Slot :=
  { t with
    pc := 0, st := .ready, held := .none, stop := none, mst := .none, pub := false, last := none, bar := none, due := []
    sg := t.sg.set 7 placedSeg }

/-- Core 0 as it is to be for slot 0 to issue in cycle `now` a bundle that stands at local address 0. -/
def Core.placed (x : Core) (now bundle : Nat) : Core :=
  let x := x.wr 0 8 bundle
  { x with
    banked := false, restart := none, ist := vset x.ist (now % 32) 0x80, seqr := { x.seqr with lost := false }
    slots := x.slots.mapIdx fun i t => if i = 0 then t.placed else { t with due := [] } }

/-- The state in which the next step issues a bundle at core 0, slot 0 (log entry 10): its word at the head of the local
store, which is slot 0's code segment, and the cycle's entry slot 0's. -/
def State.place (s : State) (bundle : Nat) : State :=
  { s.modCore 0 fun x => x.placed s.now bundle with early := [], turn := [0] }

end Sys2Proof.Machine
end

