-- ==== Sys2Proof/Machine/Step.lean ====
section
/-! DEFINITION. The step of the machine, and the state in which it runs a given word. -/

namespace Sys2Proof.Machine

/-- One step of the package. -/
noncomputable def step (s : State) : Host.Outcome State Fault Refusal := s.advance

/-- The state whose next step fetches and runs the instruction of a table word (log entry 10). -/
noncomputable def State.withFetchWord (s : State) (nbits w : Nat) : State := s.place (tableBundle nbits w)

end Sys2Proof.Machine
end

