-- ==== Sys2Proof/Safety.lean ====
section
/-! DEFINITION. The terms in which claims are stated: what counts as a step that goes on, a bundle that takes effect,
and a bundle that traps. -/

namespace Sys2Proof.Machine

/-- The outcome of an instruction. -/
abbrev Out := Host.Outcome State Fault Refusal

/-- A step that goes on: neither a fault of the model nor a refusal. -/
def Goes (o : Out) : Prop := ∃ t, o = .next t

/-- The executing slot is one of its core's sixteen (R12). -/
abbrev State.Able (s : State) : Prop := s.cur.2 < 16

/-- No sequence of the executing slot takes its V syllables: it owns no repetition buffer, or neither captures, nor runs
a sequence, nor has a fault of one to hear of (R158, R162, R164). -/
def State.Direct (s : State) : Prop :=
  s.my.seqr.owner ≠ some s.cur.2 ∨ (s.my.seqr.want = 0 ∧ s.my.seqr.run = false ∧ s.my.seqr.fault = none)

/-- The state in which the executing slot's bundle has issued: its core is as `x` but for the slot, which is as `u` with
its latest issue now, and one more in ISSUED (R54, R196, R201). Nothing else changes. -/
def State.wentOn (s : State) (x : Core) (u : Slot) : State :=
  s.setCore s.cur.1 ((x.setSlot s.cur.2 { u with last := some s.now }).count 8 1)

/-- A slot with its PC behind its bundle (R57). -/
def Slot.next (u : Slot) (pc : W64) : Slot := { u with pc := pc + 8 }

/-- The state in which a bundle has issued that changes its own slot alone: the slot is as `u`, and its PC behind the
bundle. -/
def State.put (s : State) (u : Slot) : State := s.wentOn s.my (u.next s.me.pc)

/-- The state in which a bundle has issued whose slot then awaits an operation, to go on behind the bundle (R190): the
core is otherwise as `x`. -/
def State.awaits (s : State) (x : Core) (st : SlotSt) (h : Held) : State :=
  s.wentOn x { s.me with st := st, held := h, npc := s.me.pc + 8 }

/-- A slot in whose STICKY the flags of result elements are set (R27, R53). -/
def Slot.flagged (t : Slot) (fs : List Flg) : Slot :=
  { t with sticky := t.sticky ||| fs.foldl (fun b f => b ||| f.bits) 0 }

/-- A core whose counters 0 to 5 have counted the flags of result elements (R54). -/
def Core.flagged (x : Core) (fs : List Flg) : Core :=
  let n := fun (f : Flg → Bool) => (fs.filter f).length
  (((((x.count 0 (n (·.gen))).count 1 (n (·.inf))).count 2 (n (·.ovf))).count 3 (n (·.ufl))).count 4 (n (·.sat))).count 5
    (n (·.bx))

/-- The state in which a V syllable's bundle has issued: its slot is as `u`, behind the bundle, and the flags of its
result elements are set and counted. -/
def State.vput (s : State) (u : Slot) (fs : List Flg) : State :=
  s.wentOn (s.my.flagged fs) ((u.flagged fs).next s.me.pc)

/-- The state in which a V syllable has written the active elements of width `w` of v[d] with `f` (R109). -/
def State.vlanes (s : State) (d w : Nat) (mk : W32) (f : Nat → Nat × Flg) : State :=
  s.vput (s.me.wv d (mergeElems w mk (s.me.rv d) fun e => (f e).1))
    (((List.range (1024 / w)).filter fun e => active mk w e).map fun e => (f e).2)

/-- No register of a list is bound to a stream of the executing slot (R91, R306). -/
def State.plain (s : State) (rs : List Nat) : Prop := ∀ r ∈ rs, s.bound s.cur.1 s.cur.2 r = none

/-- An S syllable or long form in a bundle of its own goes on from every state that meets `ok`, to `post` of the state in
which an open capture of the slot has recorded the bundle's VNOP (R158). -/
def SGoes (i : Instr) (ok : State → Prop) (post : State → State) : Prop :=
  i.wf = true → ∀ s : State, s.Able → ok s → exec i s = .next (post (s.capture 0))

/-- A V syllable in a bundle of its own goes on from every state that meets `ok`, to `post` of that state, where no
sequence of the slot takes it. -/
def VGoes (i : Instr) (ok : State → Prop) (post : State → State) : Prop :=
  i.wf = true → ∀ s : State, s.Able → s.Direct → ok s → exec i s = .next (post s)

/-- A step of a unit, the hub, the host or the controller goes on from every state that meets `ok`, to `post` of it. -/
def EGoes (i : Instr) (ok : State → Prop) (post : State → State) : Prop := ∀ s : State, ok s → exec i s = .next (post s)

/-- Every state. -/
def always (_ : State) : Prop := True

/-! ### Memory -/

/-- The local address that an offset through a segment of the executing slot names (R17). -/
def State.la (s : State) (sg : Nat) (off : Int) : Nat := ((sgBase (s.me.rsg sg) : Int) + off).toNat

/-- Seg finds an access LOCAL, aligned, within its limit and the local store, and allowed (R17). -/
def State.segOk (s : State) (sg : Nat) (off : Int) (size align : Nat) (kind : AccKind) : Prop :=
  let d := s.me.rsg sg
  sgSpace d = 1 ∧ off % align = 0 ∧ 0 ≤ off ∧ off + size - 1 ≤ sgLimit d ∧ sgBase d + off + size ≤ 0x100000
    ∧ sgRights d kind = true

/-- A core that takes what arrives at once: neither banked nor restarting (R200). -/
def State.live (s : State) (c : Nat) : Prop :=
  (s.core c).banked = false ∧ ∀ t, (s.core c).restart = some t → t ≤ s.now

/-- A core to which something has come about in the cycle: it is not banked in it (R199). -/
def State.busied (s : State) (c : Nat) : State := s.setCore c { s.core c with busy := true }

/-- The wait of a slot has ended: it goes on behind its bundle, its core being else as `x`, and WAKES has counted it
(R191, R201). -/
def State.woken (s : State) (c i : Nat) (x : Core) (t : Slot) : State := s.setCore c ((x.setSlot i t.wake).count 15 1)

/-! ### Frames -/

/-- Outside the cores nothing has changed but what a correction counts in CECNT (R394), and no core but the executing slot's
has. -/
def State.others (s t : State) : Prop :=
  (∀ c, c ≠ s.cur.1 → t.core c = s.core c) ∧ t.now = s.now ∧ t.agenda = s.agenda ∧ t.dieq = s.dieq ∧ t.hub = s.hub
    ∧ t.hbm = s.hbm ∧ t.host = s.host ∧ { t.mg with cecnt := s.mg.cecnt } = s.mg
    ∧ ∀ k, k ≠ s.cur.2 → t.slot s.cur.1 k = s.slot s.cur.1 k

/-- A core but for its slots, its event counters, an open capture, its memory and the words with an error. -/
def Core.bare (x : Core) : Core :=
  { x with slots := Core.reset.slots, ev := Core.reset.ev, seqr := Core.reset.seqr, mem := [], err1 := [], err2 := [] }

/-- A slot but for its PC and the cycle of its latest issue, which is for R196 alone. -/
def Slot.bare (t : Slot) : Slot := { t with pc := 0, last := none }

/-- The scalar registers of a slot, those of its shadow bank among them, but for s[d]; none where `d` is 64. -/
def Slot.sameS (t u : Slot) (d : Nat) : Prop :=
  (∀ r, r < 64 → r ≠ d → u.rs r = t.rs r) ∧ (t.ua = false → u.sh = t.sh) ∧ (t.ua = true → 56 ≤ d → u.s = t.s)
    ∧ ∀ r, r < 64 → r ≠ d → vget u.s r 0 = vget t.s r 0

/-- Every byte of memory reads as before, but those of the executing core's local store from `a` to `a + n - 1`. -/
def State.sameBytes (s t : State) (a n : Nat) : Prop :=
  (∀ c x, (c ≠ s.cur.1 ∨ x < a ∨ a + n ≤ x) → Memory.get (t.core c).mem x = Memory.get (s.core c).mem x)
    ∧ (∀ x, Memory.get t.hbm x = Memory.get s.hbm x) ∧ ∀ x, Memory.get t.host x = Memory.get s.host x

/-! ### Invariants -/

/-- Every memory is in its canonical form, and the cores are listed by rising id. -/
def State.canonical (s : State) : Prop :=
  (s.cores.map (·.1)).Pairwise (· < ·) ∧ (∀ e ∈ s.cores, Memory.wf e.2.mem = true) ∧ Memory.wf s.hbm = true
    ∧ Memory.wf s.host = true

/-! ### Traps -/

/-- A slot below 15 that can stop where it stands: it has no relaxed access out, belongs to no channel, is not being cancelled and
captures nothing (R158, R192, R217, R237). -/
def State.calm (s : State) : Prop :=
  s.cur.2 < 15 ∧ s.me.relaxed = [] ∧ s.me.mst = .none ∧ s.me.doomed = false ∧ (s.my.seqr.owner ≠ some s.cur.2 ∨ s.my.seqr.want = 0)

/-- The executing slot has stopped at its PC: TCAUSE tells why, and the slot's record stands in its core's trap queue behind those
of earlier cycles, and by slot number among those of this one (R26, R326). The counter that free values are taken from has moved on. -/
def State.haltedBy (s : State) (tc : W64) : State :=
  let t : Slot := { s.me with st := .stopped, held := .none, stop := none, rdv := none, stopped := some s.now, tcause := tc }
  let q := trapPut ⟨s.cur.2, tc, s.me.pc, s.now⟩ (s.my.trapq.filter fun r => r.slot != s.cur.2)
  { s.setCore s.cur.1 { s.my.setSlot s.cur.2 t with trapq := q } with
    nonce := s.nonce + 1 }

/-- The bundle of the executing slot traps in this outcome (R26, R71): the slot stops with a cause and a detail, and the
machine is else as takeTrap leaves it. -/
def Traps (o : Out) (s : State) (cause : Nat) (detail : W32) (vhalf : Bool) : Prop :=
  o = .next (s.takeTrap cause detail vhalf false)

end Sys2Proof.Machine
end

