-- ==== Sys2Proof/Certificates/Slice0/Obligations.lean ====
section
/-! DEFINITION. The statements for the provers. -/

open Sys2Proof Sys2Proof.Machine


/-- R83, R85, R86: the instructions with one scalar source, or an immediate operand, write their result to s[d] and go on.

R83: the instructions with two scalar sources write their result to s[d] and go on.

R83: the number of leading zeros, of trailing zeros and of 1 bits, each told by the bits of s[a], and the bits in
reverse order. -/
def Obligations.ScalarArithmetic : Prop :=
  (∀ (d a : BitVec 6) (imm : BitVec 12) (n : BitVec 6) (l : BitVec 32) (sg : BitVec 3) (o : BitVec 8),
    let W := fun (i : Instr) (f : Slot → W64) => SGoes i always fun s => s.put (s.me.ws d.toNat (f s.me))
    W (.addi d a imm) (fun t => t.rs a.toNat + imm.signExtend 64)
    ∧ W (.andi d a imm) (fun t => t.rs a.toNat &&& imm.signExtend 64)
    ∧ W (.ori d a imm) (fun t => t.rs a.toNat ||| imm.signExtend 64)
    ∧ W (.xori d a imm) (fun t => t.rs a.toNat ^^^ imm.signExtend 64)
    ∧ W (.shli d a n) (fun t => BitVec.ofNat 64 ((t.rs a.toNat).toNat * 2 ^ n.toNat))
    ∧ W (.shri d a n) (fun t => BitVec.ofNat 64 ((t.rs a.toNat).toNat / 2 ^ n.toNat))
    ∧ W (.srai d a n) (fun t => BitVec.ofInt 64 ((t.rs a.toNat).toInt / 2 ^ n.toNat))
    ∧ W (.sext d a n) (fun t => ((t.rs a.toNat).setWidth (n.toNat + 1)).signExtend 64)
    ∧ W (.zext d a n) (fun t => ((t.rs a.toNat).setWidth (n.toNat + 1)).setWidth 64)
    ∧ W (.movl d l) (fun _ => l.signExtend 64)
    ∧ W (.movhi d l) (fun t => l ++ (t.rs d.toNat).setWidth 32)
    ∧ W (.lea d a sg o) (fun t =>
        BitVec.ofInt 64 ((sgBase (t.rsg sg.toNat) : Int) + (t.rs a.toNat).toInt + (o.signExtend 64).toInt)))
  ∧ (∀ (d a b : BitVec 6) (p : BitVec 3),
    let W := fun (i : Instr) (f : W64 → W64 → W64) =>
      SGoes i always fun s => s.put (s.me.ws d.toNat (f (s.rs a.toNat) (s.rs b.toNat)))
    W (.add d a b) (fun x y => BitVec.ofNat 64 (x.toNat + y.toNat))
    ∧ W (.sub d a b) (fun x y => BitVec.ofInt 64 (x.toInt - y.toInt))
    ∧ W (.mul d a b) (fun x y => BitVec.ofNat 64 (x.toNat * y.toNat))
    ∧ W (.mulh d a b) (fun x y => BitVec.ofInt 64 (x.toInt * y.toInt / 2 ^ 64))
    ∧ W (.mulhn d a b) (fun x y => BitVec.ofNat 64 (x.toNat * y.toNat / 2 ^ 64))
    ∧ W (.and d a b) (fun x y => x &&& y)
    ∧ W (.or d a b) (fun x y => x ||| y)
    ∧ W (.xor d a b) (fun x y => x ^^^ y)
    ∧ W (.andn d a b) (fun x y => x &&& ~~~y)
    ∧ W (.shl d a b) (fun x y => BitVec.ofNat 64 (x.toNat * 2 ^ (y.toNat % 64)))
    ∧ W (.shr d a b) (fun x y => BitVec.ofNat 64 (x.toNat / 2 ^ (y.toNat % 64)))
    ∧ W (.sra d a b) (fun x y => BitVec.ofInt 64 (x.toInt / 2 ^ (y.toNat % 64)))
    ∧ W (.rotr d a b) (fun x y => x >>> (y.toNat % 64) ||| x <<< ((64 - y.toNat % 64) % 64))
    ∧ W (.min d a b) (fun x y => if x.toInt ≤ y.toInt then x else y)
    ∧ W (.max d a b) (fun x y => if x.toInt ≤ y.toInt then y else x)
    ∧ W (.minn d a b) (fun x y => if x.toNat ≤ y.toNat then x else y)
    ∧ W (.maxn d a b) (fun x y => if x.toNat ≤ y.toNat then y else x)
    ∧ SGoes (.sel d a b p) always fun s =>
        s.put (s.me.ws d.toNat (if p = 0 ∨ s.me.p.getLsbD p.toNat then s.rs a.toNat else s.rs b.toNat)))
  ∧ ∀ (d a : BitVec 6) (s : State), s.Able →
    (∃ n, n ≤ 64 ∧ exec (.clz d a) s = .next ((s.capture 0).put (s.me.ws d.toNat (BitVec.ofNat 64 n)))
      ∧ (∀ k, k < n → (s.rs a.toNat).getLsbD (63 - k) = false) ∧ (n < 64 → (s.rs a.toNat).getLsbD (63 - n) = true))
    ∧ (∃ n, n ≤ 64 ∧ exec (.ctz d a) s = .next ((s.capture 0).put (s.me.ws d.toNat (BitVec.ofNat 64 n)))
      ∧ (∀ k, k < n → (s.rs a.toNat).getLsbD k = false) ∧ (n < 64 → (s.rs a.toNat).getLsbD n = true))
    ∧ exec (.popc d a) s = .next ((s.capture 0).put (s.me.ws d.toNat
        (BitVec.ofNat 64 ((List.range 64).filter fun k => (s.rs a.toNat).getLsbD k).length)))
    ∧ ∃ r : W64, exec (.brev d a) s = .next ((s.capture 0).put (s.me.ws d.toNat r))
        ∧ ∀ k, k < 64 → r.getLsbD k = (s.rs a.toNat).getLsbD (63 - k)

/-- R84: BEXT gathers the bits that a mask selects, and BDEP scatters bits to where a mask selects: bit j of the one is
the bit of the other at the mask's j-th set position. -/
def Obligations.BitGatherAndScatter : Prop :=
  ∀ (d a b : BitVec 6) (s : State), s.Able →
    let at_ := fun k => ((List.range k).filter fun j => (s.rs b.toNat).getLsbD j).length
    let m := ((List.range 64).filter fun j => (s.rs b.toNat).getLsbD j).length
    (∃ r : W64, exec (.bext d a b) s = .next ((s.capture 0).put (s.me.ws d.toNat r))
      ∧ (∀ k, k < 64 → (s.rs b.toNat).getLsbD k = true → r.getLsbD (at_ k) = (s.rs a.toNat).getLsbD k)
      ∧ ∀ j, m ≤ j → r.getLsbD j = false)
    ∧ ∃ r : W64, exec (.bdep d a b) s = .next ((s.capture 0).put (s.me.ws d.toNat r))
      ∧ ∀ k, k < 64 → r.getLsbD k = ((s.rs b.toNat).getLsbD k && (s.rs a.toNat).getLsbD (at_ k))

/-- R87, R88: a divide enters its core's unit with its result fixed, its slot PARKED; a free unit works on it for 22
cycles, whose last is 21 cycles from now.

R88: in the last cycle of a divide its result is written and its slot becomes READY; a waiting operation starts in the
cycle after. -/
def Obligations.Divide : Prop :=
  (∀ (d a b : BitVec 6),
    let W := fun (i : Instr) (f : W64 → W64 → W64) => SGoes i always fun s =>
      let q : DivOp := ⟨s.cur.2, d.toNat, f (s.rs a.toNat) (s.rs b.toNat)⟩
      if s.my.div = [] ∧ s.my.divEnd = none then
        (s.after 21 (.divideComplete s.cur.1)).awaits { s.my with div := [q], divEnd := some (s.now + 21) } .parked .divide
      else s.awaits { s.my with div := s.my.div ++ [q] } .parked .divide
    W (.div d a b) (fun x y => if y = 0 then BitVec.allOnes 64 else BitVec.ofInt 64 (x.toInt.tdiv y.toInt))
    ∧ W (.divn d a b) (fun x y => if y = 0 then BitVec.allOnes 64 else BitVec.ofNat 64 (x.toNat / y.toNat))
    ∧ W (.rem d a b) (fun x y => if y = 0 then x else BitVec.ofInt 64 (x.toInt - x.toInt.tdiv y.toInt * y.toInt))
    ∧ W (.remn d a b) (fun x y => if y = 0 then x else BitVec.ofNat 64 (x.toNat - x.toNat / y.toNat * y.toNat)))
  ∧ ∀ (c : Nat) (s : State),
    ((s.core c).div ≠ [] → (s.core c).divEnd = none →
      exec (.divideStart c) s = .next ((s.setCore c { s.core c with divEnd := some (s.now + 21) }).after 21 (.divideComplete c)))
    ∧ ∀ (q : DivOp) (l : List DivOp), q.slot < 16 → (s.core c).div = q :: l → (s.core c).divEnd = some s.now →
      ((s.slot c q.slot).ws q.d q.result).held = .divide → (s.core c).directMma q.slot = false →
      exec (.divideComplete c) s = .next
        (let u := s.setCore c (({ s.core c with div := l, divEnd := none }.setSlot q.slot
            ((s.slot c q.slot).ws q.d q.result).wake).count 15 1)
          if l = [] then u else u.after 1 (.divideStart c))

/-- R64, R89, R90: compares and predicate operations write a predicate, and a write to p0 is discarded.

R90, R101: the moves between scalar registers and predicates, masks, vector lanes and constants. A vector register that
is bound to a stream is another form. -/
def Obligations.ComparesPredicatesAndMoves : Prop :=
  (∀ (c p q r : BitVec 3) (a b : BitVec 6) (imm : BitVec 12), c.toNat ≤ 5 →
    let cond := fun (x y : W64) =>
      if c = 0 then decide (x = y) else if c = 1 then decide (x ≠ y) else if c = 2 then decide (x.toInt < y.toInt)
      else if c = 3 then decide (x.toInt ≥ y.toInt) else if c = 4 then decide (x.toNat < y.toNat) else decide (x.toNat ≥ y.toNat)
    let P := fun (i : Instr) (f : Slot → Bool) => SGoes i always fun s => s.put (s.me.wp p.toNat (f s.me))
    P (.cmp c p a b) (fun t => cond (t.rs a.toNat) (t.rs b.toNat))
    ∧ P (.cmpi c p a imm) (fun t => cond (t.rs a.toNat) (imm.signExtend 64))
    ∧ P (.pand p q r) (fun t => t.rp q.toNat && t.rp r.toNat)
    ∧ P (.por p q r) (fun t => t.rp q.toNat || t.rp r.toNat)
    ∧ P (.pxor p q r) (fun t => xor (t.rp q.toNat) (t.rp r.toNat)))
  ∧ ∀ (d a b : BitVec 6) (m : BitVec 3) (v : BitVec 5) (k : BitVec 12), k.toNat < 192 →
    SGoes (.ptos d) always (fun s =>
      s.put (s.me.ws d.toNat (BitVec.ofNat 64 (packN 1 (fun j => (s.me.rp j).toNat) 8))))
    ∧ SGoes (.mtos d m) always (fun s => s.put (s.me.ws d.toNat (BitVec.ofNat 64 (s.me.rm m.toNat).toNat)))
    ∧ SGoes (.stom m a) always (fun s => s.put (s.me.wm m.toNat (BitVec.ofNat 32 (s.rs a.toNat).toNat)))
    ∧ SGoes (.movk d k) always (fun s => s.put (s.me.ws d.toNat (vget s.my.k k.toNat 0)))
    ∧ SGoes (.movtk a k) always (fun s => s.wentOn { s.my with k := vset s.my.k k.toNat (s.rs a.toNat) } (s.me.next s.me.pc))
    ∧ SGoes (.vmovs d v b) (fun s => s.bound s.cur.1 s.cur.2 v.toNat = none) (fun s =>
        s.put (s.me.ws d.toNat (BitVec.ofNat 64 (VReg.elem (s.me.rv v.toNat) 32 ((s.rs b.toNat).toNat % 32)))))
    ∧ (∀ s : State, s.Able → s.bound s.cur.1 s.cur.2 v.toNat = none → ∃ x : VReg,
        exec (.smovv v a b) s = .next ((s.capture 0).put (s.me.wv v.toNat x))
        ∧ ∀ j, j < 32 → VReg.elem x 32 j =
          if j = (s.rs b.toNat).toNat % 32 then (s.rs a.toNat).toNat % 2 ^ 32 else VReg.elem (s.me.rv v.toNat) 32 j)
    ∧ ∀ s : State, s.Able → ∃ u : Slot, exec (.stop a) s = .next ((s.capture 0).put u)
        ∧ (∀ j, 1 ≤ j → j < 8 → u.rp j = (s.rs a.toNat).getLsbD j) ∧ u = { s.me with p := u.p }

/-- R114: the rounded sums, differences and products, elementwise.

R114, R115: the least and greatest, the operations on a sign, the class, rounding to an integral value, and the
special functions of R118, elementwise.
Where a clause rests on a choice of the model, it is that of log entry 5. -/
def Obligations.VectorFloat : Prop :=
  (∀ (d a b c : BitVec 5) (sc : BitVec 6) (m t : BitVec 3) (u : BitVec 2),
    let F := fFmt t.toNat
    let md := fMode t.toNat
    let G := fFmt2 u.toNat
    let bin := fun (i : Instr) (op : Fv → Fv → Fv) =>
      VGoes i (fun s => s.plain [d.toNat, a.toNat, b.toNat]) fun s => s.vlanes d.toNat F.width (s.me.rm m.toNat) fun e =>
        let x := F.val (VReg.elem (s.me.rv a.toNat) F.width e)
        let y := F.val (VReg.elem (s.me.rv b.toNat) F.width e)
        F.result md [x, y] (op x y)
    let sca := fun (i : Instr) (op : Fv → Fv → Fv) =>
      VGoes i (fun s => s.plain [d.toNat, a.toNat]) fun s => s.vlanes d.toNat F.width (s.me.rm m.toNat) fun e =>
        let x := F.val (VReg.elem (s.me.rv a.toNat) F.width e)
        let y := F.val ((s.rs sc.toNat).toNat % 2 ^ F.width)
        F.result md [x, y] (op x y)
    let fused := fun (i : Instr) (op : Fv → Fv → Fv → Fv) =>
      VGoes i (fun s => s.plain [d.toNat, a.toNat, b.toNat, c.toNat]) fun s =>
        s.vlanes d.toNat G.width (s.me.rm m.toNat) fun e =>
          let x := G.val (VReg.elem (s.me.rv a.toNat) G.width e)
          let y := G.val (VReg.elem (s.me.rv b.toNat) G.width e)
          let z := G.val (VReg.elem (s.me.rv c.toNat) G.width e)
          G.result .rne [x, y, z] (op x y z)
    bin (.vadd d a b m t) (fun x y => x.add md y)
    ∧ bin (.vsub d a b m t) (fun x y => x.add md y.neg)
    ∧ bin (.vmul d a b m t) (fun x y => x.mul y)
    ∧ sca (.vaddScalar d a sc m t) (fun x y => x.add md y)
    ∧ sca (.vsubScalar d a sc m t) (fun x y => x.add md y.neg)
    ∧ sca (.vmulScalar d a sc m t) (fun x y => x.mul y)
    ∧ fused (.vfma d a b c m u) (fun x y z => (x.mul y).add .rne z)
    ∧ fused (.vfms d a b c m u) (fun x y z => (x.mul y).add .rne z.neg)
    ∧ fused (.vfnma d a b c m u) (fun x y z => (x.mul y).neg.add .rne z))
  ∧ ∀ (d a b : BitVec 5) (m t : BitVec 3),
    let F := fFmt t.toNat
    let one := fun (i : Instr) (f : Nat → Nat × Flg) =>
      VGoes i (fun s => s.plain [d.toNat, a.toNat]) fun s => s.vlanes d.toNat F.width (s.me.rm m.toNat) fun e =>
        f (VReg.elem (s.me.rv a.toNat) F.width e)
    let two := fun (i : Instr) (f : Nat → Nat → Nat × Flg) =>
      VGoes i (fun s => s.plain [d.toNat, a.toNat, b.toNat]) fun s => s.vlanes d.toNat F.width (s.me.rm m.toNat) fun e =>
        f (VReg.elem (s.me.rv a.toNat) F.width e) (VReg.elem (s.me.rv b.toNat) F.width e)
    two (.vmin d a b m t) (fun x y =>
      if (F.val x).isNan || (F.val y).isNan then (F.qnan, { nan := true }) else (if (F.val x).ltz (F.val y) then x else y, {}))
    ∧ two (.vmax d a b m t) (fun x y =>
      if (F.val x).isNan || (F.val y).isNan then (F.qnan, { nan := true }) else (if (F.val y).ltz (F.val x) then x else y, {}))
    ∧ one (.vabs d a m t) (fun x => (x % 2 ^ (F.width - 1), {}))
    ∧ one (.vneg d a m t) (fun x => (if x < 2 ^ (F.width - 1) then x + 2 ^ (F.width - 1) else x - 2 ^ (F.width - 1), {}))
    ∧ one (.vclass d a m t) (fun x => (F.classOf x, {}))
    ∧ one (.vrndi d a m t) (fun x => F.integral (fMode t.toNat) x)
    ∧ one (.vrcp d a m t) (fun x => SpFn.rcp.eval F x)
    ∧ one (.vrsq d a m t) (fun x => SpFn.rsq.eval F x)
    ∧ one (.vexp2 d a m t) (fun x => SpFn.exp2.eval F x)
    ∧ one (.vlog2 d a m t) (fun x => SpFn.log2.eval F x)
    ∧ one (.vtanh d a m t) (fun x => SpFn.tanh.eval F x)
    ∧ one (.vsig d a m t) (fun x => SpFn.sig.eval F x)

/-- R117: conversions between formats. Narrowing reads 64 words of two vectors; a widening takes rounding code 0 alone, and
traps ILLCOMBO with another (R72).

R116, R122: compares write the active bits of a mask; a lane's bit is 1 where the condition holds of every element of
the lane, and an element of 64 bits gives both its lanes' bits. -/
def Obligations.VectorConversionsAndCompares : Prop :=
  (∀ (d a b : BitVec 5) (m t : BitVec 3),
    let md := fMode t.toNat
    let lane := fun (i : Instr) (w : Nat) (f : Nat → Nat × Flg) =>
      VGoes i (fun s => s.plain [d.toNat, a.toNat]) fun s => s.vlanes d.toNat 32 (s.me.rm m.toNat) fun e =>
        f (VReg.elem (s.me.rv a.toNat) w e)
    let narrow := fun (i : Instr) (F : Fmt) =>
      VGoes i (fun s => s.plain [d.toNat, a.toNat, b.toNat]) fun s => s.vlanes d.toNat 16 (s.me.rm m.toNat) fun e =>
        let x := Fmt.f32.val (if e < 32 then VReg.elem (s.me.rv a.toNat) 32 e else VReg.elem (s.me.rv b.toNat) 32 (e - 32))
        F.result md [x] x
    narrow (.vcvtF16F32 d a b m t) .f16
    ∧ narrow (.vcvtBf16F32 d a b m t) .bf16
    ∧ lane (.vcvtF32F16 d a m 0) 16 (fun x => Fmt.f32.result .rne [Fmt.f16.val x] (Fmt.f16.val x))
    ∧ lane (.vcvtF32Bf16 d a m 0) 16 (fun x => Fmt.f32.result .rne [Fmt.bf16.val x] (Fmt.bf16.val x))
    ∧ lane (.vcvtI32F32 d a m t) 32 (fun x => Fv.toSat md true 32 (Fmt.f32.val x))
    ∧ lane (.vcvtN32F32 d a m t) 32 (fun x => Fv.toSat md false 32 (Fmt.f32.val x))
    ∧ lane (.vcvtF32I32 d a m t) 32 (fun x => Fmt.f32.result md [] (Fv.int (sgn 32 x)))
    ∧ lane (.vcvtF32N32 d a m t) 32 (fun x => Fmt.f32.result md [] (Fv.int x))
    ∧ (t ≠ 0 → ∀ s : State, s.Able → s.Direct → s.plain [d.toNat, a.toNat] →
        Traps (exec (.vcvtF32F16 d a m t) s) s cILLCOMBO 0 true ∧ Traps (exec (.vcvtF32Bf16 d a m t) s) s cILLCOMBO 0 true))
  ∧ ∀ (d : BitVec 3) (a b : BitVec 5) (m t : BitVec 3),
    let cmp := fun (i : Instr) (w : Nat) (holds : Nat → Nat → Bool) (fl : Nat → Nat → Flg) =>
      VGoes i (fun s => s.plain [a.toNat, b.toNat]) fun s =>
        let x := fun e => VReg.elem (s.me.rv a.toNat) w e
        let y := fun e => VReg.elem (s.me.rv b.toNat) w e
        let mk := s.me.rm m.toNat
        let bit := fun j => (List.range (1024 / w)).all fun e => if w * e / 32 ≤ j ∧ j ≤ (w * e + w - 1) / 32 then holds (x e) (y e) else true
        s.vput (s.me.wm d.toNat (mergeMask (laneMask mk w) (s.me.rm d.toNat) bit))
          (((List.range (1024 / w)).filter fun e => active mk w e).map fun e => fl (x e) (y e))
    let F := fFmt t.toNat
    let w := intWidth t.toNat
    let I := rdInt (iSigned t.toNat) w
    let flt := fun (i : Instr) (holds : Fv → Fv → Bool) => cmp i F.width (fun x y => holds (F.val x) (F.val y))
      fun x y => { nan := (F.val x).isNan || (F.val y).isNan }
    let int := fun (i : Instr) (holds : Int → Int → Bool) => cmp i w (fun x y => holds (I x) (I y)) fun _ _ => {}
    flt (.vcmpEq d a b m t) (fun x y => x.eq y)
    ∧ flt (.vcmpNe d a b m t) (fun x y => !x.eq y)
    ∧ flt (.vcmpLt d a b m t) (fun x y => x.lt y)
    ∧ flt (.vcmpLe d a b m t) (fun x y => x.lt y || x.eq y)
    ∧ flt (.vcmpUn d a b m t) (fun x y => x.isNan || y.isNan)
    ∧ flt (.vcmpOr d a b m t) (fun x y => !(x.isNan || y.isNan))
    ∧ int (.vcmpiEq d a b m t) (fun x y => x = y)
    ∧ int (.vcmpiNe d a b m t) (fun x y => x ≠ y)
    ∧ int (.vcmpiLt d a b m t) (fun x y => x < y)
    ∧ int (.vcmpiLe d a b m t) (fun x y => x ≤ y)

/-- R119: integer arithmetic, logic and shifts, elementwise; a shift's count is taken modulo the width. -/
def Obligations.VectorIntegerArithmetic : Prop :=
  ∀ (d a b : BitVec 5) (sc imm : BitVec 6) (m t : BitVec 3),
    let w := intWidth t.toNat
    let I := rdInt (iSigned t.toNat) w
    let bin := fun (i : Instr) (f : Nat → Nat → Nat × Flg) =>
      VGoes i (fun s => s.plain [d.toNat, a.toNat, b.toNat]) fun s => s.vlanes d.toNat w (s.me.rm m.toNat) fun e =>
        f (VReg.elem (s.me.rv a.toNat) w e) (VReg.elem (s.me.rv b.toNat) w e)
    let sca := fun (i : Instr) (f : Nat → Nat → Nat × Flg) =>
      VGoes i (fun s => s.plain [d.toNat, a.toNat]) fun s => s.vlanes d.toNat w (s.me.rm m.toNat) fun e =>
        f (VReg.elem (s.me.rv a.toNat) w e) ((s.rs sc.toNat).toNat % 2 ^ w)
    let cns := fun (i : Instr) (f : Nat → Nat → Nat × Flg) =>
      VGoes i (fun s => s.plain [d.toNat, a.toNat]) fun s => s.vlanes d.toNat w (s.me.rm m.toNat) fun e =>
        f (VReg.elem (s.me.rv a.toNat) w e) imm.toNat
    let add := fun x y => (wrap w (I x + I y), ({} : Flg))
    let sub := fun x y => (wrap w (I x - I y), ({} : Flg))
    let mul := fun x y => (wrap w (I x * I y), ({} : Flg))
    let min := fun x y => (wrap w (if I y < I x then I y else I x), ({} : Flg))
    let max := fun x y => (wrap w (if I x < I y then I y else I x), ({} : Flg))
    let sat := fun (v : Int) => (wrap w (satT (iSigned t.toNat) w v).1, ({ sat := (satT (iSigned t.toNat) w v).2 } : Flg))
    let shl := fun x y => (x * 2 ^ (y % w) % 2 ^ w, ({} : Flg))
    let shr := fun x y => (x / 2 ^ (y % w), ({} : Flg))
    let sra := fun x y => (wrap w (sgn w x / 2 ^ (y % w)), ({} : Flg))
    let rsh := fun x y => (wrap w (rshrRnd (I x) (y % w)), ({} : Flg))
    bin (.vaddi d a b m t) add ∧ bin (.vsubi d a b m t) sub ∧ bin (.vmuli d a b m t) mul
    ∧ bin (.vmulhi d a b m t) (fun x y => (wrap w (I x * I y / 2 ^ w), {}))
    ∧ bin (.vmini d a b m t) min ∧ bin (.vmaxi d a b m t) max
    ∧ bin (.vabsdi d a b m t) (fun x y => (wrap w (I x - I y).natAbs, {}))
    ∧ bin (.vand d a b m t) (fun x y => (x &&& y, {})) ∧ bin (.vor d a b m t) (fun x y => (x ||| y, {}))
    ∧ bin (.vxor d a b m t) (fun x y => (x ^^^ y, {}))
    ∧ cns (.vnot d a m t) (fun x _ => (2 ^ w - 1 - x, {}))
    ∧ bin (.vshl d a b m t) shl ∧ bin (.vshr d a b m t) shr ∧ bin (.vsra d a b m t) sra ∧ bin (.vrshr d a b m t) rsh
    ∧ bin (.vaddiSat d a b m t) (fun x y => sat (I x + I y)) ∧ bin (.vsubiSat d a b m t) (fun x y => sat (I x - I y))
    ∧ sca (.vaddiScalar d a sc m t) add ∧ sca (.vsubiScalar d a sc m t) sub ∧ sca (.vmuliScalar d a sc m t) mul
    ∧ sca (.vminiScalar d a sc m t) min ∧ sca (.vmaxiScalar d a sc m t) max
    ∧ cns (.vshlImm d a imm m t) shl ∧ cns (.vshrImm d a imm m t) shr ∧ cns (.vsraImm d a imm m t) sra
    ∧ cns (.vrshrImm d a imm m t) rsh

/-- R120, R121, R123: sums of products into each lane (another code than the instruction's own traps ILLCOMBO, R72),
narrowing with saturation, widening of either half, and bit counts. -/
def Obligations.VectorSumsAndWidths : Prop :=
  ∀ (d a b : BitVec 5) (m t : BitVec 3),
    let w := intWidth t.toNat
    let sg := iSigned t.toNat
    let I := rdInt sg
    let dot := fun (i : Instr) (sat : Bool) (v n : Nat) =>
      VGoes i (fun s => s.plain [d.toNat, a.toNat, b.toNat]) fun s => s.vlanes d.toNat 32 (s.me.rm m.toNat) fun j =>
        let z := I 32 (VReg.elem (s.me.rv d.toNat) 32 j) + ((List.range n).map fun k =>
          I v (VReg.elem (s.me.rv a.toNat) v (n * j + k)) * I v (VReg.elem (s.me.rv b.toNat) v (n * j + k))).sum
        if sat then (wrap 32 (satT sg 32 z).1, { sat := (satT sg 32 z).2 }) else (wrap 32 z, {})
    let one := fun (i : Instr) (v : Nat) (f : VReg → W32 → Nat → Nat) =>
      VGoes i (fun s => s.plain [d.toNat, a.toNat]) fun s => s.vlanes d.toNat v (s.me.rm m.toNat) fun e =>
        (f (s.me.rv a.toNat) (s.me.rm m.toNat) e, {})
    (t.toNat / 2 = 1 → dot (.vmac2 d a b m t) false 16 2 ∧ dot (.vmac2Sat d a b m t) true 16 2)
    ∧ (t.toNat / 2 = 2 → dot (.vdot4 d a b m t) false 8 4 ∧ dot (.vdot4Sat d a b m t) true 8 4)
    ∧ (∀ s : State, s.Able → s.Direct → s.plain [d.toNat, a.toNat, b.toNat] →
      (t.toNat / 2 ≠ 1 → Traps (exec (.vmac2 d a b m t) s) s cILLCOMBO 0 true
        ∧ Traps (exec (.vmac2Sat d a b m t) s) s cILLCOMBO 0 true)
      ∧ (t.toNat / 2 ≠ 2 → Traps (exec (.vdot4 d a b m t) s) s cILLCOMBO 0 true
        ∧ Traps (exec (.vdot4Sat d a b m t) s) s cILLCOMBO 0 true))
    ∧ VGoes (.vsatn d a b m t) (fun s => s.plain [d.toNat, a.toNat, b.toNat]) (fun s =>
        s.vlanes d.toNat w (s.me.rm m.toNat) fun e =>
          let x := if e < 512 / w then VReg.elem (s.me.rv a.toNat) (2 * w) e
            else VReg.elem (s.me.rv b.toNat) (2 * w) (e - 512 / w)
          (wrap w (satT sg w (sgn (2 * w) x)).1, { sat := (satT sg w (sgn (2 * w) x)).2 }))
    ∧ one (.vwidenLo d a m t) (2 * w) (fun x _ e => wrap (2 * w) (I w (VReg.elem x w e)))
    ∧ one (.vwidenHi d a m t) (2 * w) (fun x _ e => wrap (2 * w) (I w (VReg.elem x w (e + 512 / w))))
    ∧ one (.vpopc d a m t) w (fun x _ e => popcount (VReg.elem x w e) w)
    ∧ one (.vclz d a m t) w (fun x _ e => clzN (VReg.elem x w e) w)
    ∧ one (.vprepop d a m t) 32 (fun x mk j =>
        ((List.range j).map fun k => if mk.getLsbD k then popcount (VReg.elem x 32 k) 32 else 0).sum)

/-- R124: the operations that move words between lanes.

R130: VTOPK and VTOPK.nz merge the active candidates into the ordered list of v[d] and v[d+1] and keep as many as s54
asks for, 32 at most; the count reached is left in s54, and a place without an entry holds the type's lowest value and an
index of all ones. -/
def Obligations.VectorLaneMovesAndTopK : Prop :=
  (∀ (d a b : BitVec 5) (imm sc : BitVec 6) (m : BitVec 3),
    let one := fun (i : Instr) (f : VReg → W32 → Nat → Nat) =>
      VGoes i (fun s => s.plain [d.toNat, a.toNat]) fun s => s.vlanes d.toNat 32 (s.me.rm m.toNat) fun j =>
        (f (s.me.rv a.toNat) (s.me.rm m.toNat) j, {})
    let below := fun (mk : W32) (j : Nat) => ((List.range j).filter fun k => mk.getLsbD k).length
    one (.vslideUp d a imm m) (fun x _ j => if imm.toNat ≤ j then VReg.elem x 32 (j - imm.toNat) else 0)
    ∧ one (.vslideDn d a imm m) (fun x _ j => if j + imm.toNat < 32 then VReg.elem x 32 (j + imm.toNat) else 0)
    ∧ one (.vmov d a m) (fun x _ j => VReg.elem x 32 j)
    ∧ one (.vexpnd d a m) (fun x mk j => VReg.elem x 32 (below mk j))
    ∧ VGoes (.vperm d a b m) (fun s => s.plain [d.toNat, a.toNat, b.toNat]) (fun s =>
        s.vlanes d.toNat 32 (s.me.rm m.toNat) fun j =>
          let k := VReg.elem (s.me.rv b.toNat) 32 j
          (if k < 32 then VReg.elem (s.me.rv a.toNat) 32 k else 0, {}))
    ∧ VGoes (.vbcast d sc m) (fun s => s.plain [d.toNat]) (fun s =>
        s.vlanes d.toNat 32 (s.me.rm m.toNat) fun _ => ((s.rs sc.toNat).toNat % 2 ^ 32, {}))
    ∧ VGoes (.viota d m) (fun s => s.plain [d.toNat]) (fun s =>
        s.vlanes d.toNat 32 (s.me.rm m.toNat) fun j => (below (s.me.rm m.toNat) j, {}))
    ∧ VGoes (.vselv d a b m) (fun s => s.plain [d.toNat, a.toNat, b.toNat]) (fun s =>
        if s.me.rm m.toNat = 0 then s.put s.me
        else s.put (s.me.wv d.toNat (VReg.ofElems 32 fun j =>
          if (s.me.rm m.toNat).getLsbD j then VReg.elem (s.me.rv a.toNat) 32 j else VReg.elem (s.me.rv b.toNat) 32 j)))
    ∧ VGoes (.vcmprs d a m) (fun s => s.plain [d.toNat, a.toNat]) (fun s =>
        if s.me.rm m.toNat = 0 then s.put s.me
        else s.put (s.me.wv d.toNat (VReg.ofElems 32 fun j =>
          (((List.range 32).filter fun k => (s.me.rm m.toNat).getLsbD k).map fun k =>
            VReg.elem (s.me.rv a.toNat) 32 k).getD j 0))))
  ∧ ∀ (d a b : BitVec 5) (m t : BitVec 3),
    let top := fun (i : Instr) (nz : Bool) =>
      VGoes i (fun s => s.plain [d.toNat, d.toNat + 1, a.toNat, b.toNat]) fun s =>
        if s.me.rm m.toNat = 0 then s.put s.me
        else
          let listed := ((List.range 32).filter fun j => VReg.elem (s.me.rv (d.toNat + 1)) 32 j ≠ 0xFFFFFFFF).map fun j =>
            (⟨VReg.elem (s.me.rv d.toNat) 32 j, VReg.elem (s.me.rv (d.toNat + 1)) 32 j, true⟩ : TopEnt)
          let cand := ((List.range 32).filter fun j =>
            (s.me.rm m.toNat).getLsbD j ∧ VReg.elem (s.me.rv b.toNat) 32 j ≠ 0xFFFFFFFF).map fun j =>
              (⟨VReg.elem (s.me.rv a.toNat) 32 j, VReg.elem (s.me.rv b.toNat) 32 j, false⟩ : TopEnt)
          let nan := fun (p : TopEnt) => t = 0 ∧ (Fmt.f32.val p.bits).isNan = true
          let zero := fun (p : TopEnt) => if t = 0 then p.bits % 2 ^ 31 = 0 else p.bits = 0
          let l := ((listed ++ cand).filter fun p => ¬nan p ∧ (p.listed = true ∨ ¬(nz = true ∧ zero p))).foldl
            (fun l p => topInsert t.toNat p l) []
          let n := min (min ((s.rs 54).toNat % 64) 32) l.length
          let low := if t = 0 then 0xFF800000 else if t = 1 then 0x80000000 else 0
          let at_ := fun p => if p < n then l.getD p ⟨low, 0xFFFFFFFF, false⟩ else ⟨low, 0xFFFFFFFF, false⟩
          s.vput (((s.me.wv d.toNat (VReg.ofElems 32 fun p => (at_ p).bits)).wv (d.toNat + 1)
            (VReg.ofElems 32 fun p => (at_ p).idx)).ws 54 (BitVec.ofNat 64 n))
            (if (listed ++ cand).any fun p => nan p then [{ nan := true }] else [])
    top (.vtopk d a b m t) false ∧ top (.vtopkNz d a b m t) true

/-- R125, R126: a reduction over the active lanes fills every lane of v[d], and an inclusive scan of the active lanes
leaves the others as they were; a mask without a lane leaves v[d] as it was (R70).

R131, R132, R158: mask operations write whole masks; VNOP does nothing, and where a capture of the slot is open it is
recorded as word 0. -/
def Obligations.VectorReductionsScansAndMasks : Prop :=
  (∀ (d a : BitVec 5) (m t : BitVec 3),
    let words := fun (s : State) =>
      ((List.range 32).filter fun j => (s.me.rm m.toNat).getLsbD j).map fun j => VReg.elem (s.me.rv a.toNat) 32 j
    let red := fun (i : Instr) (f : State → Nat × Flg) =>
      VGoes i (fun s => s.plain [d.toNat, a.toNat]) fun s =>
        if s.me.rm m.toNat = 0 then s.put s.me
        else s.vput (s.me.wv d.toNat (VReg.ofElems 32 fun _ => (f s).1)) [(f s).2]
    let I := rdInt (iSigned t.toNat) 32
    let F := Fmt.f32
    let scan := fun (i : Instr) (first : Nat → Flg) (f : Nat → Nat → Nat × Flg) =>
      VGoes i (fun s => s.plain [d.toNat, a.toNat]) fun s => s.vlanes d.toNat 32 (s.me.rm m.toNat) fun j =>
        ((List.range (j + 1)).filter fun k => (s.me.rm m.toNat).getLsbD k).foldl (fun (r : Option Nat × Flg) k =>
          match r.1 with
          | none => (some (VReg.elem (s.me.rv a.toNat) 32 k), first (VReg.elem (s.me.rv a.toNat) 32 k))
          | some p => ((f p (VReg.elem (s.me.rv a.toNat) 32 k)).1, (f p (VReg.elem (s.me.rv a.toNat) 32 k)).2)) (none, {})
          |> fun r => (r.1.getD 0, r.2)
    red (.vredAddInt d a m t) (fun s => ((words s).sum % 2 ^ 32, {}))
    ∧ red (.vredMinInt d a m t) (fun s => ((words s).foldl (fun r x => if I x < I r then x else r) ((words s).headD 0), {}))
    ∧ red (.vredMaxInt d a m t) (fun s => ((words s).foldl (fun r x => if I r < I x then x else r) ((words s).headD 0), {}))
    ∧ red (.vredAddFloat d a m t) (fun s => treeSum (fMode t.toNat) (s.me.rm m.toNat) (s.me.rv a.toNat))
    ∧ red (.vredMinFloat d a m t) (fun s =>
        if (words s).any fun x => (F.val x).isNan then (F.qnan, { nan := true })
        else ((words s).foldl (fun r x => if (F.val r).ltz (F.val x) then r else x) ((words s).headD 0), {}))
    ∧ red (.vredMaxFloat d a m t) (fun s =>
        if (words s).any fun x => (F.val x).isNan then (F.qnan, { nan := true })
        else ((words s).foldl (fun r x => if (F.val x).ltz (F.val r) then r else x) ((words s).headD 0), {}))
    ∧ scan (.vscaniAddInt d a m t) (fun _ => {}) (fun p x => ((p + x) % 2 ^ 32, {}))
    ∧ scan (.vscaniMaxInt d a m t) (fun _ => {}) (fun p x => (if I p < I x then x else p, {}))
    ∧ scan (.vscaniAddFloat d a m t) (fun x => { nan := (F.val x).isNan }) (fun p x =>
        F.result (fMode t.toNat) [F.val p, F.val x] ((F.val p).add (fMode t.toNat) (F.val x))))
  ∧ ∀ (d a b : BitVec 3) (n : BitVec 10),
    let W := fun (i : Instr) (f : Slot → W32) => VGoes i always fun s => s.put (s.me.wm d.toNat (f s.me))
    W (.mand d a b) (fun t => t.rm a.toNat &&& t.rm b.toNat)
    ∧ W (.mor d a b) (fun t => t.rm a.toNat ||| t.rm b.toNat)
    ∧ W (.mxor d a b) (fun t => t.rm a.toNat ^^^ t.rm b.toNat)
    ∧ W (.mnot d a) (fun t => ~~~t.rm a.toNat)
    ∧ W (.mset d n) (fun _ => BitVec.ofNat 32 (2 ^ n.toNat - 1))
    ∧ SGoes .vnop always (fun s => s.put s.me)

/-- R128: VQNT quantises the active lanes of v[a] to block elements beside a scale; v[b] gives the row, the block, the column
and the control word. The block's 32 elements of v[d] are replaced, the scale is stored where the placement register puts
it, and for one scale per column group the block's bit of the placement bitmap is set or cleared.

R129: VDQNT gives each active lane of v[d] the value of a block element of v[a] under the scale in v[b].
Where a clause rests on a choice of the model, it is that of log entries 21 and 31. -/
def Obligations.VectorQuantiseAndDequantise : Prop :=
  (∀ (d a b : BitVec 5) (m t : BitVec 3),
    let bx4 : Bool := t = 1
    let ctl := fun (s : State) => VReg.elem (s.me.rv b.toNat) 32 4
    let fx := fun (s : State) => if ctl s / 2 % 2 = 1 then s.me.fxb else s.me.fxa
    let sp := fun (s : State) => if ctl s / 2 % 2 = 1 then s.me.spb else s.me.spa
    let blk := fun (s : State) => VReg.elem (s.me.rv b.toNat) 32 1
    let soff := fun (s : State) => spBase (sp s) + VReg.elem (s.me.rv b.toNat) 32 0 * spStr (sp s)
      + (if fxGrp (fx s) = 2 then 2 * VReg.elem (s.me.rv b.toNat) 32 2 else if fxGrp (fx s) = 1 then 0 else 2 * blk s)
    let woff := fun (s : State) => spBmap (sp s) + 4 * (blk s / 32)
    let place := fun (s : State) => (sgBase (s.me.rsg 0) + soff s, sgBase (s.me.rsg 0) + woff s)
    VGoes (.vqnt d a b m t) (fun s => s.plain [d.toNat, a.toNat, b.toNat] ∧ s.me.rm m.toNat ≠ 0 ∧ fxGrp (fx s) ≠ 3
        ∧ spTrap (fxGrp (fx s)) (sp s) (decide (ctl s / 2 % 2 = 1)) = none ∧ blk s ≤ 1023 ∧ s.my.err1 = [] ∧ s.my.err2 = []
        ∧ s.seg0 (soff s) 2 2 .store = .at (place s).1 ∧ (fxGrp (fx s) = 2 → s.seg0 (woff s) 4 4 .store = .at (place s).2))
      (fun s =>
        let lane := fun k => VReg.elem (s.me.rv b.toNat) 32 k
        let xs := (List.range 32).map fun i =>
          if (s.me.rm m.toNat).getLsbD i then Fmt.f32.val (VReg.elem (s.me.rv a.toNat) 32 i) else .fin false 0 0
        let ext : List Fv := (match Fmt.f32.val (lane 3) with
            | .fin _ k e => [.fin false k e]
            | x => [x]) ++ (if ctl s / 4 % 2 = 1 then [.nan] else []) ++ (if ctl s / 8 % 2 = 1 then [.inf false] else [])
        let q := quantise bx4 (fld s.me.fxc.toNat 4 4) xs ext
        let lo := if bx4 then blk s % 8 * 32 else blk s % 4 * 32
        let v := VReg.ofElems (bxWidth bx4) fun e =>
          if lo ≤ e ∧ e < lo + 32 then (q.1.getD (e - lo) (0, {})).1 else VReg.elem (s.me.rv d.toNat) (bxWidth bx4) e
        let old := s.my.rd (place s).2 4
        let bit := 2 ^ (blk s % 32)
        let x := if fxGrp (fx s) = 2 then
            s.my.wr (place s).2 4 (if ctl s % 2 = 1 then (if old / bit % 2 = 1 then old else old + bit)
              else if old / bit % 2 = 1 then old - bit else old)
          else s.my
        let fs := q.1.map (·.2)
        s.wentOn ((x.wr (place s).1 2 q.2).flagged fs) (((s.me.wv d.toNat v).flagged fs).next s.me.pc))
    ∧ VGoes (.vqnt d a b m t) (fun s => s.plain [d.toNat, a.toNat, b.toNat] ∧ s.me.rm m.toNat = 0) (fun s => s.put s.me))
  ∧ ∀ (d a b : BitVec 5) (m t : BitVec 3),
    let bx4 : Bool := t = 1
    VGoes (.vdqnt d a b m t) (fun s => s.plain [d.toNat, a.toNat, b.toNat]) fun s =>
      s.vlanes d.toNat 32 (s.me.rm m.toNat) fun i =>
        let blk := VReg.elem (s.me.rv b.toNat) 32 1
        let x := VReg.elem (s.me.rv a.toNat) (bxWidth bx4) ((if bx4 then blk % 8 else blk % 4) * 32 + i)
        Fmt.f32.result .rne [] (bxValue bx4 (Scale.read (VReg.elem (s.me.rv b.toNat) 32 0 % 2 ^ 16)) x)

/-- R158: while a capture of the slot is open, every V syllable that may be captured is recorded and has no other effect; VTOPK,
and an MMA whose format context holds a reserved code (R45, R147), trap ILLEGAL. -/
def Obligations.CaptureRecords : Prop :=
  ∀ (s : State), s.Able → s.my.seqr.owner = some s.cur.2 → s.my.seqr.want ≠ 0 → s.my.seqr.fault = none →
    let top := fun (i : Instr) => ∃ d a b m t, i = .vtopk d a b m t ∨ i = .vtopkNz d a b m t
    let mma := fun (i : Instr) => ∃ acc qa qb sat clr ha hb, i = .mma acc qa qb sat clr ha hb
    let t := s.me
    let grp := fun (x : W32) => fxBx x = true ∧ fxGrp x = 3
    let reserved := 4 < fxFmt t.fxa ∨ 4 < fxFmt t.fxb ∨ 1 < fxAcc t.fxc ∨ grp t.fxa ∨ grp t.fxb
    ∀ i : Instr, i.kind = .vector → i.wf = true →
      (¬top i → ¬(mma i ∧ reserved) →
        exec i s = .next (s.wentOn { s.my with seqr :=
          { s.my.seqr with syl := s.my.seqr.syl ++ [BitVec.ofNat 32 (encode i)], want := s.my.seqr.want - 1 } } (s.me.next s.me.pc)))
      ∧ (top i ∨ mma i ∧ reserved → Traps (exec i s) s cILLEGAL 0 true)

/-- R92, R93: a scalar load through a LOCAL segment writes s[d] with the bytes at its address, little-endian, extended; a
store writes its low bytes there. Single-bit errors of the words read are corrected (R20).

R17, R92: a scalar load or store through a LOCAL segment traps where Seg finds it at fault: ALIGN first, then
SEGLIMIT, then RIGHTS, with the offset as DETAIL; a segment of another space than LOCAL, REMOTE or POOL traps SPACE. -/
def Obligations.LoadsAndStores : Prop :=
  (∀ (d a : BitVec 6) (sg : BitVec 3) (rx : BitVec 1) (imm : BitVec 8),
    let off := fun (s : State) (n : Nat) => ((s.rs a.toNat).toNat : Int) + imm.toInt * n
    let load := fun (i : Instr) (n : Nat) (f : Nat → W64) =>
      SGoes i (fun s => s.segOk sg.toNat (off s n) n n .load ∧ s.my.bad (s.la sg.toNat (off s n)) n = false) fun s =>
        let x := s.la sg.toNat (off s n)
        let q := s.touch s.cur.1 x n
        q.put (s.me.ws d.toNat (f (Memory.read s.my.mem x n)))
    let store := fun (i : Instr) (n : Nat) =>
      SGoes i (fun s => s.segOk sg.toNat (off s n) n n .store ∧ (n < 4 → s.my.bad (s.la sg.toNat (off s n)) n = false))
        fun s =>
          let x := s.la sg.toNat (off s n)
          let q := if n < 4 then s.touch s.cur.1 x n else s
          q.wentOn (q.my.wr x n (s.rs d.toNat).toNat) (s.me.next s.me.pc)
    load (.ldb d a sg rx imm) 1 (fun v => BitVec.ofNat 64 v) ∧ load (.ldbs d a sg rx imm) 1 (fun v => BitVec.ofInt 64 (sgn 8 v))
    ∧ load (.ldh d a sg rx imm) 2 (fun v => BitVec.ofNat 64 v) ∧ load (.ldhs d a sg rx imm) 2 (fun v => BitVec.ofInt 64 (sgn 16 v))
    ∧ load (.ldw d a sg rx imm) 4 (fun v => BitVec.ofNat 64 v) ∧ load (.ldws d a sg rx imm) 4 (fun v => BitVec.ofInt 64 (sgn 32 v))
    ∧ load (.ldd d a sg rx imm) 8 (fun v => BitVec.ofNat 64 v)
    ∧ store (.stb d a sg rx imm) 1 ∧ store (.sth d a sg rx imm) 2 ∧ store (.stw d a sg rx imm) 4 ∧ store (.std d a sg rx imm) 8)
  ∧ ∀ (d a : BitVec 6) (sg : BitVec 3) (rx : BitVec 1) (imm : BitVec 8) (s : State),
    ∀ x ∈ ([(.ldb d a sg rx imm, 1, .load), (.ldbs d a sg rx imm, 1, .load), (.ldh d a sg rx imm, 2, .load),
        (.ldhs d a sg rx imm, 2, .load), (.ldw d a sg rx imm, 4, .load), (.ldws d a sg rx imm, 4, .load),
        (.ldd d a sg rx imm, 8, .load), (.stb d a sg rx imm, 1, .store), (.sth d a sg rx imm, 2, .store),
        (.stw d a sg rx imm, 4, .store), (.std d a sg rx imm, 8, .store)] : List (Instr × Nat × AccKind)),
      let n := x.2.1
      let off := ((s.rs a.toNat).toNat : Int) + imm.toInt * n
      let g := s.me.rsg sg.toNat
      let traps := fun (c : Nat) => Traps (exec x.1 s) s c (BitVec.ofInt 32 off) false
      (off % n ≠ 0 → traps cALIGN)
      ∧ (off % n = 0 → sgSpace g = 0 ∨ sgSpace g ≥ 4 → traps cSPACE)
      ∧ (off % n = 0 → sgSpace g = 1 →
        (off < 0 ∨ off + n - 1 > sgLimit g ∨ sgBase g + off + n > 0x100000 → traps cSEGLIMIT)
        ∧ (0 ≤ off → off + n - 1 ≤ sgLimit g → sgBase g + off + n ≤ 0x100000 → sgRights g x.2.2 = false → traps cRIGHTS))

/-- R94, R112: VLD and VLDB fill v[d] from 128 bytes, or from one word in every lane; VST stores v[d], as an ordinary register where it
is bound for reading, and traps HANDLE where it is bound for writing. That R112's example stands beside R91 for VST is the model's
reading (log entry 67).

R95, R96: an indexed access touches one word for each active lane, in lane order; the slot may issue again when its
busiest bank has served it. -/
def Obligations.VectorAccess : Prop :=
  (∀ (d : BitVec 5) (a : BitVec 6) (sg : BitVec 3) (rx : BitVec 1) (imm : BitVec 8),
    let off := fun (s : State) (n : Nat) => ((s.rs a.toNat).toNat : Int) + imm.toInt * n
    let load := fun (i : Instr) (n : Nat) (f : Nat → VReg) =>
      SGoes i (fun s => s.segOk sg.toNat (off s n) n 4 .load ∧ s.my.bad (s.la sg.toNat (off s n)) n = false
          ∧ s.plain [d.toNat]) fun s =>
        let x := s.la sg.toNat (off s n)
        let q := s.touch s.cur.1 x n
        q.put (s.me.wv d.toNat (f (Memory.read s.my.mem x n)))
    load (.vld d a sg rx imm) 128 (fun v => BitVec.ofNat 1024 v)
    ∧ load (.vldb d a sg imm) 4 (fun v => VReg.ofElems 32 fun _ => v)
    ∧ SGoes (.vst d a sg rx imm) (fun s => s.segOk sg.toNat (off s 128) 128 4 .store
          ∧ ∀ u y, s.bound s.cur.1 s.cur.2 d.toNat = some (u, y) → y.write = false) (fun s =>
        s.wentOn (s.my.wr (s.la sg.toNat (off s 128)) 128 (s.me.rv d.toNat).toNat) (s.me.next s.me.pc))
    ∧ ∀ (s : State) (u : Nat) (y : Stream), s.bound s.cur.1 s.cur.2 d.toNat = some (u, y) → y.write = true →
        Traps (exec (.vst d a sg rx imm) s) s cHANDLE (hDetail 1 d.toNat) false)
  ∧ ∀ (d vi : BitVec 5) (a : BitVec 6) (sg : BitVec 3) (m : BitVec 3),
    let off := fun (s : State) (j : Nat) => (((s.rs a.toNat).toNat + 4 * VReg.elem (s.me.rv vi.toNat) 32 j : Nat) : Int)
    let lanes := fun (s : State) => (List.range 32).filter fun j => (s.me.rm m.toNat).getLsbD j
    let ok := fun (s : State) (kind : AccKind) => s.plain [d.toNat, vi.toNat] ∧ s.my.err1 = [] ∧ s.my.err2 = []
      ∧ ∀ j ∈ lanes s, s.segOk sg.toNat (off s j) 4 4 kind
    let gap := fun (s : State) => max 8 (bankLoad ((lanes s).map fun j => s.la sg.toNat (off s j)) + 7)
    SGoes (.vldx d a sg 0 vi m) (fun s => ok s .load) (fun s =>
        s.put { s.me.wv d.toNat (mergeElems 32 (s.me.rm m.toNat) (s.me.rv d.toNat) fun j =>
          Memory.read s.my.mem (s.la sg.toNat (off s j)) 4) with gap := gap s })
    ∧ SGoes (.vstx d a sg 0 vi m) (fun s => ok s .store) fun s =>
        s.wentOn ((lanes s).foldl (fun x j => x.wr (s.la sg.toNat (off s j)) 4 (VReg.elem (s.me.rv d.toNat) 32 j)) s.my)
          { s.me with gap := gap s, pc := s.me.pc + 8 }

/-- R97, R98: full/empty operations on a LOCAL word. A synchronising load of a full word takes its value, and LDWTAKE
empties it; of an empty one the slot waits among the word's waiters.

R274, R275: a fence goes on when no relaxed access of its scope is outstanding, and FENCEE when no engine works for the
slot either; otherwise the slot waits, and its wait ends when they have completed.
Where a clause rests on a choice of the model, it is that of log entry 2. -/
def Obligations.FullEmptyAndFences : Prop :=
  (∀ (d a : BitVec 6) (p : BitVec 3) (sg : BitVec 3) (rx : BitVec 1) (imm : BitVec 8),
    let off := fun (s : State) => ((s.rs a.toNat).toNat : Int) + imm.toInt * 4
    let x := fun (s : State) => s.la sg.toNat (off s)
    let near := fun (s : State) (k : AccKind) => s.segOk sg.toNat (off s) 4 4 k
    let full := fun (s : State) => s.my.fe.contains (x s / 4) = true
    let word := fun (s : State) => BitVec.ofNat 64 (Memory.read s.my.mem (x s) 4)
    let waits := fun (s : State) (take : Bool) =>
      s.awaits { s.my with feWait := s.my.feWait ++ [⟨x s, take, s.cur.2, d.toNat, BitVec.ofInt 32 (off s), none⟩] } .parked
        (.fe (x s))
    SGoes (.ldwsync d a sg imm) (fun s => near s .load ∧ full s ∧ s.my.bad (x s) 4 = false)
      (fun s => (s.touch s.cur.1 (x s) 4).put (s.me.ws d.toNat (word s)))
    ∧ SGoes (.ldwsync d a sg imm) (fun s => near s .load ∧ ¬full s) (fun s => waits s false)
    ∧ SGoes (.ldwtake d a sg imm) (fun s => near s .load ∧ sgW (s.me.rsg sg.toNat) = true ∧ full s ∧ s.my.bad (x s) 4 = false)
      (fun s =>
        let q := s.touch s.cur.1 (x s) 4
        q.wentOn { q.my with fe := q.my.fe.filter fun w => w ≠ x s / 4 } ((s.me.ws d.toNat (word s)).next s.me.pc))
    ∧ SGoes (.ldwtake d a sg imm) (fun s => near s .load ∧ sgW (s.me.rsg sg.toNat) = true ∧ ¬full s) (fun s => waits s true)
    ∧ SGoes (.stwfill d a sg rx imm) (fun s => near s .store) (fun s =>
        s.wentOn { s.my.wr (x s) 4 (s.rs d.toNat).toNat with fe := insertNat (x s / 4) s.my.fe } (s.me.next s.me.pc))
    ∧ SGoes (.feset a sg imm) (fun s => near s .store) (fun s =>
        s.wentOn { s.my with fe := insertNat (x s / 4) s.my.fe } (s.me.next s.me.pc))
    ∧ SGoes (.feclr a sg imm) (fun s => near s .store) (fun s =>
        s.wentOn { s.my with fe := s.my.fe.filter fun w => w ≠ x s / 4 } (s.me.next s.me.pc))
    ∧ SGoes (.fetest p a sg imm) (fun s => near s .load) fun s => s.put (s.me.wp p.toNat (s.my.fe.contains (x s / 4))))
  ∧ ∀ (scope : BitVec 3) (c i : Nat),
    let out := fun (s : State) => s.relaxedIn s.cur.1 s.cur.2 scope.toNat
    let eng := fun (s : State) => s.enginesBusy s.cur.1 s.cur.2
    SGoes (.fence scope) (fun s => out s = false) (fun s => s.put s.me)
    ∧ SGoes (.fencee scope) (fun s => out s = false ∧ eng s = false) (fun s => s.put s.me)
    ∧ SGoes (.fence scope) (fun s => out s = true) (fun s => s.awaits s.my .parked (.fence scope.toNat false))
    ∧ SGoes (.fencee scope) (fun s => out s = true ∨ eng s = true) (fun s => s.awaits s.my .parked (.fence scope.toNat true))
    ∧ ∀ (k : Nat) (e : Bool), EGoes (.fenceComplete c i) (fun s => (s.slot c i).held = .fence k e
          ∧ s.relaxedIn c i k = false ∧ (e = true → s.enginesBusy c i = false) ∧ (s.core c).directMma i = false) fun s =>
        s.setCore c (((s.core c).setSlot i (s.slot c i).wake).count 15 1)

/-- R273, R274: an atomic on a LOCAL word or doubleword writes the old value to s[d] and the new one to memory, unless its
release waits for relaxed accesses; AMOADD in an open IDEM region traps IDEMADD (R333). -/
def Obligations.Atomics : Prop :=
  ∀ (d a b c : BitVec 6) (sg scope : BitVec 3) (order : BitVec 2) (rx w : BitVec 1) (imm : BitVec 19),
    let n : Nat := if w = 1 then 8 else 4
    let off := fun (s : State) => ((s.rs a.toNat).toNat : Int) + imm.toInt * n
    let x := fun (s : State) => s.la sg.toNat (off s)
    let may := fun (s : State) => s.segOk sg.toNat (off s) n n .load ∧ sgW (s.me.rsg sg.toNat) = true
      ∧ sgA (s.me.rsg sg.toNat) = true ∧ s.my.bad (x s) n = false
      ∧ (order.toNat < 2 ∨ s.relaxedIn s.cur.1 s.cur.2 scope.toNat = false)
    let amo := fun (i : Instr) (ok : State → Prop) (f : State → Nat → Nat → Nat) => SGoes i (fun s => may s ∧ ok s) fun s =>
      let q := s.touch s.cur.1 (x s) n
      let old := Memory.read s.my.mem (x s) n
      q.wentOn (q.my.wr (x s) n (f s old ((s.rs b.toNat).toNat % 2 ^ (8 * n))))
        ((s.me.ws d.toNat (BitVec.ofNat 64 old)).next s.me.pc)
    let I := sgn (8 * n)
    amo (.amoadd d a b sg scope order rx w imm) (fun s => s.me.imv = false) (fun _ o y => (o + y) % 2 ^ (8 * n))
    ∧ amo (.amoand d a b sg scope order rx w imm) always (fun _ o y => o &&& y)
    ∧ amo (.amoor d a b sg scope order rx w imm) always (fun _ o y => o ||| y)
    ∧ amo (.amoxor d a b sg scope order rx w imm) always (fun _ o y => o ^^^ y)
    ∧ amo (.amomin d a b sg scope order rx w imm) always (fun _ o y => if I y < I o then y else o)
    ∧ amo (.amomax d a b sg scope order rx w imm) always (fun _ o y => if I o < I y then y else o)
    ∧ amo (.amominn d a b sg scope order rx w imm) always (fun _ o y => min o y)
    ∧ amo (.amomaxn d a b sg scope order rx w imm) always (fun _ o y => max o y)
    ∧ amo (.amoswap d a b sg scope order rx w imm) always (fun _ _ y => y)
    ∧ amo (.amocas d a b sg c scope order rx w imm) always
        (fun s o y => if o = y then (s.rs c.toNat).toNat % 2 ^ (8 * n) else o)
    ∧ ∀ s : State, s.me.imv = true → s.segOk sg.toNat (off s) n n .load → sgW (s.me.rsg sg.toNat) = true →
        sgA (s.me.rsg sg.toNat) = true →
        Traps (exec (.amoadd d a b sg scope order rx w imm) s) s cIDEMADD (s.me.mark.setWidth 32) false

/-- R97, R262 to R265, R270, R273, R274: a load, a store, a full/empty operation or an atomic through a CORE segment names a core of
the gang by its rank, and one of up to 4 bytes through a POOL segment the home of its pool bytes; it sends a request there. The slot
waits for the reply, or, of a relaxed access, goes on while fewer than eight are outstanding, and issues afresh where they are. An
atomic whose home lies outside its scope sets SCOPEMISS; a relaxed one that acquires waits for its own reply.
Where a clause rests on a choice of the model, it is that of log entries 3 and 18. -/
def Obligations.RemoteRequests : Prop :=
  ∀ (d a b e : BitVec 6) (v : BitVec 5) (p sg scope : BitVec 3) (order : BitVec 2) (wide : BitVec 1) (imm : BitVec 8) (far : BitVec 19)
    (home y : Nat) (s0 : State), s0.Able →
    let s := s0.capture 0
    let c := s.cur.1
    let g := s.me.rsg sg.toNat
    let at_ := fun (off : Int) (n align : Nat) (k : AccKind) (whole : Bool) =>
      let x := ((sgBase g : Int) + off).toNat
      let q := x / 4 / s.my.gsize
      off % align = 0 ∧ 0 ≤ off ∧ off + n - 1 ≤ sgLimit g ∧ sgRights g k = true
        ∧ (sgSpace g = 2 ∧ sgRank g < s.my.gsize ∧ x + n ≤ 0x100000 ∧ home = s.rankCore c (sgRank g) ∧ y = x
          ∨ sgSpace g = 3 ∧ n ≤ 4 ∧ whole = false ∧ x + n ≤ s.my.gsize * s.my.psize
            ∧ home = s.rankCore c ((x / 4 % s.my.gsize + q * 40503 % 2 ^ 16) % s.my.gsize)
            ∧ y = 0x100000 - s.my.psize + 4 * q + x % 4)
    let req := fun (op : ReqOp) (off : Int) (r : Nat) (x : VReg) (z : W64) =>
      (⟨c, s.cur.2, false, 0, op, y, BitVec.ofInt 32 off, r, x, z⟩ : Req)
    let parks := fun (s : State) (i : Instr) (q : Req) (sync : Bool) =>
      exec i s0 = .next ((s.sendReq home q).awaits s.my .parked (.remote home sync))
    let id := s.nonce + 1
    let sent := fun (s : State) (q : Req) => State.sendReq { s with nonce := id } home { q with relaxed := true, id := id }
    let out := fun (s : State) (q : Req) => s.me.relaxed ++ [(⟨id, home, some q.op, q.d, q.off⟩ : Rlx)]
    let full := fun (i : Instr) => s.me.relaxed.length ≥ 8 →
      exec i s0 = .next (s0.modMe fun t => { t with st := .parked, held := .relaxFull, npc := t.pc })
    let off := fun (n : Nat) => ((s.rs a.toNat).toNat : Int) + imm.toInt * n
    let word := BitVec.ofNat 1024 (s.rs d.toNat).toNat
    let W := sgW g = true
    let calm := s.plain [v.toNat]
    (∀ r ∈ ([(fun rx => .ldb d a sg rx imm, 1, 1, .load, .load 1 false, d.toNat, 0),
        (fun rx => .ldbs d a sg rx imm, 1, 1, .load, .load 1 true, d.toNat, 0),
        (fun rx => .ldh d a sg rx imm, 2, 2, .load, .load 2 false, d.toNat, 0),
        (fun rx => .ldhs d a sg rx imm, 2, 2, .load, .load 2 true, d.toNat, 0),
        (fun rx => .ldw d a sg rx imm, 4, 4, .load, .load 4 false, d.toNat, 0),
        (fun rx => .ldws d a sg rx imm, 4, 4, .load, .load 4 true, d.toNat, 0),
        (fun rx => .ldd d a sg rx imm, 8, 8, .load, .load 8 false, d.toNat, 0),
        (fun rx => .stb d a sg rx imm, 1, 1, .store, .store 1, 0, word),
        (fun rx => .sth d a sg rx imm, 2, 2, .store, .store 2, 0, word),
        (fun rx => .stw d a sg rx imm, 4, 4, .store, .store 4, 0, word),
        (fun rx => .std d a sg rx imm, 8, 8, .store, .store 8, 0, word),
        (fun rx => .stwfill d a sg rx imm, 4, 4, .store, .fill, 0, word),
        (fun rx => .vld v a sg rx imm, 128, 4, .load, .vload, v.toNat, 0),
        (fun rx => .vst v a sg rx imm, 128, 4, .store, .vstore, 0, s.me.rv v.toNat)] :
          List ((BitVec 1 → Instr) × Nat × Nat × AccKind × ReqOp × Nat × VReg)),
      let n := r.2.1
      let q := req r.2.2.2.2.1 (off n) r.2.2.2.2.2.1 r.2.2.2.2.2.2 0
      at_ (off n) n r.2.2.1 r.2.2.2.1 (n == 128) → (n = 128 → calm) →
        parks s (r.1 0) q false
        ∧ (s.me.relaxed.length < 8 → exec (r.1 1) s0 = .next ((sent s q).put { s.me with relaxed := out s q }))
        ∧ full (r.1 1))
    ∧ (∀ r ∈ ([(.ldwsync d a sg imm, .load, .sync false, d.toNat, true, True), (.ldwtake d a sg imm, .load, .sync true, d.toNat, true, W),
        (.feset a sg imm, .store, .feSet, 0, false, True), (.feclr a sg imm, .store, .feClr, 0, false, True),
        (.fetest p a sg imm, .load, .feTest, p.toNat, false, True)] : List (Instr × AccKind × ReqOp × Nat × Bool × Prop)),
      at_ (off 4) 4 4 r.2.1 false → r.2.2.2.2.2 → parks s r.1 (req r.2.2.1 (off 4) r.2.2.2.1 0 0) r.2.2.2.2.1)
    ∧ (at_ (off 4) 4 4 .load true → calm → parks s (.vldb v a sg imm) (req .vbcast (off 4) v.toNat 0 0) false)
    ∧ ∀ r ∈ ([(fun rx => .amoadd d a b sg scope order rx wide far, 0, 0), (fun rx => .amoand d a b sg scope order rx wide far, 1, 0),
        (fun rx => .amoor d a b sg scope order rx wide far, 2, 0), (fun rx => .amoxor d a b sg scope order rx wide far, 3, 0),
        (fun rx => .amomin d a b sg scope order rx wide far, 4, 0), (fun rx => .amomax d a b sg scope order rx wide far, 5, 0),
        (fun rx => .amominn d a b sg scope order rx wide far, 6, 0), (fun rx => .amomaxn d a b sg scope order rx wide far, 7, 0),
        (fun rx => .amoswap d a b sg scope order rx wide far, 8, 0),
        (fun rx => .amocas d a b sg e scope order rx wide far, 9, s.rs e.toNat)] : List ((BitVec 1 → Instr) × Nat × W64)),
      let n : Nat := if wide = 1 then 8 else 4
      let o := ((s.rs a.toNat).toNat : Int) + far.toInt * n
      let within := s.inScope c scope.toNat home = true
      let z := if s.inScope c scope.toNat home then s else s.modMe fun t => { t with sticky := t.sticky ||| 64 }
      let q := req (.amo r.2.1 (wide = 1)) o d.toNat (BitVec.ofNat 1024 ((s.rs b.toNat).toNat % 2 ^ (8 * n))) r.2.2
      at_ o n n .load false → W → sgA g = true → (r.2.1 = 0 → s.me.imv = false) →
      (within → order.toNat < 2 ∨ s.relaxedIn c s.cur.2 scope.toNat = false) →
        parks z (r.1 0) q false
        ∧ (s.me.relaxed.length < 8 →
          (¬within ∨ order.toNat % 2 = 0 → exec (r.1 1) s0 = .next ((sent z q).put { z.me with relaxed := out z q }))
          ∧ (within → order.toNat % 2 = 1 → exec (r.1 1) s0 = .next ((sent z q).wentOn z.my { z.me with
              relaxed := out z q, st := .parked, held := .acquire id, npc := s.me.pc + 8 })))
        ∧ full (r.1 1)

/-- R264, R267, R276: what the home's handler port does with the oldest built-in request, as an issue of slot 14: it
reads or writes the home's store and replies, or the request joins the word's waiters. A word with a double-bit error is
reported in the reply.

R264, R269, R270, R276: arrivals at a core that runs: requests and messages join its queues; a reply writes its
register and its slot goes on; a withdrawal removes a waiting request; a handler starts in an IDLE slot 14.
Where a clause rests on a choice of the model, it is that of log entries 2, 18 and 22. -/
def Obligations.RequestsAndReplies : Prop :=
  (∀ (c : Nat) (r : Req) (rest : List Req) (s : State), (s.core c).netq = r :: rest →
    let x := s.core c
    let p : State := s.setCore c (({ x with netq := rest }.count 8 1).setSlot 14 { x.slot 14 with last := some s.now, gap := 8 })
    let n := reqSize r.op
    let v := Memory.read x.mem r.addr n
    let goes := fun (t : State) => exec (.builtinRequestPerform c) s = .next t
    let y := p.core c
    ((s.core c).reqReads r = true → x.bad r.addr n = true → goes (p.reply c r 0 true))
    ∧ (x.err1 = [] → x.err2 = [] →
      match r.op with
      | .load _ _ | .vload | .vbcast => goes (p.reply c r v false)
      | .store m => goes ((p.setCore c (y.wr r.addr m r.data.toNat)).reply c r 0 false)
      | .vstore => goes ((p.setCore c (y.wr r.addr 128 r.data.toNat)).reply c r 0 false)
      | .fill => goes ((p.setCore c { y.wr r.addr 4 r.data.toNat with fe := insertNat (r.addr / 4) y.fe }).reply c r 0 false)
      | .feSet => goes ((p.setCore c { y with fe := insertNat (r.addr / 4) y.fe }).reply c r 0 false)
      | .feClr => goes ((p.setCore c { y with fe := y.fe.filter fun w => w ≠ r.addr / 4 }).reply c r 0 false)
      | .feTest => goes (p.reply c r (if x.fe.contains (r.addr / 4) then 1 else 0) false)
      | .sync take =>
        if x.fe.contains (r.addr / 4) = true then
          goes ((if take then p.setCore c { y with fe := y.fe.filter fun w => w ≠ r.addr / 4 } else p).reply c r v false)
        else goes (p.setCore c { y with feWait := y.feWait ++ [⟨r.addr, take, r.slot, r.d, r.off, some r⟩] })
      | .amo op _ =>
        goes ((p.setCore c (y.wr r.addr n (amoNew op (8 * n) v (r.data.toNat % 2 ^ (8 * n)) (r.data2.toNat % 2 ^ (8 * n))))).reply
          c r v false)
      | .joinAdd => goes ((p.joinUpdate c r.addr true).reply c r 0 false)
      | .joinSub => goes ((p.joinUpdate c r.addr false).reply c r 0 false)))
  ∧ ∀ (c : Nat) (r : Req) (m : ActMsg) (w : Reply) (src slot : Nat) (rest : List ActMsg),
    EGoes (.remoteRequestArrive c (.builtin r)) (fun s => s.live c) (fun s =>
      s.setCore c { s.core c with busy := true, netq := (s.core c).netq ++ [r] })
    ∧ EGoes (.remoteRequestArrive c (.active m)) (fun s => s.live c) (fun s =>
      s.setCore c { s.core c with busy := true, amq := (s.core c).amq ++ [m] })
    ∧ (∀ n sg home sync, w.relaxed = false → w.id = 0 → w.ecc = false → w.op = .load n sg → w.slot < 16 →
      EGoes (.remoteReply c w) (fun s => s.live c ∧ (s.slot c w.slot).held = .remote home sync
          ∧ (s.core c).directMma w.slot = false) fun s =>
        s.setCore c (({ s.core c with busy := true }.setSlot w.slot ((s.slot c w.slot).ws w.d
          (if sg then BitVec.ofInt 64 (sgn (8 * n) w.value.toNat) else BitVec.ofNat 64 w.value.toNat)).wake).count 15 1))
    ∧ EGoes (.feWithdrawalArrive c src slot) (fun s => s.live c ∧ r.src = src ∧ r.slot = slot ∧ r.relaxed = false
          ∧ (r.op = .sync true ∨ r.op = .sync false) ∧ (s.core c).netq.filter (fun q => q.src = src && q.slot = slot) = [r]
          ∧ (s.slot src slot).held = .remote c true ∧ (s.slot src slot).stop ≠ none)
        (fun s => (s.setCore c { s.core c with busy := true, netq := (s.core c).netq.erase r }).reply c { r with id := 1 } 0 false)
    ∧ EGoes (.handlerStart c) (fun s => (s.core c).amq = m :: rest ∧ (s.slot c 14).st = .idle) fun s =>
        let t := s.slot c 14
        let u : Slot := { t with
          s := vset (vset (vset (vset t.s 1 m.w1) 2 m.w2) 3 m.w3) 4 (BitVec.ofNat 64 m.tid)
          pc := codePc (BitVec.ofNat 64 ((vget (s.core c).hand m.handler 0).toNat % 2 ^ 20)), st := .ready, level := false, held := .none }
        let q : Req := ⟨m.src, m.slot, m.relaxed, m.id, .store 0, 0, 0, 0, 0, 0⟩
        (s.setCore c ({ s.core c with amq := rest }.setSlot 14 u)).reply c q 0 false

/-- R99: branches go to PC + 8 × the displacement where they are taken, and on behind the bundle where not; calls leave the
address behind the bundle in s55; a register target that is no multiple of 8 traps ALIGN. -/
def Obligations.Branches : Prop :=
  ∀ (d : BitVec 20) (p m : BitVec 3) (a : BitVec 6),
    let target := fun (s : State) => BitVec.ofInt 64 ((s.me.pc.toNat : Int) + 8 * d.toInt)
    let jump := fun (s : State) (u : Slot) (pc : W64) => s.wentOn s.my { u with pc := pc }
    let when := fun (i : Instr) (c : Slot → Bool) =>
      SGoes i always fun s => if c s.me then jump s s.me (target s) else s.put s.me
    let aligned := fun (s : State) => (s.rs a.toNat).toNat % 8 = 0
    SGoes (.br d) always (fun s => jump s s.me (target s))
    ∧ when (.bc p d) (fun t => t.rp p.toNat) ∧ when (.bnc p d) (fun t => !t.rp p.toNat)
    ∧ when (.bmz m d) (fun t => t.rm m.toNat = 0) ∧ when (.bmnz m d) (fun t => t.rm m.toNat ≠ 0)
    ∧ SGoes (.call d) always (fun s => jump s (s.me.ws 55 (s.me.pc + 8)) (target s))
    ∧ SGoes (.jr a) aligned (fun s => jump s s.me (s.rs a.toNat))
    ∧ SGoes (.callr a) aligned (fun s => jump s (s.me.ws 55 (s.me.pc + 8)) (s.rs a.toNat))
    ∧ ∀ s : State, ¬aligned s → Traps (exec (.jr a) s) s cALIGN (BitVec.ofNat 32 (s.rs a.toNat).toNat) false
        ∧ Traps (exec (.callr a) s) s cALIGN (BitVec.ofNat 32 (s.rs a.toNat).toNat) false

/-- R102: MFS reads each status register, and MTS writes the writable bits of those it may write; any other register traps PRIV at
either level, and a code that names none makes its bundle trap ILLEGAL (R68).

R103, R104: what GETID gives for each code, and the event counters read and cleared; any other code is ILLEGAL. -/
def Obligations.StatusIdentityAndCounters : Prop :=
  let illegal := fun (i : Instr) => ∀ s : State, s.bundle 0 (halves (encode i)).1 (halves (encode i)).2 = (false, .trap cILLEGAL 0)
  (∀ (d a c : BitVec 6),
    let R := fun (n : BitVec 6) (f : Slot → W64) => SGoes (.mfs d n) always fun s => s.put (s.me.ws d.toNat (f s.me))
    let W := fun (n : BitVec 6) (f : Slot → W64 → Slot) => SGoes (.mts n a) always fun s => s.put (f s.me (s.rs a.toNat))
    R 0 (·.tcause) ∧ R 1 (·.ulivec) ∧ R 2 (·.sticky) ∧ R 3 (·.timer) ∧ R 4 (·.lin)
    ∧ R 8 (fun t => t.fxa.setWidth 64) ∧ R 9 (fun t => t.fxb.setWidth 64) ∧ R 10 (fun t => t.fxc.setWidth 64)
    ∧ R 11 (·.spa) ∧ R 12 (·.spb) ∧ R 13 (·.geom)
    ∧ (∀ k : Fin 8, R (BitVec.ofNat 6 (16 + k.val)) (fun t => BitVec.ofNat 64 (t.rsg k.val).toNat)
        ∧ R (BitVec.ofNat 6 (24 + k.val)) (fun t => BitVec.ofNat 64 ((t.rsg k.val).toNat / 2 ^ 64)))
    ∧ W 1 (fun t x => { t with ulivec := x &&& 0xFFFFFFFFFFFFFFF8#64 })
    ∧ W 2 (fun t x => { t with sticky := t.sticky &&& ~~~x })
    ∧ W 8 (fun t x => { t with fxa := x.setWidth 32 &&& 0xCF#32 })
    ∧ W 9 (fun t x => { t with fxb := x.setWidth 32 &&& 0xCF#32 })
    ∧ W 10 (fun t x => { t with fxc := x.setWidth 32 &&& 0x1FF#32 })
    ∧ W 11 (fun t x => { t with spa := x &&& 0x0FFFFF00FFFFFFFF#64 })
    ∧ W 12 (fun t x => { t with spb := x &&& 0x0FFFFF00FFFFFFFF#64 })
    ∧ (c ∉ [1, 2, 8, 9, 10, 11, 12] → (Instr.mts c a).wf = true → ∀ s : State, Traps (exec (.mts c a) s) s cPRIV 0 false)
    ∧ (c ∈ [5, 6, 7, 14, 15] ∨ 32 ≤ c.toNat → illegal (.mts c a) ∧ illegal (.mfs d c)))
  ∧ ∀ (d n : BitVec 6), (6 < n.toNat → illegal (.getid d n)) ∧ (15 < n.toNat → illegal (.evcrd d n) ∧ illegal (.evcclr n)) ∧
    let G := fun (k : BitVec 6) (f : State → Nat) => SGoes (.getid d k) always fun s => s.put (s.me.ws d.toNat (BitVec.ofNat 64 (f s)))
    G 0 (fun s => s.my.rank * 16 + s.cur.2) ∧ G 1 (fun s => s.cur.2) ∧ G 2 (fun s => s.my.rank) ∧ G 3 (fun s => s.my.gsize)
    ∧ G 4 (fun s => s.cur.1) ∧ G 5 (fun s => s.now) ∧ G 6 (fun s => if s.me.level then 1 else 0)
    ∧ SGoes (.evcrd d n) always (fun s => s.put (s.me.ws d.toNat ((vget s.my.ev n.toNat 0).setWidth 64)))
    ∧ SGoes (.evcclr n) always (fun s => s.wentOn { s.my with ev := vset s.my.ev n.toNat 0 } (s.me.next s.me.pc))

/-- R105, R106, R107, R303: YIELD bars the slot; SLEEP and WAITMSG go on at once when a message, or for slot 15 a trap
record, is there, and wait otherwise; HALT begins to drain the slot.

R106, R107, R269: a sleep whose time is over ends with 0 where no message came; a drained slot goes IDLE and gives up all
that it owns; slot 14's handler ends and keeps it.

R302: the mailbox instructions give the oldest message, or zeros, and MBPOP removes it; the counts of messages and of
credits, of which MBCNT 2 takes one.
Where a clause rests on a choice of the model, it is that of log entries 2 and 105. -/
def Obligations.WaitsAndMailbox : Prop :=
  (∀ (d a : BitVec 6),
    let record := fun (s : State) => s.cur.2 = 15 ∧ s.my.trapq ≠ []
    SGoes .yield always (fun s => s.put { s.me with bar := some (s.now + 32) })
    ∧ SGoes (.sleep d a) (fun s => s.me.mail ≠ []) (fun s => s.put (s.me.ws d.toNat 1))
    ∧ SGoes (.sleep d a) (fun s => s.me.mail = [] ∧ record s) (fun s => s.put (s.me.ws d.toNat 0))
    ∧ SGoes (.sleep d a) (fun s => s.me.mail = [] ∧ ¬record s) (fun s => s.awaits s.my .waiting
        (.sleep d.toNat (if s.rs a.toNat = 0 then none else some (s.now + (s.rs a.toNat).toNat))))
    ∧ SGoes (.waitmsg 0) (fun s => s.me.mail ≠ [] ∨ record s) (fun s => s.put s.me)
    ∧ SGoes (.waitmsg 1) (fun s => s.me.credits ≠ 0 ∨ record s) (fun s => s.put s.me)
    ∧ SGoes (.waitmsg 0) (fun s => s.me.mail = [] ∧ ¬record s) (fun s => s.awaits s.my .waiting (.waitmsg false))
    ∧ SGoes (.waitmsg 1) (fun s => s.me.credits = 0 ∧ ¬record s) (fun s => s.awaits s.my .waiting (.waitmsg true))
    ∧ SGoes .halt (fun s => s.my.seqr.fault = none ∨ s.my.seqr.owner ≠ some s.cur.2)
        (fun s => s.awaits s.my .parked .haltDrain))
  ∧ (∀ (c i d t u : Nat), i < 16 →
    EGoes (.sleepTimeout c i) (fun s => (s.slot c i).held = .sleep d (some t) ∧ t ≤ s.now ∧ s.live c
        ∧ (s.core c).directMma i = false) (fun s =>
      s.setCore c (({ s.core c with busy := true }.setSlot i
        ((s.slot c i).ws d (if (s.slot c i).mail = [] then 0 else 1)).wake).count 15 1))
    ∧ EGoes (.haltDrainComplete c i) (fun s => i ≠ 14 ∧ (s.slot c i).held = .haltDrain ∧ s.drained c i = true
        ∧ (s.core c).haltUnit i = none ∧ (s.slot c i).mst = .none ∧ (s.slot c i).pub = false) (fun s =>
      s.setCore c (((s.core c).release i).setSlot i { s.slot c i with
        st := .idle, held := .none, stop := none, mail := [], credits := 0, imv := false }))
    ∧ EGoes (.haltDrainComplete c 14) (fun s => (s.slot c 14).held = .haltDrain ∧ s.drained c 14 = true) (fun s =>
      s.setCore c ((s.core c).setSlot 14 { s.slot c 14 with st := .idle, held := .none, imv := false }))
    ∧ EGoes (.haltDrainComplete c i) (fun s => i ≠ 14 ∧ (s.slot c i).held = .haltDrain ∧ s.drained c i = true
        ∧ (s.core c).haltUnit i = some u ∧ (s.core c).closeReady (vget (s.core c).su u Stream.reset) = true)
      fun s => s.setCore c ((s.core c).closeUnit u))
  ∧ ∀ (d : BitVec 6),
    let two := fun (t : Slot) => match t.mail with
      | [] => (t.ws d.toNat 0).ws (d.toNat + 1) 0
      | m :: _ => (t.ws d.toNat m.m0).ws (d.toNat + 1) m.m1
    SGoes (.mbpeek d) always (fun s => s.put (two s.me))
    ∧ SGoes (.mbpop d) always (fun s => s.put { two s.me with mail := s.me.mail.tail })
    ∧ SGoes (.mbcnt d 0) always (fun s => s.put (s.me.ws d.toNat (BitVec.ofNat 64 s.me.mail.length)))
    ∧ SGoes (.mbcnt d 1) always (fun s => s.put (s.me.ws d.toNat (s.me.credits.setWidth 64)))
    ∧ SGoes (.mbcnt d 2) always fun s => s.put { s.me.ws d.toNat (s.me.credits.setWidth 64) with
        credits := if s.me.credits = 0 then 0 else s.me.credits - 1 }

/-- R26, R71, R324, R326: a bundle that traps has no effect; its slot stops at it, TCAUSE holds the cause, the half, whether
it was the fetch, and DETAIL, and a record of it joins the core's trap queue.

R338: TRAP n takes effect and then stops its slot behind the bundle with BREAK and n.

R69, R73, R339: at user level every instruction of the PRIV major, and ERET, traps PRIV and has no effect.

R68: an encoding that names no instruction traps ILLEGAL and has no effect.
Where a clause rests on a choice of the model, it is that of log entries 33 and 59. -/
def Obligations.TrapsTaken : Prop :=
  (∀ (cause : Nat) (detail : W32) (vhalf fetch : Bool) (s : State), s.calm → cause ≤ 18 → cause ≠ cCANCELLED →
    cause ≠ cPREEMPT →
    s.takeTrap cause detail vhalf fetch =
      s.haltedBy (BitVec.ofNat 64 (cause + (if vhalf then 32 else 0) + (if fetch then 64 else 0) + detail.toNat * 2 ^ 32)))
  ∧ (∀ (n : BitVec 6) (s0 : State), s0.Able → (s0.capture 0).calm →
    let s := s0.capture 0
    exec (.trap n) s0 = .next ((s.put s.me).haltedBy (BitVec.ofNat 64 (18 + n.toNat * 2 ^ 32))))
  ∧ (∀ (d a b : BitVec 6) (g : BitVec 3) (v : BitVec 5) (s : State), s.me.level = false →
    ∀ i ∈ ([.segld g a, .segst g a, .istset a, .slotstart a b, .slotstopStop d a, .slotstopResume d a, .slotstopIdle d a,
        .slotxferRd d a, .slotxferWr d a, .slotxferVrd v a, .slotxferVwr v a, .slotxferTq d, .slotxferDump a,
        .slotxferLoad a, .hubcmd d a, .eret a] : List Instr),
      Traps (exec i s) s cPRIV 0 false)
  ∧ ∀ (vhalf : Bool) (s : State), Traps (exec (.unassignedEncoding vhalf) s) s cILLEGAL 0 vhalf

/-- R28, R305, R333, R338: the system points. ERET leaves supervisor level for the address in s[a]; ULION and ULIOFF turn
interrupts on and off; ULIRET leaves the handler for the address in s58 of its bank; TIMERSET sets the timer; IDEM opens a
region behind itself, and IDEM.end closes it.
Where a clause rests on a choice of the model, it is that of log entries 72 and 107. -/
def Obligations.SystemPoints : Prop :=
  ∀ (a : BitVec 6) (u : BitVec 1),
    let jump := fun (s : State) (t : Slot) (pc : W64) => s.wentOn s.my { t with pc := pc }
    SGoes (.eret a) (fun s => s.me.level = true ∧ s.cur.2 ≠ 15 ∧ (s.rs a.toNat).toNat % 8 = 0)
      (fun s => jump s { s.me with level := false } (s.rs a.toNat))
    ∧ SGoes .ulion (fun s => s.cur.2 ≤ 13) (fun s => s.put { s.me with ue := true })
    ∧ SGoes .ulioff (fun s => s.cur.2 ≤ 13) (fun s => s.put { s.me with ue := false })
    ∧ SGoes .ulion (fun s => 14 ≤ s.cur.2) (fun s => s.put s.me)
    ∧ SGoes .ulioff (fun s => 14 ≤ s.cur.2) (fun s => s.put s.me)
    ∧ SGoes .uliret (fun s => s.me.ua = true ∧ (s.rs 58).toNat % 8 = 0)
      (fun s => jump s { s.me with ua := false } (s.rs 58))
    ∧ SGoes (.timerset a u) always (fun s => s.put { s.me with timer := s.rs a.toNat, tul := u = 1, tpend := false })
    ∧ SGoes .idem always (fun s => s.wentOn (s.my.remark s.cur.2 (some (s.my.snapOf s.cur.2)))
        ({ s.me with imv := true, mark := (s.me.pc + 8).setWidth 20 }.next s.me.pc))
    ∧ SGoes .idemEnd always fun s => s.wentOn (s.my.remark s.cur.2 none) ({ s.me with imv := false }.next s.me.pc)

/-- R193 to R195, R340, R341: at supervisor level SEGLD and SEGST move a descriptor, whose reserved bits read 0; ISTSET takes
a table whose entries meet R194 for the next switch; SLOTSTART makes an IDLE slot READY at an entry. -/
def Obligations.SegmentsTablesAndStarts : Prop :=
  ∀ (d : BitVec 3) (a b : BitVec 6),
    let off := fun (s : State) => ((s.rs a.toNat).toNat : Int)
    let x := fun (s : State) => s.la 0 (off s)
    let v := fun (s : State) => (s.rs a.toNat).toNat
    let i := fun (s : State) => v s % 16
    SGoes (.segld d a) (fun s => s.me.level = true ∧ s.segOk 0 (off s) 16 8 .load ∧ s.my.bad (x s) 16 = false) (fun s =>
        (s.touch s.cur.1 (x s) 16).put
          { s.me with sg := vset s.me.sg d.toNat (BitVec.ofNat 128 (Memory.read s.my.mem (x s) 16) &&& sgMask) })
    ∧ SGoes (.segst d a) (fun s => s.me.level = true ∧ s.segOk 0 (off s) 16 8 .store) (fun s =>
        s.wentOn (s.my.wr (x s) 16 (s.me.rsg d.toNat).toNat) (s.me.next s.me.pc))
    ∧ SGoes (.istset a) (fun s => s.me.level = true ∧ s.segOk 0 (off s) 32 4 .load ∧ s.my.bad (x s) 32 = false
        ∧ ∀ e < 32, istOffends (Memory.read s.my.mem (x s) 32) e = false) (fun s =>
        let q := s.touch s.cur.1 (x s) 32
        q.wentOn { q.my with
          istNext := some (Vector.ofFn fun k => Memory.get s.my.mem (x s + k.val)), istBar := false } (s.me.next s.me.pc))
    ∧ SGoes (.slotstart a b) (fun s => s.me.level = true ∧ i s < 14 ∧ i s ≠ s.cur.2 ∧ (s.my.slot (i s)).st = .idle
        ∧ v s / 2 ^ 4 % 2 ^ 4 = 0 ∧ v s / 2 ^ 9 % 2 ^ 23 = 0 ∧ v s / 2 ^ 52 = 0 ∧ v s / 2 ^ 32 % 8 = 0) (fun s =>
        s.wentOn (s.my.setSlot (i s) ((s.my.slot (i s)).start (BitVec.ofNat 64 (v s / 2 ^ 32 % 2 ^ 20)) (s.rs b.toNat)
          (v s / 2 ^ 8 % 2 = 1))) (s.me.next s.me.pc))

/-- R342: SLOTSTOP gives the state it found. Its three forms stop a running slot without a record, resume a stopped one, and
take a stopped and drained one to IDLE; a slot that another form finds elsewhere is left alone.

R326, R335, R343: SLOTXFER moves one register of a STOPPED or IDLE slot, takes the oldest trap record, and dumps or
loads the core's unit area while every other slot is still; its issuer is PARKED until that is done.
Where a clause rests on a choice of the model, it is that of log entries 11 to 13, 65, 66, 68, 69 and 71. -/
def Obligations.SlotStopsAndTransfers : Prop :=
  (∀ (d a : BitVec 6),
    let i := fun (s : State) => (s.rs a.toNat).toNat % 16
    let t := fun (s : State) => s.my.slot (i s)
    let found := fun (s : State) (n : Nat) => (s.me.ws d.toNat (BitVec.ofNat 64 n)).next s.me.pc
    let ok := fun (s : State) (st : SlotSt) => s.me.level = true ∧ i s ≠ 15 ∧ i s ≠ s.cur.2 ∧ (t s).st = st
    SGoes (.slotstopStop d a) (fun s => ok s .idle) (fun s => s.wentOn s.my (found s 0))
    ∧ SGoes (.slotstopStop d a) (fun s => ok s .stopped) (fun s => s.wentOn s.my (found s 4))
    ∧ SGoes (.slotstopStop d a) (fun s => ok s .ready ∧ (t s).relaxed = [] ∧ (t s).mst = .none ∧ (t s).stop = none
        ∧ (t s).doomed = false) (fun s =>
        s.wentOn (s.my.setSlot (i s) { t s with
          st := .stopped, held := .none, rdv := none, late := (t s).late ++ (t s).awaited, stopped := none }) (found s 1))
    ∧ SGoes (.slotstopResume d a) (fun s => ok s .stopped ∧ (t s).imv = false ∧ (t s).tpend = false) (fun s =>
        s.wentOn ({ s.my with trapq := s.my.trapq.filter fun r => r.slot ≠ i s }.setSlot (i s) { t s with st := .ready })
          (found s 4))
    ∧ SGoes (.slotstopResume d a) (fun s => ok s .stopped ∧ (t s).imv = true ∧ (t s).tpend = false
        ∧ s.my.snaps.all (fun n => n.slot ≠ i s) = true) (fun s =>
        s.wentOn (({ s.my with trapq := s.my.trapq.filter fun r => r.slot ≠ i s }.setSlot (i s) { t s with
          st := .ready, pc := (t s).mark.setWidth 64 }).remark (i s) (some (s.my.snapOf (i s)))) (found s 4))
    ∧ SGoes (.slotstopResume d a) (fun s => ok s .ready) (fun s => s.wentOn s.my (found s (if (t s).lull then 3 else 1)))
    ∧ SGoes (.slotstopIdle d a) (fun s => ok s .stopped ∧ s.drained s.cur.1 (i s) = true ∧ s.my.haltUnit (i s) = none
        ∧ (t s).mst = .none ∧ (t s).pub = false) (fun s =>
        s.wentOn (({ s.my with trapq := s.my.trapq.filter fun r => r.slot ≠ i s }.release (i s)).setSlot (i s)
          { t s with st := .idle, held := .none, stop := none, mail := [], credits := 0, imv := false }) (found s 4))
    ∧ SGoes (.slotstopIdle d a) (fun s => ok s .ready) (fun s => s.wentOn s.my (found s (if (t s).lull then 3 else 1))))
  ∧ ∀ (d a : BitVec 6) (w : BitVec 5),
    let v := fun (s : State) => (s.rs a.toNat).toNat
    let i := fun (s : State) => v s % 16
    let c := fun (s : State) => v s / 2 ^ 8 % 2 ^ 8
    let t := fun (s : State) => s.my.slot (i s)
    let ok := fun (s : State) (n : Nat) =>
      s.me.level = true ∧ i s ≠ 15 ∧ i s ≠ s.cur.2 ∧ c s < n ∧ ((t s).st = .stopped ∨ (t s).st = .idle)
    let y := fun (s : State) => s.la 0 (v s)
    let still := fun (s : State) => s.me.level = true ∧ ∀ k < 15, (s.my.slot k).st = .stopped ∨ (s.my.slot k).st = .idle
    let parks := fun (s : State) (i : Instr) => { s with nonce := s.nonce + 1 }.awaits s.my .parked
      (.unit i (BitVec.ofNat 256 (y s + 2 ^ 20 * (s.now + (1 + Config.free s.nonce % 4096)))))
    SGoes (.slotxferRd d a) (fun s => ok s 128) (fun s => s.put (s.me.ws d.toNat (s.my.dword (i s) (c s))))
    ∧ SGoes (.slotxferWr d a) (fun s => ok s 128) (fun s =>
        s.wentOn (s.my.setSlot (i s) ((t s).setDword (c s) (s.rs d.toNat))) (s.me.next s.me.pc))
    ∧ SGoes (.slotxferVrd w a) (fun s => ok s 32) (fun s => s.put (s.me.wv w.toNat ((t s).rv (c s))))
    ∧ SGoes (.slotxferVwr w a) (fun s => ok s 32) (fun s =>
        s.wentOn (s.my.setSlot (i s) ((t s).wv (c s) (s.me.rv w.toNat))) (s.me.next s.me.pc))
    ∧ SGoes (.slotxferTq d) (fun s => s.me.level = true ∧ s.my.trapq = []) (fun s =>
        s.put ((s.me.ws d.toNat 0).ws (d.toNat + 1) 0))
    ∧ (∀ r rest, SGoes (.slotxferTq d) (fun s => s.me.level = true ∧ s.my.trapq = r :: rest) (fun s =>
        s.wentOn { s.my with trapq := rest } (((s.me.ws d.toNat r.word).ws (d.toNat + 1) r.pc).next s.me.pc)))
    ∧ SGoes (.slotxferDump a) (fun s => still s ∧ s.segOk 0 (v s) 0x6000 128 .store) (fun s => parks s (.slotxferDump a))
    ∧ SGoes (.slotxferLoad a) (fun s => still s ∧ s.segOk 0 (v s) 0x6000 128 .load ∧ s.my.areaBad (y s) = false)
      (fun s => parks s (.slotxferLoad a))
    ∧ ∀ (n k : Nat) (data : BitVec 256),
      let ends := fun (s : State) (j : Instr) => (s.slot n k).held = .unit j data ∧ data.toNat / 2 ^ 20 ≤ s.now
        ∧ (s.core n).directMma k = false
      EGoes (.unitWaitEnd n k) (fun s => ends s (.slotxferDump a)) (fun s =>
        s.woken n k ((s.core n).unitArea.foldl (fun z e => z.wr (data.toNat % 2 ^ 20 + e.1) e.2.1 e.2.2) (s.core n)) (s.slot n k))
      ∧ EGoes (.unitWaitEnd n 15) (fun s => k = 15 ∧ ends s (.slotxferLoad a) ∧ (s.core n).err1 = [] ∧ (s.core n).err2 = []) fun s =>
        { s with nonce := s.nonce + 1 }.woken n 15 ((s.core n).loadArea (data.toNat % 2 ^ 20) (sgBase ((s.slot n 15).rsg 0))
          (s.gangNo n) s.nonce) (s.slot n 15)

/-- R139, R140, R141, R143, R144: a ring is set up from its descriptor by a slot that may have it, and released by its owner
when no unretired step names it; it is pushed and popped, or its slot parks until it can be; RINGSTAT reads it. GEOMSET writes
the 58 bits of GEOM, and GEOMMASK the mask of the tile's valid rows or columns. -/
def Obligations.RingsAndGeometry : Prop :=
  ∀ (d : BitVec 3) (a : BitVec 6) (w : BitVec 6) (r : BitVec 6) (c : BitVec 1),
    let n := d.toNat
    let ring := fun (s : State) => s.my.ringOf n
    let mine := fun (s : State) => (ring s).owner = some s.cur.2
    let off := fun (s : State) => ((s.rs a.toNat).toNat : Int)
    let x := fun (s : State) => s.la 0 (off s)
    let D := fun (s : State) => Memory.read s.my.mem (x s) 16
    let base := fun (s : State) => (D s / 2 ^ 20 % 2 ^ 20 : Nat)
    let stride := fun (s : State) => (D s / 2 ^ 44 % 2 ^ 20 : Nat)
    let stat := fun (k : BitVec 6) (f : Ring → Nat) => SGoes (.ringstat r d k) (fun s => mine s ∨ s.me.level = true)
      fun s => s.put (s.me.ws r.toNat (BitVec.ofNat 64 (f (ring s))))
    SGoes (.ringcfg d a) (fun s => (ring s).owner = none ∧ s.segOk 0 (off s) 16 8 .load ∧ s.my.bad (x s) 16 = false
        ∧ base s % 128 = 0 ∧ stride s % 128 = 0 ∧ s.segOk 0 (base s) (D s % 16 * stride s + 2048) 128 .load) (fun s =>
        let q := s.touch s.cur.1 (x s) 16
        q.wentOn (q.my.setRing n ⟨some s.cur.2, s.la 0 (base s), base s, stride s, D s % 16, D s / 2 ^ 112 % 2 ^ 16,
          D s / 2 ^ 64 % 2 ^ 12, 0, 0, 0⟩) (s.me.next s.me.pc))
    ∧ SGoes (.ringcfgRel d) (fun s => mine s ∧ s.my.ringIdle n s.cur.2 = true) (fun s =>
        s.wentOn (s.my.setRing n { ring s with owner := none }) (s.me.next s.me.pc))
    ∧ SGoes (.ringcfgRel d) (fun s => mine s ∧ s.my.ringIdle n s.cur.2 = false) (fun s =>
        s.awaits s.my .parked (.unit (.ringcfgRel d) 0))
    ∧ SGoes (.ringadv d) (fun s => mine s ∧ s.me.imv = false ∧ s.my.mx.run = none ∧ (ring s).count ≤ (ring s).nsm1) (fun s =>
        s.wentOn (s.my.setRing n { ring s with
          tail := ((ring s).tail + 1) % ((ring s).nsm1 + 1), count := (ring s).count + 1 }) (s.me.next s.me.pc))
    ∧ SGoes (.ringadv d) (fun s => mine s ∧ s.me.imv = false ∧ s.my.mx.run = none ∧ (ring s).nsm1 < (ring s).count) (fun s =>
        s.awaits s.my .parked (.ring (.ringadv d)))
    ∧ SGoes (.ringadvPop d) (fun s => mine s ∧ s.me.imv = false ∧ (ring s).count ≠ 0) (fun s =>
        s.wentOn (s.my.setRing n { ring s with
          head := ((ring s).head + 1) % ((ring s).nsm1 + 1), count := (ring s).count - 1, kb := ((ring s).kb + 1) % 65536 })
          (s.me.next s.me.pc))
    ∧ SGoes (.ringadvPop d) (fun s => mine s ∧ s.me.imv = false ∧ (ring s).count = 0) (fun s =>
        s.awaits s.my .parked (.ring (.ringadvPop d)))
    ∧ stat 0 (fun g =>
        g.kb * 2 ^ 48 + g.row0 * 2 ^ 36 + g.nsm1 * 2 ^ 20 + g.count * 2 ^ 8 + g.head * 2 ^ 4 + g.tail)
    ∧ stat 1 (fun g => g.base + g.tail * g.stride) ∧ stat 2 (fun g => g.base + g.head * g.stride)
    ∧ SGoes (.geomset w) always (fun s => s.put { s.me with geom := s.rs w.toNat &&& 0x03FFFFFFFFFFFFFF#64 })
    ∧ SGoes (.geommask d c) always (fun s =>
        s.put (s.me.wm n (BitVec.ofNat 32 (2 ^ (if c = 1 then (extent s.me.geom).2 else (extent s.me.geom).1) - 1))))

/-- R146, R149, R153 to R155: MZERO makes its slot the accumulator's owner and hands a clear to the unit; MZERO.rel releases
it when no unretired step names it; MLOAD and MDRAIN hand a move of the valid rows and columns to the unit, and MMA a step, and
the slot of each parks.
Where a clause rests on a choice of the model, it is that of log entry 28. -/
def Obligations.AccumulatorInstructions : Prop :=
  ∀ (d qa qb : BitVec 3) (a b : BitVec 6) (c : BitVec 3) (sat clr ha hb : BitVec 1),
    let n := d.toNat
    let acc := fun (s : State) => s.my.accOf n
    let free := fun (s : State) => (acc s).owner = none ∨ (acc s).owner = some s.cur.2
    let e := fun (s : State) => extent s.me.geom
    let es := mEs c.toNat
    let off := fun (s : State) (i : Nat) => ((s.rs a.toNat).toNat : Int) + ((i * (s.rs b.toNat).toNat : Nat) : Int)
    let rows := fun (s : State) (k : AccKind) => ∀ i < (e s).1, s.segOk 0 (off s i) ((e s).2 * es) es k
    let int := fun (s : State) => s.me.fxc.toNat % 16 = 1
    let move := fun (s : State) (load : Bool) (x : Core) => s.awaits (x.handOp (.move ⟨load, s.cur.2, n, c.toNat,
      (List.range (e s).1).map (fun i => s.la 0 (off s i)), (s.rs a.toNat).toNat, (s.rs b.toNat).toNat, (e s).2⟩))
      .parked .matrix
    SGoes (.mzero d) (fun s => free s ∧ s.me.fxc.toNat % 16 ≤ 1) (fun s =>
        s.wentOn ((s.my.setAcc n { acc s with int32 := decide (int s), owner := some s.cur.2 }).handOp (.clear n))
          (s.me.next s.me.pc))
    ∧ SGoes (.mzeroRel d) (fun s => (acc s).owner = some s.cur.2 ∧ s.my.accIdle n s.cur.2 = true) (fun s =>
        s.wentOn (s.my.setAcc n { acc s with owner := none }) (s.me.next s.me.pc))
    ∧ SGoes (.mzeroRel d) (fun s => (acc s).owner = some s.cur.2 ∧ s.my.accIdle n s.cur.2 = false) (fun s =>
        s.awaits s.my .parked (.unit (.mzeroRel d) 0))
    ∧ SGoes (.mload c d a b) (fun s => free s ∧ s.me.fxc.toNat % 16 ≤ 1 ∧ mSuits c.toNat (decide (int s)) = true
        ∧ rows s .load) (fun s =>
        move s true (s.my.setAcc n { acc s with int32 := decide (int s), owner := some s.cur.2 }))
    ∧ SGoes (.mdrain c d a b) (fun s => ((acc s).owner = some s.cur.2 ∨ s.me.level = true)
        ∧ mSuits c.toNat (acc s).int32 = true ∧ rows s .store) (fun s => move s false s.my)
    ∧ VGoes (.mma d qa qb sat clr ha hb) (fun s =>
        s.my.mmaTrap s.cur.2 n qa.toNat qb.toNat (decide (sat = 1)) = none ∧ s.me.imv = false) (fun s =>
        s.awaits (s.my.handOp (.step ⟨false, s.cur.2, n, qa.toNat, qb.toNat, decide (clr = 1), decide (sat = 1),
          decide (ha = 1), decide (hb = 1), s.me.fxa, s.me.fxb, s.me.fxc, s.me.spa, s.me.spb, s.me.geom, 0, 0, 0, 0, [], [], [],
          [], 0, s.my.mx.handed⟩)) .parked .mma)

/-- R137, R147 to R149, R153 to R156: the free unit starts the operation at the head of its queue: a step whose rings hold
tiles takes them and their scale words, and retires after its time with the accumulator's new rows and its rings popped; a
clear leaves rows of zeros; a load fills the accumulator from memory, and a drain stores it row by row. A ring's waiting push
or pop acts when it can, and so do the instructions that wait for a unit.
Where a clause rests on a choice of the model, it is that of log entries 2, 28, 30 and 34. -/
def Obligations.MatrixUnit : Prop :=
  ∀ (c i a : Nat) (t u : MStep) (m : MMove) (rest : List MxOp) (e : Nat) (data : BitVec 256) (q : BitVec 3) (y : BitVec 6),
    i < 16 →
    let mx := fun (s : State) => (s.core c).mx
    let ready := fun (s : State) => (mx s).run = none ∧ (mx s).free ≤ s.now
    let clean := fun (s : State) => (s.core c).err1 = [] ∧ (s.core c).err2 = []
    let es := mEs m.code
    let out := fun (s : State) (r j : Nat) => drainConv m.code (VReg.elem (vget ((s.core c).accOf m.acc).rows r 0) 32 j)
    let tile := fun (s : State) (ws : List W32) (p : Nat) =>
      ws = ws.mapIdx fun k _ => BitVec.ofNat 32 (Memory.read (s.core c).mem (p + 4 * k) 4)
    EGoes (.accumulatorClear c) (fun s => ready s ∧ (mx s).queue = .clear a :: rest) (fun s =>
      s.setCore c { (s.core c).setAcc a { (s.core c).accOf a with rows := Vector.replicate 32 0 } with
        mx := { mx s with queue := rest, free := s.now + 1 } })
    ∧ EGoes (.mmaStepStart c) (fun s => ready s ∧ (mx s).queue = .step t :: rest ∧ (t.seqr = true ∨ rest.any MxOp.isSeq = false)
        ∧ ((s.core c).ringOf t.qa).count ≠ 0 ∧ ((s.core c).ringOf t.qb).count ≠ 0 ∧ clean s
        ∧ (s.core c).takeTiles t = .ok u) (fun s =>
      (s.setCore c { s.core c with mx := { mx s with queue := rest, run := some (.step u, s.now + u.time - 1) } }).after
        (u.time - 1) (.mmaStepRetire c))
    ∧ EGoes (.mmaStepStart c) (fun s => ready s ∧ (mx s).queue = .move m :: rest) (fun s =>
      (s.setCore c { s.core c with mx := { mx s with queue := rest, run := some (.move m, s.now + (m.cycles es - 1)) } }).after
        (m.cycles es - 1) (.matrixOpComplete c))
    ∧ EGoes (.mmaStepRetire c) (fun s => (mx s).run = some (.step t, e) ∧ e ≤ s.now ∧ (mx s).upsets = 0 ∧ t.seqr = true
        ∧ ((s.core c).accOf t.acc).owner = some i ∧ tile s t.lineA t.tileA ∧ tile s t.lineB t.tileB) (fun s =>
      let r := t.result ((s.core c).accOf t.acc)
      let x := { (s.core c).setAcc t.acc { (s.core c).accOf t.acc with rows := r.1 } with
        mx := { mx s with run := none, free := s.now + 1 } }
      ({ s with nonce := s.nonce + t.lineA.length + t.lineB.length }.setCore c
        (t.pops.foldl (fun x q => x.setRing q (x.ringOf q).pop) x)).raise c i r.2)
    ∧ EGoes (.matrixOpComplete c) (fun s => (mx s).run = some (.move m, e) ∧ e ≤ s.now ∧ clean s ∧ m.load = true ∧ m.slot = i
        ∧ (s.core c).directMma i = false ∧ m.rows.length ≤ 32 ∧ ((s.core c).accOf m.acc).owner = some i) (fun s =>
      let e := fun (r j : Nat) => loadConv m.code (Memory.read (s.core c).mem (m.rows.getD r 0 + j * es) es)
      let v := (s.setCore c ({ s.core c with mx := { mx s with run := none, free := s.now + 1 } }.setAcc m.acc
        { (s.core c).accOf m.acc with rows := Vector.ofFn fun r => VReg.ofElems 32 fun j =>
            if r.val < m.rows.length ∧ j < m.cv then (e r.val j).1 else 0 })).raise c i
        ((List.range m.rows.length).flatMap fun r => (List.range m.cv).map fun j => (e r j).2)
      v.woken c i (v.core c) (v.slot c i))
    ∧ EGoes (.matrixOpComplete c) (fun s => (mx s).run = some (.move m, e) ∧ e ≤ s.now ∧ clean s ∧ m.load = false ∧ m.slot = i
        ∧ (s.core c).directMma i = false ∧ ((s.core c).accOf m.acc).owner = some i) (fun s =>
      let x := m.rows.zipIdx.foldl (fun (x : Core) r =>
        x.drainRow r.1 (m.cv * es) (packN (8 * es) (fun j => (out s r.2 j).1) m.cv) [])
        { s.core c with mx := { mx s with run := none, free := s.now + 1 } }
      let v := (s.setCore c x).raise c i
        ((List.range m.rows.length).flatMap fun r => (List.range m.cv).map fun j => (out s r j).2)
      v.woken c i (v.core c) (v.slot c i))
    ∧ EGoes (.ringWaitEnd c i) (fun s => (s.slot c i).held = .ring (.ringadv q)
        ∧ ((s.core c).ringOf q.toNat).count ≤ ((s.core c).ringOf q.toNat).nsm1 ∧ (s.core c).directMma i = false) (fun s =>
      s.woken c i ((s.core c).setRing q.toNat ((s.core c).ringOf q.toNat).push) (s.slot c i))
    ∧ EGoes (.ringWaitEnd c i) (fun s => (s.slot c i).held = .ring (.ringadvPop q)
        ∧ ((s.core c).ringOf q.toNat).count ≠ 0 ∧ (s.core c).directMma i = false) (fun s =>
      s.woken c i ((s.core c).setRing q.toNat ((s.core c).ringOf q.toNat).pop) (s.slot c i))
    ∧ EGoes (.unitWaitEnd c i) (fun s => (s.slot c i).held = .unit (.ringcfg q y) data
        ∧ (s.core c).ringIdle q.toNat i = true ∧ (s.core c).directMma i = false) (fun s =>
      s.woken c i ((s.core c).ringSetup q.toNat i data) (s.slot c i))
    ∧ EGoes (.unitWaitEnd c i) (fun s => (s.slot c i).held = .unit (.mzeroRel q) data
        ∧ (s.core c).accIdle q.toNat i = true ∧ (s.core c).directMma i = false) (fun s =>
      s.woken c i ((s.core c).setAcc q.toNat { (s.core c).accOf q.toNat with owner := none }) (s.slot c i))
    ∧ EGoes (.unitWaitEnd c i) (fun s => (s.slot c i).held = .unit (.repwait y) data ∧ (s.core c).seqr.run = false
        ∧ (s.core c).seqr.fault = none ∧ (s.core c).directMma i = false) (fun s =>
      s.woken c i (s.core c) ((s.slot c i).ws y.toNat (BitVec.ofNat 64 (s.core c).seqr.done)))

/-- R157 to R163: REPCAP opens capture and REPCAP.rel gives the buffer up; REPGO starts the captured V syllables and REPWAIT
gives the repetitions done, each after a sequence that runs. The sequencer hands an MMA to the unit as its owner would, and
a sequence ends when its last syllable is done and its steps have retired.
Where a clause rests on a choice of the model, it is that of log entries 32 and 100. -/
def Obligations.RepetitionSequencer : Prop :=
  ∀ (n d a b : BitVec 6) (c : Nat) (acc qa qb : BitVec 3) (sat clr ha hb : BitVec 1) (t : State),
    let q := fun (s : State) => s.my.seqr
    let mine := fun (s : State) => (q s).owner = some s.cur.2 ∧ (q s).fault = none
    let cnt := fun (s : State) => (s.rs a.toNat).toNat % 65536
    let sq := fun (s : State) => (s.core c).seqr
    let next := fun (r : Seqr) (now : Nat) => if r.k + 1 = r.syl.length
      then { r with k := 0, t := r.t + 1, done := r.t + 1, next := now + 8 } else { r with k := r.k + 1, next := now + 8 }
    SGoes (.repcap n) (fun s => (mine s ∨ ((q s).owner = none ∧ (q s).fault = none)) ∧ (q s).run = false) (fun s =>
        s.wentOn { s.my with seqr := { q s with owner := some s.cur.2, syl := [], want := n.toNat } } (s.me.next s.me.pc))
    ∧ SGoes (.repcap n) (fun s => mine s ∧ (q s).run = true) (fun s => s.awaits s.my .parked (.unit (.repcap n) 0))
    ∧ SGoes .repcapRel (fun s => mine s ∧ (q s).run = false) (fun s =>
        s.wentOn { s.my with seqr := { q s with owner := none, syl := [], want := 0, fault := none } } (s.me.next s.me.pc))
    ∧ SGoes .repcapRel (fun s => mine s ∧ (q s).run = true) (fun s => s.awaits s.my .parked (.unit .repcapRel 0))
    ∧ SGoes (.repgo a b) (fun s => mine s ∧ (q s).want = 0 ∧ s.me.imv = false ∧ (q s).run = false) (fun s =>
        s.wentOn { s.my with seqr := { q s with
          stride := s.rs b.toNat, count := cnt s, t := 0, k := 0, geom := s.me.geom, next := s.now + 1
          run := cnt s != 0 && !(q s).syl.isEmpty, done := if (q s).syl.isEmpty then cnt s else 0 } } (s.me.next s.me.pc))
    ∧ SGoes (.repgo a b) (fun s => mine s ∧ (q s).want = 0 ∧ s.me.imv = false ∧ (q s).run = true) (fun s =>
        s.awaits s.my .parked (.unit (.repgo a b) (repData (s.rs a.toNat) (s.rs b.toNat))))
    ∧ SGoes (.repwait d) (fun s => mine s ∧ (q s).run = false) (fun s =>
        s.put (s.me.ws d.toNat (BitVec.ofNat 64 (q s).done)))
    ∧ SGoes (.repwait d) (fun s => mine s ∧ (q s).run = true) (fun s => s.awaits s.my .parked (.unit (.repwait d) 0))
    ∧ EGoes (.sequencerIssue c) (fun s => s.seqWants c = true ∧ (sq s).syllable = .mma acc qa qb sat clr ha hb
        ∧ (s.core c).mmaTrap ((sq s).owner.getD 0) acc.toNat qa.toNat qb.toNat (decide (sat = 1)) = none) (fun s =>
      let o := s.slot c ((sq s).owner.getD 0)
      s.setCore c { (s.core c).handOp (.step ⟨true, (sq s).owner.getD 0, acc.toNat, qa.toNat, qb.toNat, decide (clr = 1),
        decide (sat = 1), decide (ha = 1), decide (hb = 1), o.fxa, o.fxb, o.fxc, o.spa, o.spb, (sq s).geom, (sq s).t, (sq s).k,
        0, 0, [], [], [], [], 0, (s.core c).mx.handed⟩) with seqr := next (sq s) s.now })
    ∧ EGoes (.sequencerIssue c) (fun s => s.seqWants c = true ∧ isMma (sq s).syllable = false
        ∧ semV (sq s).syllable { s with cur := (c, (sq s).owner.getD 0) } { s with cur := (c, (sq s).owner.getD 0) } = .ok t)
      (fun s =>
        let words := popWords (s.core c) (t.core c)
          ++ (State.slotWords { s with cur := (c, (sq s).owner.getD 0) } (sq s).syllable).map (·.2)
        { t.setCore c { t.core c with
            seqr := next (t.core c).seqr s.now, taken := (t.core c).taken ++ words.map fun w => (s.now, w % 64) } with
          cur := s.cur })
    ∧ EGoes (.sequenceEnd c) (fun s => (sq s).run = true ∧ (sq s).count ≤ (sq s).t ∧ (s.core c).handed MStep.seqr = false)
      (fun s => s.setCore c { s.core c with seqr := { sq s with run := false } })

/-- R171, R172, R174, R178 to R183: CXOPEN places a side of a free or own cursor from its descriptor, and CXOPEN.rel gives the
cursor up; CXAND, CXOR and CXDIFF start it over from the beginning of both sides; CXNEXT and CXNEXT.w write a window's pairs
or words, its mask and whether the cursor has ended; CXSPLIT gives the upper half of a range to another cursor, or says that it
did not; CXSAVE and CXREST move the image, and CXSTAT reads the status.
Where a clause rests on a choice of the model, it is that of log entries 35 and 36. -/
def Obligations.StrainerInstructions : Prop :=
  ∀ (d e : BitVec 3) (a b v : BitVec 6) (p m : BitVec 3) (side : BitVec 1) (n sa sb : Side) (w : Walk) (mid c c0 : Nat)
    (l : List (Nat × Nat)),
    let x := fun (s : State) => s.my.cxOf d.toNat
    let mine := fun (s : State) => (x s).owner = some s.cur.2
    let free := fun (s : State) => (x s).owner = none ∨ mine s
    let off := fun (s : State) => ((s.rs a.toNat).toNat : Int)
    let y := fun (s : State) => s.la 0 (off s)
    let rd := fun (s : State) (k : Nat) => Memory.read s.my.mem (y s + 8 * k) 8
    let keep := fun (o : Side) => { n with pos := o.pos, ord := o.ord, prev := o.prev, started := o.started }
    let set := fun (s : State) (z : Cursor) => s.wentOn (s.my.setCx d.toNat z) (s.me.next s.me.pc)
    let lo := fun (s : State) => (s.rs a.toNat).toNat % 2 ^ 32
    let hi := fun (s : State) => min (s.rs b.toNat).toNat (2 ^ 32)
    let start := fun (i : Instr) (op : Nat) => SGoes i (fun s => mine s ∧ (x s).a.valid = true ∧ (x s).b.valid = true)
      fun s => set s { x s with
        op := op, lo := lo s, hi := hi s, st := if hi s ≤ lo s then .ended else .run
        a := { (x s).a with pos := 0, ord := 0, prev := 0, started := false }
        b := { (x s).b with pos := 0, ord := 0, prev := 0, started := false } }
    let out := fun (s : State) (z : Core) (f : Nat → Nat × Nat × Nat) (k : Nat) (fin : Bool) =>
      let t := ((s.me.wv v.toNat (VReg.ofElems 32 fun j => (f j).1)).wv (v.toNat + 1) (VReg.ofElems 32 fun j => (f j).2.1)).wv
        (v.toNat + 2) (VReg.ofElems 32 fun j => (f j).2.2)
      s.wentOn z (((t.wm m.toNat (BitVec.ofNat 32 (2 ^ k - 1))).wp p.toNat fin).next s.me.pc)
    let plain := fun (s : State) => mine s ∧ s.plain [v.toNat, v.toNat + 1, v.toNat + 2] ∧ s.my.err1 = []
    let half := fun (s : State) => (x s).st = .run ∧ (x s).a.enc = 1 ∧ 64 ≤ (x s).a.len - (x s).a.ord
    let q := fun (s : State) => (x s).wordQ.1
    let h := fun (s : State) => (x s).wordQ.2
    let lanes := fun (s : State) => min 32 ((h s + 31) / 32 - q s / 32)
    let far := fun (s : State) => 32 * (q s / 32 + lanes s)
    let bmaps := fun (s : State) =>
      (x s).a.enc = 0 ∧ (x s).b.enc = 0 ∧ (x s).a.org % 32 = 0 ∧ (x s).b.org % 32 = 0
    let stat := fun (k : BitVec 6) (f : Cursor → Nat) =>
      SGoes (.cxstat a d k) mine fun s => s.put (s.me.ws a.toNat (BitVec.ofNat 64 (f (x s))))
    SGoes (.cxopen d a side) (fun s => free s ∧ s.segOk 0 (off s) 16 8 .load ∧ s.my.bad (y s) 16 = false
        ∧ (Side.ofDesc (rd s 0) (rd s 1)).malformed = false ∧ rd s 0 / 2 ^ 20 % 2 ^ 8 = 0 ∧ rd s 1 / 2 ^ 24 % 2 ^ 8 = 0
        ∧ (Side.ofDesc (rd s 0) (rd s 1)).idx % (Side.ofDesc (rd s 0) (rd s 1)).unit = 0
        ∧ ((Side.ofDesc (rd s 0) (rd s 1)).vfmt ≠ 0 →
            (Side.ofDesc (rd s 0) (rd s 1)).val % vfSize (Side.ofDesc (rd s 0) (rd s 1)).vfmt = 0)
        ∧ (Side.ofDesc (rd s 0) (rd s 1)).place (s.me.rsg 0) = .ok n) (fun s =>
        let t := s.touch s.cur.1 (y s) 16
        t.wentOn (t.my.setCx d.toNat { (if side = 0 then { x s with a := keep (x s).a } else { x s with b := keep (x s).b }) with
          owner := some s.cur.2, st := .opened, op := 0 }) (s.me.next s.me.pc))
    ∧ SGoes (.cxopenRel d) mine (fun s => set s { x s with
        owner := none, st := .closed, a := { (x s).a with valid := false }, b := { (x s).b with valid := false } })
    ∧ start (.cxand d a b) 1 ∧ start (.cxor d a b) 2 ∧ start (.cxdiff d a b) 3
    ∧ SGoes (.cxnext v d p m) (fun s => plain s ∧ (x s).st = .ended) (fun s =>
        out s s.my (fun _ => (0xFFFFFFFF, 0xFFFFFFFF, 0xFFFFFFFF)) 0 true)
    ∧ SGoes (.cxnext v d p m) (fun s => plain s ∧ (x s).st = .run
        ∧ s.my.walk ⟨(x s).op, (x s).lo, (x s).hi, (x s).a.windowAt + 128, (x s).b.windowAt + 128, s.me.fxc.getLsbD 8⟩
          ⟨(x s).a, (x s).b, 0, 0, [], [], 0, false⟩ 68 = .ok w) (fun s =>
        out s ((s.my.setCx d.toNat { x s with a := w.a, b := w.b, st := if w.ended then .ended else .run }).count 7 w.special)
          (fun j => w.out.reverse.getD j (0xFFFFFFFF, 0xFFFFFFFF, 0xFFFFFFFF)) w.out.length w.ended)
    ∧ SGoes (.cxnextW v d p m) (fun s => plain s ∧ ((x s).st = .ended ∨ (x s).st = .run) ∧ bmaps s
        ∧ ((x s).st = .ended ∨ h s ≤ q s)) (fun s =>
        out s (s.my.setCx d.toNat { x s with st := .ended }) (fun _ => (0, 0, 0)) 0 true)
    ∧ SGoes (.cxnextW v d p m) (fun s => plain s ∧ (x s).st = .run ∧ bmaps s ∧ q s < h s
        ∧ s.my.wordLanes (x s).a (x s).b (q s / 32) (lanes s) = .ok l ∧ s.my.wordMove (x s).a (far s) = .ok sa
        ∧ s.my.wordMove (x s).b (far s) = .ok sb) (fun s =>
        let comb := fun (u w : Nat) => if (x s).op = 1 then u &&& w else if (x s).op = 2 then u ||| w else u ^^^ (u &&& w)
        let mask := fun j => 2 ^ (min 32 (h s - 32 * (q s / 32 + j))) - 2 ^ (q s - 32 * (q s / 32 + j))
        out s (s.my.setCx d.toNat { x s with a := sa, b := sb, st := if h s ≤ far s then .ended else .run })
          (fun j => if j < l.length then (comb (l.getD j (0, 0)).1 (l.getD j (0, 0)).2 &&& mask j, l.getD j (0, 0)) else (0, 0, 0))
          (lanes s) (decide (h s ≤ far s)))
    ∧ SGoes (.cxsplit e d p) (fun s => mine s ∧ ((s.my.cxOf e.toNat).owner = none ∨ (s.my.cxOf e.toNat).owner = some s.cur.2)
        ∧ ¬half s) (fun s => s.put (s.me.wp p.toNat false))
    ∧ SGoes (.cxsplit e d p) (fun s => mine s ∧ ((s.my.cxOf e.toNat).owner = none ∨ (s.my.cxOf e.toNat).owner = some s.cur.2)
        ∧ half s ∧ s.my.err1 = [] ∧ mid = (x s).a.ord + ((x s).a.len - (x s).a.ord) / 2
        ∧ s.my.cxRead (x s).a.lidx (x s).a.idx (4 * mid) 4 = .ok c
        ∧ s.my.cxRead (x s).a.lidx (x s).a.idx (4 * (x s).a.ord) 4 = .ok c0 ∧ c0 < c ∧ (x s).lo < c ∧ c < (x s).hi) (fun s =>
        s.wentOn ((s.my.setCx e.toNat { x s with
          owner := some s.cur.2, lo := c, a := { (x s).a with pos := mid, ord := mid, started := false } }).setCx d.toNat
            { x s with hi := c }) ((s.me.wp p.toNat true).next s.me.pc))
    ∧ SGoes (.cxsave d a) (fun s => (mine s ∨ s.me.level = true) ∧ s.segOk 0 (off s) 64 8 .store) (fun s =>
        s.wentOn (s.my.wr (y s) 64 (x s).image) (s.me.next s.me.pc))
    ∧ SGoes (.cxrest d a) (fun s => free s ∧ s.me.level = false ∧ s.segOk 0 (off s) 64 8 .load ∧ s.my.bad (y s) 64 = false
        ∧ (Side.ofImage (rd s 0) (rd s 1) (rd s 4) (rd s 6 / 2 ^ 32 % 2 ^ 32)).imageBad (rd s 1) = false
        ∧ (Side.ofImage (rd s 2) (rd s 3) (rd s 5) (rd s 6 % 2 ^ 32)).imageBad (rd s 3) = false ∧ rd s 0 / 2 ^ 20 % 2 = 0
        ∧ (Side.ofImage (rd s 0) (rd s 1) (rd s 4) (rd s 6 / 2 ^ 32 % 2 ^ 32)).placeValid (s.me.rsg 0) = .ok sa
        ∧ (Side.ofImage (rd s 2) (rd s 3) (rd s 5) (rd s 6 % 2 ^ 32)).placeValid (s.me.rsg 0) = .ok sb) (fun s =>
        let t := s.touch s.cur.1 (y s) 64
        t.wentOn (t.my.setCx d.toNat ⟨sa, sb, rd s 0 / 2 ^ 24 % 4, rd s 7 / 2 ^ 32 % 2 ^ 32, rd s 7 % 2 ^ 32 + 1,
          CxSt.ofCode (rd s 0 / 2 ^ 22 % 4), some s.cur.2⟩) (s.me.next s.me.pc))
    ∧ stat 0 (·.status) ∧ stat 1 (·.a.ord) ∧ stat 2 (·.b.ord)
    ∧ stat 5 (fun z => if z.st = .run then z.wordQ.1 else 0xFFFFFFFF)

/-- R239, R243 to R246, R250 to R253: the engine's instructions: a group, an operator and tiles are set for the owner, or its
slot parks while tiles are queued; SCNFIX, SCNFIX.st, SCNXCH, FBAR and FCOMB start their operation and park their slot. -/
def Obligations.ScanInstructions : Prop :=
  ∀ (a b d : BitVec 6) (ch f : BitVec 1),
    let e := fun (s : State) => s.my.scan
    let mine := fun (s : State) => (e s).owner = some s.cur.2
    let set := fun (s : State) (z : Scan) => s.wentOn { s.my with scan := z } (s.me.next s.me.pc)
    let F := fun (s : State) => (s.rs a.toNat).toNat
    let C := fun (s : State) => (s.rs b.toNat).toNat
    let group := fun (s : State) => s.cur.2 < 14 ∧ ((e s).owner = none ∨ mine s) ∧ C s ≠ 0 ∧ F s + C s ≤ s.my.gsize
      ∧ F s ≤ s.my.rank ∧ s.my.rank < F s + C s
    let off := fun (s : State) => ((s.rs a.toNat).toNat : Int)
    let w := fun (s : State) => Memory.read s.my.mem (s.la 0 (off s)) 32
    let desc := fun (s : State) => mine s ∧ (e s).opv = true ∧ s.segOk 0 (off s) 32 8 .load
      ∧ s.my.bad (s.la 0 (off s)) 32 = false ∧ tdMalformed (w s) (decide ((e s).op = 7)) = false
    let span := fun (s : State) (o : Nat → Nat) (k : AccKind) =>
      o (w s) % 128 = 0 ∧ s.segOk 0 (o (w s)) (128 * tdRows (w s)) 128 k
    let aff := fun (s : State) (o : Nat → Nat) => if (e s).op = 7 then s.la 0 (o (w s)) else 0
    let tile := fun (s : State) => desc s ∧ span s tdX .load ∧ span s tdY .store
      ∧ ((e s).op = 7 → span s tdA .load ∧ span s tdP .store)
    let op := fun (s : State) (k : FlueKind) (r x : Nat) (v : LaneVal) (y : Core) =>
      s.awaits { y with scan := { e s with
        flue := some ⟨k, s.cur.2, r, if (e s).tiles = [] then some s.now else none, v, x, false, false⟩ } } .parked .flue
    let clear := fun (s : State) (k : FlueKind) =>
      mine s ∧ s.me.imv = false ∧ (e s).flue = none ∧ ∀ m ∈ (e s).held, (e s).misfit k m = false
    SGoes (.scngrp ch a b) (fun s => group s ∧ (e s).tiles = []) (fun s => set s { e s with
        owner := some s.cur.2, first := F s, count := C s, gv := true, chain := decide (ch = 1), opv := false, round := 0
        run := LaneVal.identity, cin := LaneVal.identity, tot := LaneVal.identity, flue := none
        held := (e s).held.filter fun m => m.first = F s && m.count = C s })
    ∧ SGoes (.scngrp ch a b) (fun s => group s ∧ (e s).tiles ≠ []) (fun s =>
        s.awaits s.my .parked (.unit (.scngrp ch a b) (BitVec.ofNat 256 (F s + C s * 2 ^ 64))))
    ∧ SGoes .scngrpRel (fun s => s.cur.2 < 14 ∧ mine s ∧ (e s).tiles = []) (fun s =>
        set s { e s with owner := none, gv := false, opv := false, flue := none })
    ∧ SGoes (.scnop a) (fun s => mine s ∧ F s < 8 ∧ (e s).gv = true ∧ (e s).tiles = []) (fun s => set s { e s with
        op := F s, opv := true, run := LaneVal.identity, cin := LaneVal.identity, tot := LaneVal.identity })
    ∧ SGoes (.scntile a) (fun s => tile s ∧ (e s).tiles.length < 2) (fun s =>
        let q := s.touch s.cur.1 (s.la 0 (off s)) 32
        q.wentOn { q.my with scan := { e s with tiles := (e s).tiles ++ [⟨s.la 0 (tdX (w s)), s.la 0 (tdY (w s)), aff s tdA,
          aff s tdP, tdRows (w s), 0, s.now + 1, s.me.imv, none⟩] } } (s.me.next s.me.pc))
    ∧ SGoes (.scnfix a) (fun s => desc s ∧ span s tdY .load ∧ span s tdY .store ∧ ((e s).op = 7 → span s tdP .load)) (fun s =>
        let q := s.touch s.cur.1 (s.la 0 (off s)) 32
        q.awaits { q.my with scan := { e s with
          fix := some ⟨0, s.la 0 (tdY (w s)), 0, aff s tdP, tdRows (w s), 0, s.now + 1, false, none⟩ } } .parked .scnfix)
    ∧ SGoes (.scnfixSt a) (fun s => mine s ∧ s.segOk 0 (off s) 832 64 .store) (fun s =>
        s.awaits { s.my with scan := { e s with image := some (s.la 0 (off s), 0, s.now + 1) } } .parked .scnfix)
    ∧ SGoes (.scnxch d 0) (fun s => clear s .xchSemi ∧ (e s).opv = true) (fun s => op s .xchSemi d.toNat 0 (e s).run s.my)
    ∧ SGoes (.scnxch d 1) (fun s => clear s .xchFull ∧ (e s).opv = true) (fun s => op s .xchFull d.toNat 0 (e s).run s.my)
    ∧ SGoes (.fbar d) (fun s => clear s .bar ∧ (e s).gv = true) (fun s => op s .bar d.toNat 0 LaneVal.identity s.my)
    ∧ SGoes (.fcomb a f) (fun s => clear s .comb ∧ (e s).gv = true ∧ s.segOk 0 (off s) 64 64 .store) fun s =>
        op s .comb 0 (s.la 0 (off s)) ⟨false, 0, VReg.ofElems 32 fun j => if j < 16 then (vget s.my.ev j 0).toNat else 0⟩
          (if f = 1 then { s.my with ev := Vector.replicate 16 0 } else s.my)

/-- R241, R246, R247, R249 to R255: a running tile composes its next row into RUN and writes it, an AFFINE tile reads its row
first, and a tile that is done lets the next one start; SCNFIX applies the carry to a row, and SCNFIX.st writes the next strip
of the image. A member's operation passes its value to the next rank of its segment, and a barrier whose total has arrived
gives its round and ends; a value that arrives is kept for its operation, and one that waits for a place leaves when there is
one.
Where a clause rests on a choice of the model, it is that of log entries 3, 41, 42 and 43. -/
def Obligations.ScanEngineAndFlue : Prop :=
  ∀ (c : Nat) (t t2 : Tile) (l : List Tile) (msg m : FlueMsg) (snd : FlueSend) (ws : List FlueSend) (f : FlueOp)
    (v C : LaneVal × W64) (x k n : Nat),
    let e := fun (s : State) => (s.core c).scan
    let quiet := fun (s : State) => (∀ i ∈ slotNums, (s.slot c i).last ≠ some s.now) ∧ (s.core c).err1 = []
      ∧ (s.core c).err2 = []
    let row := fun (s : State) (a : Nat) => BitVec.ofNat 1024 (Memory.read (s.core c).mem (a + 128 * t.row) 128)
    let r := fun (s : State) => compose (e s).op (e s).run ⟨false, 0, row s t.x⟩
    let scanned := fun (s : State) (ts : List Tile) =>
      let y := ({ s.core c with scan := { e s with run := (r s).1 } }).engWr (t.y + 128 * t.row) 128 (r s).1.b.toNat
      ((s.setCore c y).scanRaise c 0 (r s).2).modCore c fun z => { z with scan := { z.scan with tiles := ts } }
    let tile := fun (s : State) => quiet s ∧ (e s).tiles = t :: l ∧ t.ready ≤ s.now ∧ t.got = none ∧ (e s).op ≠ 7
    let fixed := fun (s : State) => (List.range 32).map fun j => fixWord (e s).op (e s).cin j (VReg.elem (row s t.y) 32 j) 0
    let pass := fun (s : State) => flueCompose f.kind (e s).code v.1 f.val
    let here := fun (s : State) => (s.core c).rank
    EGoes (.scanTileRow c) (fun s => tile s ∧ t.row + 1 < t.rows) (fun s =>
      scanned s ({ t with row := t.row + 1, ready := s.now + 1 } :: l))
    ∧ EGoes (.scanTileRow c) (fun s => tile s ∧ t.rows ≤ t.row + 1 ∧ l = t2 :: l.tail) (fun s =>
      scanned s ({ t2 with ready := s.now + 1 } :: l.tail))
    ∧ EGoes (.scanTileRow c) (fun s => quiet s ∧ (e s).tiles = t :: l ∧ t.ready ≤ s.now ∧ t.got = none ∧ (e s).op = 7) (fun s =>
      s.setCore c { s.core c with scan := { e s with
        tiles := { t with ready := s.now + 1, got := some (row s t.x, row s t.a, 0) } :: l } })
    ∧ EGoes (.scnfixRow c) (fun s => quiet s ∧ (e s).fix = some t ∧ (e s).tiles = [] ∧ t.ready ≤ s.now ∧ t.got = none
        ∧ (e s).op ≠ 7 ∧ t.row + 1 < t.rows) (fun s =>
      (((s.setCore c ((s.core c).engWr (t.y + 128 * t.row) 128
        (VReg.ofElems 32 fun j => ((fixed s).getD j (0, {})).1).toNat)).scanRaise c 0 ((fixed s).map (·.2))).modCore c
          fun z => { z with scan := { z.scan with fix := some { t with row := t.row + 1, ready := s.now + 1 } } }))
    ∧ EGoes (.scanImageStripWrite c) (fun s => quiet s ∧ (e s).image = some (x, k, n) ∧ (e s).tiles = [] ∧ n ≤ s.now ∧ k < 6)
      (fun s =>
        let y := if k = 0 then (s.core c).engWr x 64 (e s).header else (s.core c).engWr (x + 128 * k - 64) 128 ((e s).strip (k - 1))
        s.setCore c { y with scan := { e s with image := some (x, k + 1, s.now + 1) } })
    ∧ EGoes (.flueMessageArrive c msg) (fun s => (s.core c).gang = some msg.gang
        ∧ (msg.part = .carryL ∨ msg.part = .carryC ∨ msg.part = .total) ∧ s.live c ∧ (e s).flue = none ∧ (e s).gv = true
        ∧ msg.first = (e s).first ∧ msg.count = (e s).count ∧ ahead (e s).round msg.round < 32768
        ∧ ∀ m ∈ (e s).held, ¬(m.round = msg.round ∧ m.part = msg.part ∧ m.src = msg.src)) (fun s =>
      s.setCore c { s.core c with busy := true, scan := { e s with held := (e s).held ++ [msg] } })
    ∧ EGoes (.flueDeferredSend c) (fun s => (e s).sends = snd :: ws ∧ s.flueRoom snd.dest snd.msg = true) (fun s =>
      (s.post c snd.dest 16 (.flueMessageArrive snd.dest snd.msg)).modCore c fun z =>
        { z with scan := { z.scan with sends := ws } })
    ∧ EGoes (.flueOperationComplete c) (fun s => (e s).flue = some f ∧ f.part.any (· ≤ s.now) = true ∧ f.sent = false
        ∧ s.fluePrev c (e s) f = some v ∧ here s + 1 < (e s).first + (e s).count
        ∧ s.segLast c ((e s).first + (e s).count - 1) (here s) = false) (fun s =>
      (s.setCore c { s.core c with scan := { e s with flue := some { f with sent := true } } }).flueSend c
        (s.rankCore c (here s + 1)) ⟨(s.core c).gang.getD 0, (e s).first, (e s).count, (e s).round, f.kind, (e s).code,
          .carryL, 0, here s, (pass s).1, v.2 ||| (pass s).2⟩)
    ∧ EGoes (.flueOperationComplete c) (fun s => f.slot < 16 ∧ (e s).flue = some f ∧ f.part.any (· ≤ s.now) = true
        ∧ f.sent = true ∧ f.told = true ∧ f.kind = .bar ∧ s.fluePrev c (e s) f = some v ∧ s.flueChain c (e s) f = some C
        ∧ (e s).got f .total = some m ∧ (s.slot c f.slot).held = .flue ∧ (s.core c).directMma f.slot = false
        ∧ ∀ w ∈ (e s).sends, w.msg.round ≠ (e s).round) (fun s =>
      s.woken c f.slot { s.core c with
        scan := { e s with
          round := ((e s).round + 1) % 65536, flue := none, held := (e s).held.filter fun m => m.round != (e s).round }
        istBar := (s.core c).istBar || (s.core c).istNext.isSome } ((s.slot c f.slot).ws f.d (BitVec.ofNat 64 (e s).round)))

/-- R285 to R293, R296, R298 to R300: a copy instruction whose command and ranges pass their checks queues the command it
holds in s[n] to s[n+3], with the segments as they stand, and goes on, or for CPYW parks until it is done; BUFFREE takes the
rank off the buffer's list and sends the credit when it was the last; CPYQSTAT reads a queue.
Where a clause rests on a choice of the model, it is that of log entries 47 and 60. -/
def Obligations.CopyInstructions : Prop :=
  ∀ (n a d q : BitVec 6) (buf : BufReg),
    let w := fun (s : State) (k : Nat) => (s.rs (n.toNat + k)).toNat
    let sd := fun (s : State) => s.me.rsg (fld (w s 1) 61 3)
    let dd := fun (s : State) => s.me.rsg (fld (w s 2) 61 3)
    let at' := fun (s : State) => s.la 0 (fld (w s 3) 0 20)
    let pat := fun (s : State) => if cwPat (w s 0) then some (BitVec.ofNat 512 (Memory.read s.my.mem (at' s) 64)) else none
    let read := fun (s : State) => if cwPat (w s 0) then s.touch s.cur.1 (at' s) 64 else s
    let rg := fun (k : CopyKind) (s : State) => cmdRanges k (w s 0) (w s 1) (w s 2) (w s 3) (decide (sgSpace (sd s) = 1)) (pat s)
    let lcnt := fun (l : Nat) => fld l 32 11 + 1
    let ok := fun (k : CopyKind) (l : Nat) (s : State) =>
      cmdMalformed k s.my.gsize (w s 0) (w s 1) (w s 2) (w s 3) = false
      ∧ (cwFem (w s 0) = true → s.me.level = true ∧ femMalformed k (w s 0) (w s 3) = false
          ∧ decide (sgSpace (sd s) = 1) ≠ decide (sgSpace (dd s) = 1))
      ∧ (k = .mcast → sgSpace (dd s) = 2 ∧ fld l 43 21 = 0 ∧ fld l 20 12 = 0 ∧ fld l 0 20 % 2 = 0
          ∧ s.segOk 0 (fld l 0 20) (2 * lcnt l) 2 .load)
      ∧ (cwRv (w s 0) = true → k ≠ .mcast → (s.my.ringOf (cwRing (w s 0))).owner = some s.cur.2)
      ∧ (cwPat (w s 0) = true → s.segOk 0 (fld (w s 3) 0 20) 64 64 .load ∧ s.my.bad (at' s) 64 = false
          ∧ patMalformed (BitVec.ofNat 512 (Memory.read s.my.mem (at' s) 64)) (decide (k = .cpyt)) = false)
      ∧ (k.indexed = true → s.segOk 0 (fld (w s 3) 0 20) (4 * fld (w s 3) 32 20) 4 .load)
      ∧ engSeg s.my.gsize (sd s) false true false (fld (w s 1) 0 48) (rg k s).1 = none
      ∧ engSeg s.my.gsize (dd s) true (k != .mcast) (cwOpc (w s 0) != 0) (fld (w s 2) 0 48) (rg k s).2 = none
      ∧ ((k = .mcast ∨ k = .cpyt ∨ cwPat (w s 0) = true) → sgSpace (sd s) = sgSpace (dd s) →
          (sgSpace (sd s) ≠ 2 ∨ (if k = .mcast then (s.my.rankList (s.la 0 (fld l 0 20)) (lcnt l)).contains (sgRank (sd s)) = true
            else sgRank (sd s) = sgRank (dd s))) → rangesMeet (sd s) (dd s) (rg k s).1 (rg k s).2 = false)
      ∧ (cwOpc (w s 0) ≠ 0 → s.me.imv = false)
      ∧ ((vget s.my.cq (cwQueue (w s 0)) []).filter fun k => !(k.nomsg && k.written)).length < 16
    let cmd := fun (k : CopyKind) (l : Nat) (s : State) =>
      ({ id := s.nonce, kind := k, queue := cwQueue (w s 0), slot := s.cur.2, tag := fld (w s 0) 48 16
         dest := if cwMtv (w s 0) && k != .cpyw then cwMtid (w s 0) else s.my.rank * 16 + s.cur.2
         rv := cwRv (w s 0), ring := cwRing (w s 0), uli := cwUli (w s 0), padskip := cwPadskip (w s 0)
         nomsg := cwNomsg (w s 0), bf := cwBf (w s 0), fem := cwFem (w s 0), esz := cwEsz (w s 0), opc := cwOpc (w s 0)
         src := sd s, dst := dd s, soff := fld (w s 1) 0 48, doff := fld (w s 2) 0 48, len := fld (w s 3) 0 32, pat := pat s
         cnt := if k = .mcast then lcnt l else fld (w s 3) 32 20
         idx := if k.indexed then at' s else if k = .mcast then s.la 0 (fld l 0 20) else 0
         ranks := [], left := [], region := s.me.imv, started := false, due := 0, got := [], unread := none, todo := none
         fid := none, detached := false, pushes := false, written := false, complete := false, posted := false, status := 0
         badpos := none, words := 0 } : Cmd)
    let queued := fun (k : CopyKind) (l : Nat) (s : State) =>
      { (read s).my with cq := vset s.my.cq (cwQueue (w s 0)) (vget s.my.cq (cwQueue (w s 0)) [] ++ [cmd k l s]) }
    let issues := fun (i : Instr) (k : CopyKind) (l : State → Nat) =>
      SGoes i (fun s => ok k (l s) s) fun s =>
        { read s with nonce := s.nonce + 1 }.wentOn (queued k (l s) s) (s.me.next s.me.pc)
    let v := fun (s : State) => (s.rs a.toNat).toNat
    let home := fun (s : State) => s.ofTid s.cur.1 (v s % 2 ^ 15)
    let mine := fun (s : State) (b : BufReg) =>
      b.core = (home s).1 ∧ b.slot = (home s).2 ∧ b.tag = v s / 2 ^ 16 % 2 ^ 16 ∧ s.my.rank ∈ b.left
    issues (.cpy n) .cpy (fun _ => 0) ∧ issues (.cpyg n) .cpyg (fun _ => 0) ∧ issues (.cpys n) .cpys (fun _ => 0)
    ∧ issues (.cpyt n) .cpyt (fun _ => 0) ∧ issues (.mcast n a) .mcast v
    ∧ SGoes (.cpyw n) (fun s => ok .cpyw 0 s) (fun s =>
        { read s with nonce := s.nonce + 1 }.awaits (queued .cpyw 0 s) .parked (.cpyw s.nonce))
    ∧ SGoes (.buffree a) (fun s => s.my.gsize * 16 ≤ v s % 2 ^ 15 ∨ ∀ b ∈ s.hub.bufs, ¬mine s b) (fun s => s.put s.me)
    ∧ SGoes (.buffree a) (fun s => v s % 2 ^ 15 < s.my.gsize * 16 ∧ s.hub.bufs = [buf] ∧ mine s buf
        ∧ buf.left.erase s.my.rank ≠ []) (fun s =>
        { s with hub := { s.hub with bufs := [{ buf with left := buf.left.erase s.my.rank, last := s.cur.1 }] } }.put s.me)
    ∧ SGoes (.buffree a) (fun s => v s % 2 ^ 15 < s.my.gsize * 16 ∧ s.hub.bufs = [buf] ∧ mine s buf
        ∧ buf.left.erase s.my.rank = []) (fun s =>
        ({ s with hub := { s.hub with bufs := [{ buf with left := [], last := s.cur.1 }] } }.sendTo s.cur.1 buf.core
          (fun _ => false) (.buffreeCredit buf.core buf.slot buf.tag)).put s.me)
    ∧ SGoes (.cpyqstat d q) (fun s => (vget s.my.cq q.toNat []).filter (fun k => !(k.nomsg && k.written)) = [])
        (fun s => s.put (s.me.ws d.toNat 0))
    ∧ ∀ (k : Cmd) (l : List Cmd), SGoes (.cpyqstat d q)
        (fun s => (vget s.my.cq q.toNat []).filter (fun k => !(k.nomsg && k.written)) = k :: l) fun s =>
        s.put (s.me.ws d.toNat (BitVec.ofNat 64 (k.tag * 2 ^ 48 + k.fid.isSome.toNat * 2 ^ 16 + (l.length + 1))))

/-- R277, R278, R285, R294 to R299: the engine starts the next command of a queue, reads the words of a linear one between
local stores in two parts and writes them in two parts, a multicast's words at each target, and ends it; a push that waited for
its ring acts when it has room, at the issuer and at a multicast's receiver; the parked slot goes on, and a buffer's credit
reaches its holder.
Where a clause rests on a choice of the model, it is that of log entries 3 and 44 to 48. -/
def Obligations.CopyEngine : Prop :=
  ∀ (c q i tag r : Nat) (k : Cmd) (l : List WrOp) (ps : List (Place × Place)), i < 16 →
    let run := fun (s : State) => s.copyDue c q = some k
    let clean := fun (s : State) (d : Nat) => (s.core d).err1 = [] ∧ (s.core d).err2 = []
    let linear := k.pat = none ∧ k.fem = false ∧ k.opc = 0 ∧ sgSpace k.src = 1
    let near := fun (l : List WrOp) => ∀ w ∈ l, w.space = 0 ∧ w.op = 0
    let places := fun (d : Nat) => (steps 0 1 (k.len / 4)).map fun j =>
      ((⟨0, d, sgBase k.dst + k.doff + 4 * j, sgBase k.dst + k.doff + 4 * j⟩,
        ⟨0, c, sgBase k.src + k.soff + 4 * j, sgBase k.src + k.soff + 4 * j⟩) : Place × Place)
    let word := fun (s : State) (e : Place × Place) =>
      (⟨0, e.1.who, e.1.addr, 0, Memory.read (s.core e.2.who).mem e.2.addr 4, e.1.va⟩ : WrOp)
    let first := fun (n a : Nat) => Config.free (n + 2 ^ 64 * (a / 4 + 1)) % 2 = 0
    let pairs := fun (l : List (Place × Place)) => l.map fun e => (e.1, some e.2)
    let unread := fun (s : State) (x : Nat) => k.unread = some (x, pairs ps) ∧ k.todo = none ∧ near k.got
      ∧ ∀ e ∈ ps, e.1.space = 0 ∧ e.2.space = 0 ∧ clean s e.2.who
    let perform := fun (s : State) (ws : List WrOp) =>
      ws.foldl (fun (s : State) w => s.setCore w.who ((s.core w.who).engWr w.addr 4 w.val)) s
    let time := fun (s : State) (n m : Nat) => s.now + (1 + Config.free n % m)
    EGoes (.copyCommandStart c q) (fun s => s.nextCmd c q = some k ∧ k.kind ≠ .mcast) (fun s =>
      { s with nonce := s.nonce + 1 }.setCore c ((s.core c).modCmd k.id fun k =>
        { k with started := true, due := time s s.nonce (if s.writesNone c k k.dst then 4 else 256) }))
    ∧ EGoes (.copyCommandComplete c q) (fun s => run s ∧ linear ∧ k.kind = .cpy ∧ sgSpace k.dst = 1 ∧ k.todo = none
        ∧ k.unread = none ∧ 4 ≤ k.len ∧ clean s c ∧ s.live c) (fun s =>
      { s with nonce := s.nonce + 2 }.modCmd c k.id fun _ =>
        { k with
          got := ((places c).filter fun (e : Place × Place) => first s.nonce e.1.addr).map (word s)
          unread := some (0, pairs ((places c).filter fun (e : Place × Place) => ¬first s.nonce e.1.addr)), due := time s (s.nonce + 1) 64
          status := 0, badpos := none })
    ∧ EGoes (.copyCommandComplete c q) (fun s => run s ∧ k.fem = false ∧ k.opc = 0 ∧ unread s 0) (fun s =>
      let ws := k.got ++ ps.map (word s)
      (perform ({ s with nonce := s.nonce + 2 }.modCmd c k.id fun k =>
          { k with got := [], unread := none, due := time s (s.nonce + 1) 128, words := ws.length })
        (ws.filter fun w => first s.nonce w.addr)).modCmd c k.id fun k =>
          { k with todo := some (ws.filter fun w => ¬first s.nonce w.addr) })
    ∧ EGoes (.copyCommandComplete c q) (fun s => run s ∧ k.todo = some l ∧ near l ∧ k.rv = false) (fun s =>
      (perform s l).modCmd c k.id fun k =>
        { k with written := true, got := [], unread := none, todo := some [], complete := true })
    ∧ EGoes (.copyCommandComplete c q) (fun s => s.copyDue c q = none ∧ (s.core c).endable q = some k ∧ k.kind = .cpyw
        ∧ k.detached = false ∧ k.slot = i ∧ (s.slot c i).held = .cpyw k.id ∧ (s.core c).directMma i = false) (fun s =>
      s.woken c i ((s.core c).dropCmd k.id) (s.slot c i))
    ∧ EGoes (.copyRingPushDeferred c q) (fun s => s.pushDue c q = some k ∧ s.live c
        ∧ ((s.core c).ringOf k.ring).owner = some k.slot ∧ ((s.core c).ringOf k.ring).count ≤ ((s.core c).ringOf k.ring).nsm1)
      (fun s =>
      (s.setCore c { (s.core c).setRing k.ring ((s.core c).ringOf k.ring).push with busy := true }).modCmd c k.id fun k =>
        { k with pushes := false, complete := k.written })
    ∧ EGoes (.copyRingPushDeferred c 0) (fun s => s.pushDue c 0 = none ∧ s.receiverDue c = some r ∧ s.live c
        ∧ ((s.core c).ringOf r).owner.isSome = true ∧ ((s.core c).ringOf r).count ≤ ((s.core c).ringOf r).nsm1) (fun s =>
      s.setCore c { (s.core c).setRing r ((s.core c).ringOf r).push with
        busy := true, pushWait := (s.core c).pushWait.erase r })
    ∧ EGoes (.mcastTargetComplete c q r) (fun s => (s.core c).runningCmd q = some k ∧ linear ∧ k.kind = .mcast
        ∧ sgSpace k.dst = 2 ∧ r < 2 ^ 16 ∧ r ∈ k.left ∧ k.fid = none ∧ k.due ≤ s.now ∧ k.unread = none
        ∧ s.live c ∧ s.live (s.rankCore c r) ∧ clean s c) (fun s =>
      { s with nonce := s.nonce + 2 }.modCmd c k.id fun k' =>
        { k' with
          got := ((places (s.rankCore c r)).filter fun (e : Place × Place) => first s.nonce e.1.addr).map (word s)
          unread := some (r, pairs ((places (s.rankCore c r)).filter fun (e : Place × Place) => ¬first s.nonce e.1.addr))
          due := time s (s.nonce + 1) 64 })
    ∧ EGoes (.mcastTargetComplete c q r) (fun s => (s.core c).runningCmd q = some k ∧ k.fem = false ∧ k.opc = 0
        ∧ unread s r ∧ r ∈ k.left ∧ k.left.erase r ≠ [] ∧ k.fid = none ∧ k.due ≤ s.now ∧ k.rv = false) (fun s =>
      let ws := k.got ++ ps.map (word s)
      (perform { s with nonce := s.nonce + 1 } ws).modCmd c k.id fun _ =>
        { k with
          got := [], unread := none, left := k.left.erase r, words := k.words + ws.length, due := time s s.nonce 64 })
    ∧ EGoes (.copyQueuePlaceFree c i) (fun s => (s.slot c i).held = .copyPlace q
        ∧ ((vget (s.core c).cq q []).filter fun k => !(k.nomsg && k.written)).length < 16) (fun s =>
      s.setCore c (((s.core c).setSlot i { s.slot c i with st := .ready, held := .none }).count 15 1))
    ∧ EGoes (.buffreeCredit c i tag) (fun s => s.live c ∧ (s.slot c i).st ≠ .idle ∧ (s.slot c i).held ≠ .waitmsg true
        ∧ ∃ b ∈ s.hub.bufs, b.core = c ∧ b.slot = i ∧ b.tag = tag ∧ b.left = []) (fun s =>
      let credits := if (s.slot c i).credits = 0xFFFF#16 then 0xFFFF#16 else (s.slot c i).credits + 1
      { s with hub := { s.hub with bufs := s.hub.bufs.filter fun b => !(b.core = c && b.slot = i && b.tag = tag) } }.setCore c
        ({ s.core c with busy := true }.setSlot i { s.slot c i with credits := credits }))

/-- R222, R306 to R310, R313 to R316: SCFG binds a free unit to a pattern, SBIND to a port or a pipe's end; PSEND and PSENDE
send a strip and an end to a port of a rank; SCLOSE releases a unit once its writes are done, SSAVE writes its image and SREST
binds what an image describes; PIPEBIND configures a pipe or takes an end of it; WDQ empties its answer's word and asks the
Caddy.
Where a clause rests on a choice of the model, it is that of log entries 11, 55, 56 and 61. -/
def Obligations.StreamInstructions : Prop :=
  ∀ (n a d : BitVec 6) (k u e : BitVec 3) (r c : BitVec 1) (at' : Nat),
    let w := fun (s : State) (j : Nat) => (s.rs (n.toNat + j)).toNat
    let seg := fun (s : State) => s.me.rsg (fld (w s 0) 61 3)
    let far := fun (s : State) => sgSpace (seg s) = 4 ∨ sgSpace (seg s) = 5
    let blkAt := fun (s : State) => s.la 0 (fld (w s 1) 0 20)
    let blk := fun (s : State) => BitVec.ofNat 512 (Memory.read s.my.mem (blkAt s) 64)
    let free := fun (s : State) => (s.my.suOf u.toNat).owner = none
    let bound := fun (s : State) (x : Core) (y : Stream) => s.wentOn (x.setSu u.toNat y) (s.me.next s.me.pc)
    let cfg := fun (s : State) => free s ∧ fld (w s 0) 48 13 = 0 ∧ fld (w s 1) 20 44 = 0 ∧ fld (w s 1) 0 20 % 64 = 0
      ∧ w s 3 = 0 ∧ s.segOk 0 (fld (w s 1) 0 20) 64 64 .load ∧ s.my.bad (blkAt s) 64 = false ∧ strmBlockBad (blk s) = false
    let base := fun (s : State) => fld (w s 0) 0 48
    let checks := fun (s : State) =>
      s.strmChecks (seg s) (decide (r = 1)) (base s) (strmRange (blk s) (base s)) (fld (w s 2) 0 20)
    let y := fun (s : State) => s.my.suOf (d.toNat - 24)
    let off := fun (s : State) => ((s.rs a.toNat).toNat : Int)
    let x := fun (s : State) => s.la 0 (off s)
    let v := fun (s : State) => Memory.read s.my.mem (x s) 128
    let z := fun (s : State) => ({ Stream.ofImage (v s) with
      base := if (Stream.ofImage (v s)).kind = .pattern ∨ (Stream.ofImage (v s)).kind = .global then
        Config.free s.nonce % 2 ^ 46 * 4 else 0 } : Stream)
    let home := fun (s : State) => s.rankCore s.cur.1 (w s 1)
    let sends := fun (s : State) => w s 1 < s.my.gsize ∧ s.me.imv = false ∧ s.me.relaxed.length < 8
    let sent := fun (s : State) (q : State) (v : VReg) (last : Bool) =>
      let port := w s 2 % 4
      ({ q with nonce := s.nonce + 1 }.sendTo s.cur.1 (home s) (fun e => match e with
          | .portStripArrive h p _ _ d j _ => h = home s && p = port && d = s.cur.1 && j = s.cur.2
          | _ => false) (.portStripArrive (home s) port v last s.cur.1 s.cur.2 (s.nonce + 1))).wentOn q.my
        (({ s.me with relaxed := s.me.relaxed ++ [(⟨s.nonce + 1, home s, none, 0, 0⟩ : Rlx)] } : Slot).next s.me.pc)
    let p := fun (s : State) => s.my.pipeOf e.toNat
    let word := fun (s : State) => (s.rs a.toNat).toNat
    let ends := fun (s : State) (t : Pipe) =>
      if c = 1 then { t with cons := some s.cur.2 } else { t with prod := some s.cur.2 }
    let mayEnd := fun (s : State) => let o := if c = 1 then (p s).cons else (p s).prod
      o = none ∨ o = some s.cur.2
    SGoes (.scfg n k r u) (fun s => cfg s ∧ sgSpace (seg s) = 1) (fun s =>
        let q := s.touch s.cur.1 (blkAt s) 64
        bound q q.my { Stream.reset with
          owner := some s.cur.2, kind := .pattern, write := decide (r = 1), pred := k.toNat, blk := blk s, seg := seg s
          base := base s, queue := 0, stg := 0, stgAt := 0 })
    ∧ SGoes (.scfg n k r u) (fun s => cfg s ∧ far s ∧ fld (w s 2) 22 42 = 0 ∧ fld (w s 2) 0 20 % 128 = 0
        ∧ checks s = (none, at')) (fun s =>
        let q := s.touch s.cur.1 (blkAt s) 64
        bound q q.my { Stream.reset with
          owner := some s.cur.2, kind := .global, write := decide (r = 1), pred := k.toNat, blk := blk s, seg := seg s
          base := base s, queue := fld (w s 2) 20 2, stg := fld (w s 2) 0 20, stgAt := at' })
    ∧ SGoes (.sbind e k 0 0 u) (fun s => free s ∧ e.toNat ≤ 3
        ∧ ((s.my.portOf e.toNat).owner = none ∨ (s.my.portOf e.toNat).owner = some s.cur.2)) (fun s =>
        bound s { s.my with port := vset s.my.port e.toNat { s.my.portOf e.toNat with owner := some s.cur.2 } } { Stream.reset with
          owner := some s.cur.2, kind := .port, write := false, pred := k.toNat, num := e.toNat })
    ∧ SGoes (.sbind e k 1 r u) (fun s => free s ∧ (if r = 1 then (p s).prod else (p s).cons) = some s.cur.2) (fun s =>
        bound s s.my { Stream.reset with
          owner := some s.cur.2, kind := .pipe, write := decide (r = 1), pred := k.toNat, num := e.toNat })
    ∧ SGoes (.psend n) (fun s => sends s ∧ s.segOk 0 (w s 0) 128 4 .load ∧ s.my.bad (s.la 0 (w s 0)) 128 = false) (fun s =>
        sent s (s.touch s.cur.1 (s.la 0 (w s 0)) 128) (BitVec.ofNat 1024 (Memory.read s.my.mem (s.la 0 (w s 0)) 128)) false)
    ∧ SGoes (.psende n) sends (fun s => sent s s 0 true)
    ∧ SGoes (.sclose d) (fun s => (y s).owner = some s.cur.2 ∧ s.my.closeReady (y s) = true) (fun s =>
        s.wentOn (s.my.closeUnit (d.toNat - 24)) (s.me.next s.me.pc))
    ∧ SGoes (.sclose d) (fun s => (y s).owner = some s.cur.2 ∧ s.my.closeReady (y s) = false) (fun s =>
        s.awaits s.my .parked (.unit (.sclose d) 0))
    ∧ SGoes (.ssave d a) (fun s => ((y s).owner = some s.cur.2 ∨ s.me.level = true) ∧ s.segOk 0 (off s) 128 8 .store
        ∧ (y s).saveReady = true) (fun s => s.wentOn (s.my.wr (x s) 128 (y s).image) (s.me.next s.me.pc))
    ∧ SGoes (.srest d a) (fun s => s.me.level = false ∧ ((y s).owner = none ∨ (y s).owner = some s.cur.2)
        ∧ s.segOk 0 (off s) 128 8 .load ∧ s.my.bad (x s) 128 = false ∧ imageBad (v s) = false
        ∧ (Stream.ofImage (v s)).kind ≠ .none ∧ s.restoreCheck s.cur.2 (z s) = (none, at')) (fun s =>
        let q := { s.touch s.cur.1 (x s) 128 with nonce := s.nonce + 1 }
        let t := if (z s).kind = .port then q.my.takePort (z s).num s.cur.2 else q.my
        q.wentOn (t.setSu (d.toNat - 24) { z s with owner := some s.cur.2, stgAt := at' }) (s.me.next s.me.pc))
    ∧ SGoes (.pipebind e a c) (fun s => mayEnd s ∧ (p s).conf = true) (fun s =>
        s.wentOn { s.my with pipe := vset s.my.pipe e.toNat (ends s (p s)) } (s.me.next s.me.pc))
    ∧ SGoes (.pipebind e a c) (fun s => mayEnd s ∧ (p s).conf = false
        ∧ s.segOk 0 (word s % 2 ^ 20) ((word s / 2 ^ 32 % 2 ^ 4 + 1) * 128) 128 .store ∧ sgR (s.me.rsg 0) = true) (fun s =>
        s.wentOn { s.my with pipe := vset s.my.pipe e.toNat (ends s ⟨true, s.la 0 (word s % 2 ^ 20),
          word s / 2 ^ 32 % 2 ^ 4 + 1, 0, 0, 0, none, none, []⟩) } (s.me.next s.me.pc))
    ∧ SGoes (.pipebindRel e) (fun s => (p s).prod = some s.cur.2 ∧ (p s).cons ≠ some s.cur.2 ∧ (p s).cons ≠ none) (fun s =>
        s.wentOn { s.my with pipe := vset s.my.pipe e.toNat { p s with prod := none } } (s.me.next s.me.pc))
    ∧ SGoes (.pipebindRel e) (fun s => (p s).cons = some s.cur.2 ∧ ((p s).prod = none ∨ (p s).prod = some s.cur.2)) (fun s =>
        s.wentOn { s.my with pipe := vset s.my.pipe e.toNat ⟨false, 0, 0, 0, 0, 0, none, none, []⟩ } (s.me.next s.me.pc))
    ∧ SGoes (.wdq a k) (fun s => s.segOk 0 (off s) 4 4 .store ∧ s.me.caddy < 4) fun s =>
        let t := s.draw 1 (s.hubWay s.cur.1)
        let floor := (s.agenda.filter fun e => match e.2 with
          | .caddyQuery m j _ _ => m = s.cur.1 && j = s.cur.2
          | _ => false).foldl (fun m e => max m e.1) 0
        { t.2 with agenda := agendaPutBy s.pos (max (s.now + t.1) floor) (.caddyQuery s.cur.1 s.cur.2 k.toNat (x s)) s.agenda
          }.wentOn (s.my.setFe (x s) false) ({ s.me with caddy := s.me.caddy + 1 }.next s.me.pc)

/-- R307, R308, R310, R312, R315, R316: the engine fetches a read stream's next strip and writes a write stream's oldest; a strip
enters its port and its sender is told; a bundle that waited for strips issues afresh; the Caddy serves a counter in row-major
order, and the answer is written and its word full.
Where a clause rests on a choice of the model, it is that of log entries 3, 57 and 58. -/
def Obligations.StreamEngineAndCaddy : Prop :=
  ∀ (c u i port src slot id addr g : Nat) (a b : List Nat) (strip v : VReg) (last : Bool) (m : W32) (l : List Place)
    (t : State) (ans : W32) (gang : Gang) (k : Fin 8), i < 16 →
    let y := fun (s : State) => (s.core c).suOf u
    let starts := fun (s : State) => { s with nonce := s.nonce + 1 }.setCore c ((s.core c).setSu u
      { y s with flight := true, due := s.now + (1 + Config.free s.nonce % 64) })
    let staged := fun (s : State) (x : Strip) =>
      let q := s.scramble c (y s) (y s).moved true
      q.setCore c ((q.core c).setSu u { y s with
        staged := (y s).staged ++ [(x, 0xFFFFFFFF#32)], moved := (y s).moved + 1, flight := false, ticket := none })
    let offs := fun (s : State) => stripOffs (patSrc (y s).blk (y s).base (y s).moved)
    let p := fun (s : State) => (s.core c).portOf port
    let ctr := fun (x : CaddyCtr) => x.tcols ≠ 0 ∧ x.next < x.total
    let queued := fun (s : State) => s.refillDue c u = true ∧ (y s).ticket.isSome = true
    EGoes (.streamRefill c u) (fun s => s.refillDue c u = true ∧ (y s).ticket = none) (fun s =>
      { s with nonce := s.nonce + 1 }.setCore c ((s.core c).setSu u { y s with ticket := some s.nonce }))
    ∧ EGoes (.streamRefill c u) (fun s => queued s ∧ (y s).flight = false) starts
    ∧ EGoes (.streamRefill c u) (fun s => queued s ∧ (y s).flight = true ∧ patValid (y s).blk (y s).moved = false) (fun s => staged s ⟨padStrip (patPad (y s).blk), false, false⟩)
    ∧ EGoes (.streamRefill c u) (fun s => queued s ∧ (y s).flight = true
        ∧ patValid (y s).blk (y s).moved = true ∧ s.placesR c (y s).seg (offs s) = .ok l
        ∧ t = (offs s).foldl (fun s o => s.cacheAt c (y s).seg o) s ∧ (∀ x ∈ l, t.badAt x = false)) (fun _ =>
      let q := t.touchPlaces l
      staged q ⟨VReg.ofElems 32 fun j => (l[j]?.map q.wordAt).getD 0, false, false⟩)
    ∧ EGoes (.streamDrain c u) (fun s => s.drainDue c u = true ∧ (y s).flight = false) starts
    ∧ EGoes (.streamDrain c u) (fun s => s.drainDue c u = true ∧ (y s).flight = true
        ∧ (y s).staged = (⟨v, last, false⟩, m) :: (y s).staged.tail ∧ patValid (y s).blk (y s).moved = true
        ∧ s.drainWords c ((y s).owner.getD 0) (y s) v (patSrc (y s).blk (y s).base (y s).moved)
            ((steps 0 1 32).filter fun j => m.getLsbD j) = (none, false, t)
        ∧ ∀ j, m.getLsbD j = true → (s.core c).bad ((y s).stgOf (y s).moved + 4 * j) 4 = false) (fun s =>
      let q := t.touch c ((y s).stgOf (y s).moved) 128
      q.setCore c ((q.core c).setSu u { y q with staged := (y q).staged.tail, moved := (y q).moved + 1, flight := false }))
    ∧ EGoes (.portStripArrive c port strip last src slot id) (fun s => s.live c ∧ (p s).waits = [] ∧ (p s).fifo.length < 16)
      (fun s =>
      (s.setCore c { s.core c with
        busy := true, port := vset (s.core c).port port { p s with fifo := (p s).fifo ++ [⟨strip, false, last⟩] }
        }).afterIn 1 (s.oneWay c src) (fun _ => false) (.remoteReply src ⟨slot, true, id, .vstore, 0, 0, false, 0, c⟩))
    ∧ EGoes (.portStripArrive c port strip last src slot id) (fun s => s.live c ∧ (p s).waits = [] ∧ 16 ≤ (p s).fifo.length)
      (fun s =>
      s.setCore c { s.core c with
        busy := true, port := vset (s.core c).port port { p s with waits := [⟨⟨strip, false, last⟩, src, slot, id⟩] } })
    ∧ EGoes (.stripReady c i) (fun s => (s.slot c i).held = .strip a b ∧ s.stripsThere c i a b = true) (fun s =>
      s.setCore c (((s.core c).setSlot i { s.slot c i with st := .ready, held := .none }).count 15 1))
    ∧ EGoes (.caddyQuery c i k.val addr) (fun s => s.gangOf c = some gang ∧ (s.core c).gang = some g
        ∧ ctr (vget gang.caddy k.val ⟨0, 0, 0⟩)) (fun s =>
      let x := vget gang.caddy k.val ⟨0, 0, 0⟩
      ({ s with hub := { s.hub with gangs := tput g { gang with caddy := vset gang.caddy k.val { x with next := x.next + 1 } } s.hub.gangs } }).afterIn 1 (s.hubWay c) (fun _ => false)
        (.caddyAnswer c i addr (BitVec.ofNat 32 (x.next / x.tcols * 65536 + x.next % x.tcols))))
    ∧ EGoes (.caddyAnswer c i addr ans) (fun s => s.inTransit c c = false ∧ s.live c ∧ (s.slot c i).held ≠ .caddyFull) (fun s =>
      s.setCore c ({ (s.core c).engWr addr 4 ans.toNat with busy := true }.setSlot i
        { s.slot c i with caddy := (s.slot c i).caddy - 1 }))
    ∧ EGoes (.caddyAnswer c i addr ans) (fun s => s.inTransit c c = true) fun s =>
      { s with hub := { s.hub with held := s.hub.held ++ [(c, c, .caddyAnswer c i addr ans)] } }

/-- R203 to R206, R213 to R216: PUBON opens the slot's channel and PUBOFF ends it; SUBSCR asks to join one and waits; UNSUB,
UNSUBP and UNSUBM take a JOINED member away to its own code, LEAVE ends the membership, RESUB waits for the rendezvous to
come back, and RDV is the rendezvous: its publisher waits for every membership of its table, and a member reports.
Where a clause rests on a choice of the model, it is that of log entries 38, 39 and 62. -/
def Obligations.ChannelInstructions : Prop :=
  ∀ (d a : BitVec 6) (t : BitVec 1) (p m : BitVec 3),
    let tid := fun (s : State) => s.my.rank * 16 + s.cur.2
    let ch := fun (s : State) => (s.rs a.toNat).toNat
    let pub := fun (s : State) => s.ofTid s.cur.1 s.me.chan.toNat
    let tell := fun (s : State) (n : Notice) => s.post s.cur.1 (pub s).1 s.me.skew
      (.membershipNoticeArrive (pub s).1 (pub s).2 (tid s) n)
    let away := fun (s : State) => (tell s .away).wentOn s.my (({ s.me with
      mst := .away, due := [], asked := (s.me.due.filter fun d => isRdv d.bun.word).length } : Slot).next s.me.pc)
    let left := fun (s : State) =>
      (tell (s.unsent s.cur.1 s.cur.2) .leave).wentOn s.my (({ s.me with
        mst := .none, chan := 0, trapov := false, due := [], ending := false, asked := 0 } : Slot).next s.me.pc)
    let joined := fun (s : State) => s.me.mst = .joined ∧ s.me.ending = false
    let unsub := fun (i : Instr) (c : Slot → Prop) =>
      SGoes i (fun s => joined s ∧ c s.me) away ∧ SGoes i (fun s => s.me.mst ≠ .joined ∨ ¬c s.me) fun s => s.put s.me
    let told := fun (s : State) => s.me.members.foldl (fun q k =>
      q.post s.cur.1 (s.ofTid s.cur.1 k.tid).1 (max k.skew (s.skewOf s.cur.1 (s.ofTid s.cur.1 k.tid).1))
        (.publishEndArrive (s.ofTid s.cur.1 k.tid).1 (s.ofTid s.cur.1 k.tid).2 (tid s))) s
    let report := fun (s : State) => s.chanSend s.cur.1 s.me.chan.toNat (tid s) s.me.skew fun q =>
      .rdvReportArrive q.1 q.2 (tid s)
    let id := fun (s : State) => (s.rs a.toNat).toNat % 65536
    SGoes (.pubon d) (fun s => s.me.mst = .none ∧ s.cur.2 < 14) (fun s =>
        s.put { s.me.ws d.toNat (BitVec.ofNat 64 (tid s)) with pub := true })
    ∧ SGoes .puboff (fun s => s.me.pub = true) (fun s =>
        (told s).wentOn s.my (({ s.me with pub := false, members := [], rdv := none, late := [] } : Slot).next s.me.pc))
    ∧ SGoes .puboff (fun s => s.me.pub = false ∧ s.me.mst = .joined) left
    ∧ SGoes .puboff (fun s => s.me.pub = false ∧ s.me.mst ≠ .joined) (fun s => s.put s.me)
    ∧ SGoes (.subscr d a t) (fun s => s.cur.2 < 14 ∧ ch s < s.my.gsize * 16 ∧ ch s % 16 < 14 ∧ ch s ≠ tid s
        ∧ s.me.pub = false ∧ s.me.mst = .none) (fun s =>
        let k := s.skewOf s.cur.1 (s.ofTid s.cur.1 (ch s)).1
        (s.chanSend s.cur.1 (ch s) (tid s) k fun q => .joinRequestArrive q.1 q.2 (tid s)).wentOn s.my { s.me with
          mst := .pending, chan := BitVec.ofNat 15 (ch s), trapov := decide (t = 1), skew := k, st := .waiting
          held := .subscr d.toNat, npc := s.me.pc + 8 })
    ∧ unsub .unsub (fun _ => True) ∧ unsub (.unsubp p) (fun u => u.rp p.toNat = true)
    ∧ unsub (.unsubm m) (fun u => u.rm m.toNat ≠ 0)
    ∧ SGoes .leave (fun s => s.me.mst ≠ .none) left ∧ SGoes .leave (fun s => s.me.mst = .none) (fun s => s.put s.me)
    ∧ SGoes (.resub d a) (fun s => s.me.mst ≠ .away) (fun s => s.put (s.me.ws d.toNat 0))
    ∧ SGoes (.resub d a) (fun s => s.me.mst = .away) (fun s =>
        ((List.range s.me.asked).foldl (fun q _ => report q) s).wentOn s.my { s.me with
          asked := 0, st := .waiting, held := .resub d.toNat (id s), npc := s.me.pc + 8 })
    ∧ SGoes (.rdv d a) (fun s => s.me.pub = true ∧ s.me.members = []) (fun s => s.put (s.me.ws d.toNat 0))
    ∧ SGoes (.rdv d a) (fun s => s.me.pub = true ∧ s.me.members ≠ []) (fun s => s.wentOn s.my { s.me with
        rdv := some ⟨id s, s.me.members.map (·.tid), []⟩, st := .waiting, held := .rdv d.toNat (id s), npc := s.me.pc + 8 })
    ∧ SGoes (.rdv d a) (fun s => s.me.pub = false ∧ s.me.mst = .joined) (fun s =>
        (report s).wentOn s.my ((s.me.ws d.toNat (BitVec.ofNat 64 s.me.skew)).next s.me.pc))
    ∧ SGoes (.rdv d a) (fun s => s.me.pub = false ∧ s.me.mst ≠ .joined) (fun s => s.put (s.me.ws d.toNat 0))

/-- R205, R206, R209, R211, R213 to R215: a published bundle falls due at a JOINED member, which is forced away when it holds 64;
a join request enters the publisher's table, and a refusal ends the wait of SUBSCR; a member's report or notice changes the
table and what the rendezvous waits for, and its completion joins the member and wakes it.
Where a clause rests on a choice of the model, it is that of log entries 38, 39 and 63. -/
def Obligations.ChannelEvents : Prop :=
  ∀ (c i tid chan d id skew : Nat) (bun : PubBundle) (b : Due) (l : List Due) (r : Rdv) (m : Member) (fin : RdvEnd), i < 16 →
    let t := fun (s : State) => s.slot c i
    let set := fun (s : State) (u : Slot) => s.setSlot c i u
    let up := fun (s : State) => { s.core c with busy := true }
    let hears := fun (s : State) => s.setCore c (up s)
    let member := fun (s : State) => s.ofTid c tid
    let pub := fun (s : State) => s.ofTid c (t s).chan.toNat
    let calm := fun (s : State) => (s.core c).directMma i = false
    EGoes (.publishedBundleArrive c i bun) (fun s => (t s).mst = .joined ∧ (t s).chan.toNat = bun.chan ∧ (t s).due.length < 64)
      (fun s =>
        let lull := (t s).due = [] ∧ (t s).st = .ready
        s.setCore c (Core.setSlot { s.core c with woken := (s.core c).woken + (if lull then 1 else 0) } i { t s with
          due := (t s).due ++ [(⟨s.now, bun⟩ : Due)], skew := bun.skew, pc := if lull then bun.pc else (t s).pc }))
    ∧ EGoes (.publishedBundleArrive c i bun) (fun s => (t s).mst = .joined ∧ (t s).chan.toNat = bun.chan
        ∧ (t s).due = b :: l ∧ 64 ≤ (t s).due.length ∧ (t s).ending = false ∧ (t s).trapov = false ∧ (t s).st = .ready) (fun s =>
      (s.post c (pub s).1 bun.skew (.membershipNoticeArrive (pub s).1 (pub s).2 ((s.core c).rank * 16 + i)
        .away)).setCore c ({ s.core c with flags := (s.core c).flags ++ [(i, 128)] }.setSlot i { t s with
          mst := .away, due := [], asked := (((t s).due ++ [(⟨s.now, bun⟩ : Due)]).filter fun (d : Due) => isRdv d.bun.word).length, skew := bun.skew
          pc := b.bun.pc }))
    ∧ EGoes (.joinRequestArrive c i tid) (fun s => (t s).pub = true) (fun s => set (hears s) { t s with
        late := (t s).late.filter (· != tid), members := (t s).members.filter (fun m => m.tid != tid) ++ [⟨tid, (s.slot (member s).1 (member s).2).skew, .pending⟩] })
    ∧ EGoes (.joinRequestArrive c i tid) (fun s => (t s).pub = false) (fun s =>
        (hears s).post c (member s).1 (s.slot (member s).1 (member s).2).skew (.subscrRefusalArrive (member s).1 (member s).2))
    ∧ EGoes (.subscrRefusalArrive c i) (fun s => (t s).held = .subscr d ∧ calm s) (fun s =>
        s.woken c i (up s) { (t s).ws d 0 with mst := .none, chan := 0 })
    ∧ EGoes (.rdvReportArrive c i tid) (fun s => (t s).rdv = some r ∧ tid ∈ r.waits ∧ tid ∉ (t s).late
        ∧ r.waits.filter (· != tid) ≠ []) (fun s => set (hears s) { t s with rdv := some { r with waits := r.waits.filter (· != tid), heard := r.heard ++ [tid] } })
    ∧ EGoes (.rdvReportArrive c i tid) (fun s => tid ∈ (t s).late ∧ ((t s).rdv = none ∨ (t s).rdv = some r ∧ r.waits ≠ [])) (fun s =>
        set (hears s) { t s with late := (t s).late.erase tid })
    ∧ EGoes (.rdvReportArrive c i tid) (fun s => (t s).rdv = some ⟨r.id, [tid], []⟩ ∧ (t s).held = .rdv d id ∧ (t s).late = []
        ∧ (t s).members = [m] ∧ m.tid = tid ∧ calm s) (fun s =>
      let k := s.skewOf c (member s).1
      let q := s.post c (member s).1 k (.rdvCompletionArrive (member s).1 (member s).2
        ⟨(s.core c).rank * 16 + i, id, (t s).npc⟩ k)
      q.woken c i (up s) { (t s).ws d (BitVec.ofNat 64 k) with rdv := none, members := [⟨tid, k, .joined⟩] })
    ∧ EGoes (.rdvCompletionArrive c i fin skew) (fun s => (t s).chan.toNat = fin.chan ∧ calm s
        ∧ ((t s).mst = .pending ∧ (t s).held = .subscr d ∨ (t s).mst = .away ∧ (t s).held = .resub d fin.id)) (fun s =>
        s.woken c i (up s) { (t s).ws d (BitVec.ofNat 64 skew) with
          asked := 0, mst := .joined, skew := skew, npc := fin.npc })
    ∧ EGoes (.membershipNoticeArrive c i tid .away) always (fun s => set (hears s) { t s with
        members := (t s).members.map fun m => if m.tid = tid then { m with mst := .away } else m })
    ∧ EGoes (.membershipNoticeArrive c i tid .leave) (fun s => (t s).rdv = none) (fun s => set (hears s) { t s with
        members := (t s).members.filter fun m => m.tid != tid, late := (t s).late.filter (· != tid) })
    ∧ EGoes (.publishEndArrive c i chan) (fun s => (t s).chan.toNat = chan ∧ (t s).mst = .joined ∧ (t s).due ≠ []) (fun s =>
        set s { t s with ending := true })
    ∧ EGoes (.publishEndArrive c i chan) (fun s => (t s).chan.toNat = chan ∧ (t s).mst = .pending ∧ (t s).held = .subscr d
        ∧ calm s) fun s =>
      ((s.unsent c i).post c (pub s).1 (t s).skew (.membershipNoticeArrive (pub s).1 (pub s).2 ((s.core c).rank * 16 + i)
        .leave)).woken c i (up s) { (t s).ws d 0 with
          mst := .none, chan := 0, trapov := false, due := [], ending := false, asked := 0 }

/-- R223, R226, R227, R229, R233, R235 to R237: a push counts its record's join counter up and adds the record to the deque, or
sends it; SPLIT pushes the upper half of a range and keeps the lower; DQPOP takes the youngest eligible record of the highest
band, or searches or gives up; STEAL asks a rank; JOIN waits for its counter to reach zero; TASKEND and CANCELL begin.
Where a clause rests on a choice of the model, it is that of log entries 3, 25 and 26. -/
def Obligations.TaskInstructions : Prop :=
  ∀ (n a d : BitVec 6) (k : BitVec 3) (j w : BitVec 1) (sc : BitVec 2) (r : TaskRec) (x : Core),
    let W := fun (s : State) (i : Nat) => s.rs (n.toNat + i)
    let c := fun (s : State) => s.cur.1
    let jv := fun (s : State) => jrJV (W s 3)
    let off := fun (s : State) => jrOff (W s 3)
    let bound := fun (s : State) => s.my.stageEntry (fld (W s 2).toNat 0 3) ≠ none
    let counts := fun (s : State) => jv s = true → s.segOk 0 (off s) 4 4 .store ∧ sgR (s.me.rsg 0) = true
      ∧ s.my.bad (s.la 0 (off s)) 4 = false ∧ s.my.err1 = []
    let up := fun (s : State) => if jv s then
      s.my.wr (s.la 0 (off s)) 4 ((Memory.read s.my.mem (s.la 0 (off s)) 4 + 1) % 2 ^ 32) else s.my
    let rec' := fun (s : State) =>
      trOf (W s 0) (W s 1) (W s 2) (jv s) s.my.rank (if jv s then s.la 0 (off s) else 0) (s.gangNo (c s))
    let away := fun (s : State) => trAffv (rec' s) = true ∧ trAff (rec' s) ≠ s.die (c s)
    let room := fun (s : State) => bandsLen s.my.dq < 64 ∧ s.my.banked = false
    let sent := fun (s : State) (p : Push) => (s.sendPush p).awaits (up s) .parked (.push none)
    let push := fun (s : State) (q : Bool) (dest : Nat) => sent s ⟨rec' s, c s, s.cur.2, k.toNat, false, q, dest⟩
    let q := fun (s : State) => trOf (W s 0) (W s 1) (W s 2) (jrJV s.me.curj) (jrRank s.me.curj) (jrOff s.me.curj) (s.gangNo (c s))
    let upper := fun (s : State) => trSpan (q s) (trLo (q s) + trLen (q s) / 2) (trHi (q s))
    let rank := fun (s : State) => (s.rs a.toNat).toNat
    let jo := fun (s : State) => ((s.rs a.toNat).toNat : Int)
    let tag := fun (s : State) => (s.rs a.toNat).toNat % 65536
    let takes := fun (s : State) => s.my.localTake (s.gangNo (c s)) s.cur.2 = some (r, x) ∧ s.hub.cancels = []
    let given := fun (s : State) => ((((s.me.ws n.toNat r.arg0).ws (n.toNat + 1) r.arg1).ws (n.toNat + 2)
      (r.w2 ||| BitVec.ofNat 64 (s.my.role s.cur.2 * 8))).ws (n.toNat + 3) r.w3).wp k.toNat true
    let run := fun (s : State) => ({ given s with lin := BitVec.ofNat 64 (trLin r), curj := r.w3 } : Slot)
    SGoes (.fork n k) (fun s => bound s ∧ counts s ∧ ¬away s ∧ room s) (fun s =>
        s.wentOn { up s with dq := bandsPush s.my.dq (rec' s), busy := true } ((s.me.wp k.toNat true).next s.me.pc))
    ∧ SGoes (.fork n k) (fun s => bound s ∧ counts s ∧ away s) (fun s => push s true (trAff (rec' s)))
    ∧ SGoes (.fork n k) (fun s => bound s ∧ counts s ∧ ¬away s ∧ 64 ≤ bandsLen s.my.dq) (fun s => push s true (s.die (c s)))
    ∧ SGoes (.forkd n k) (fun s => bound s ∧ counts s) (fun s =>
        push s true (if trAffv (rec' s) then trAff (rec' s) else s.die (c s)))
    ∧ SGoes (.dqpushr n a k) (fun s => bound s ∧ counts s ∧ rank s < s.my.gsize) (fun s =>
        push s false (s.rankCore (c s) (rank s)))
    ∧ SGoes (.split n k) (fun s => bound s ∧ (trRange (q s) = false ∨ trLen (q s) < 2)) (fun s => s.put (s.me.wp k.toNat false))
    ∧ SGoes (.split n k) (fun s => bound s ∧ trRange (q s) = true ∧ 2 ≤ trLen (q s) ∧ jrJV s.me.curj = false ∧ room s) (fun s =>
        s.wentOn { s.my with dq := bandsPush s.my.dq (upper s), busy := true } (((s.me.ws (n.toNat + 1)
          (BitVec.ofNat 64 (trLo (upper s) * 2 ^ 32 + (W s 1).toNat % 2 ^ 32))).wp k.toNat true).next s.me.pc))
    ∧ SGoes (.dqpop n 0 sc w k) takes (fun s => s.wentOn x ((run s).next s.me.pc))
    ∧ SGoes (.dqpop n 1 sc w k) takes (fun s =>
        s.wentOn x { (run s).ws 55 (s.me.pc + 8) with pc := (s.my.stageEntry (trStage r)).getD 0 })
    ∧ SGoes (.dqpop n j sc w k) (fun s => s.my.localTake (s.gangNo (c s)) s.cur.2 = none
        ∧ (s.me.mail ≠ [] ∨ (w = 1 ∧ sc = 0))) (fun s => s.put (s.me.wp k.toNat false))
    ∧ SGoes (.dqpop n j sc w k) (fun s => s.my.localTake (s.gangNo (c s)) s.cur.2 = none ∧ s.me.mail = []
        ∧ ¬(w = 1 ∧ sc = 0)) (fun s => s.awaits s.my .waiting
        (.dqpop ⟨n.toNat, k.toNat, sc.toNat, decide (w = 1), decide (j = 1), 0, [], false, s.now, s.now, 0⟩))
    ∧ SGoes (.steal n a k) (fun s => rank s < s.my.gsize ∧ s.inTransit (c s) (s.rankCore (c s) (rank s)) = false) (fun s =>
        let v := s.rankCore (c s) (rank s)
        let id := s.nonce + 1
        ({ s with nonce := id }.toDeque (s.latBound (c s) v / 4) (.stealRequestArrive v ⟨c s, s.cur.2, s.gangNo (c s),
          s.my.pinned s.cur.2, s.die (c s), .steal, id, s.now + s.latBound (c s) v⟩)).awaits s.my .parked
            (.steal n.toNat k.toNat id))
    ∧ SGoes (.join a) (fun s => s.segOk 0 (jo s) 4 4 .load ∧ s.my.bad (s.la 0 (jo s)) 4 = false
        ∧ Memory.read s.my.mem (s.la 0 (jo s)) 4 = 0) (fun s => (s.touch (c s) (s.la 0 (jo s)) 4).put s.me)
    ∧ SGoes (.join a) (fun s => s.segOk 0 (jo s) 4 4 .load ∧ s.my.bad (s.la 0 (jo s)) 4 = false
        ∧ Memory.read s.my.mem (s.la 0 (jo s)) 4 ≠ 0) (fun s =>
        let q := s.touch (c s) (s.la 0 (jo s)) 4
        q.awaits q.my .waiting (.join (s.la 0 (jo s))))
    ∧ SGoes .taskend always (fun s => s.awaits s.my .parked (.taskend false))
    ∧ SGoes (.cancell d a) (fun s => tag s = 0) (fun s => s.put (s.me.ws d.toNat 0))
    ∧ SGoes (.cancell d a) (fun s => tag s ≠ 0) (fun s =>
        (s.cancelStart (s.gangNo (c s)) (tag s) (c s) s.cur.2 none).awaits s.my .parked (.cancell d.toNat (tag s)))

/-- R223, R224, R226 to R230, R233 to R237: a record that arrives is added and acknowledged, or refused where there is no room; a
steal takes the oldest eligible record, or halves a range; an answer ends the thief's wait with the record or without; a
search goes on to its next level; a counter that a cycle's updates leave at zero ends its JOINs; a task ends; a cancellation
purges a core and ends when all is done.
Where a clause rests on a choice of the model, it is that of log entries 3, 19 and 20. -/
def Obligations.TaskEvents : Prop :=
  ∀ (c i n k d tag gang a v id src : Nat) (p : Push) (q : StealReq) (r : TaskRec) (rest : Vector (List TaskRec) 4) (e : Search)
    (run run' : CancelRun) (z : State), i < 16 →
    let t := fun (s : State) => s.slot c i
    let up := fun (s : State) => { s.core c with busy := true }
    let calm := fun (s : State) (c i : Nat) => (s.core c).directMma i = false
    let back := fun (s : State) (f : Push → Event) => s.afterIn 1 (s.pushWay p) (fun _ => false) (f p)
    let ok := fun (s : State) => eligible q.gang q.pinned (decide (q.die ≠ s.die c))
    let answers := fun (s : State) (x : Option TaskRec) =>
      s.toDeque (if q.why = .dqpop ∧ x = none ∧ c < 4096 then 1 else q.till - s.now)
        (.stealAnswerArrive q.src q.slot q.why ⟨q.id, c, x⟩)
    let given := fun (s : State) => { ((((((t s).ws n r.arg0).ws (n + 1) r.arg1).ws (n + 2)
      (r.w2 ||| BitVec.ofNat 64 ((s.core c).role i * 8))).ws (n + 3) r.w3).wp k true) with
        lin := BitVec.ofNat 64 (trLin r), curj := r.w3, npc := (t s).pc + 8 }
    EGoes (.pushArrive p) (fun s => p.toQueue = true ∧ bandsLen (s.dieQueue p.dest) < 4096) (fun s =>
      back { s with dieq := vset s.dieq p.dest (bandsPush (s.dieQueue p.dest) p.task) } .pushAckArrive)
    ∧ EGoes (.pushArrive p) (fun s => p.toQueue = false ∧ bandsLen (s.core p.dest).dq < 64
        ∧ (s.core p.dest).banked = false) (fun s =>
      back (s.setCore p.dest { s.core p.dest with dq := bandsPush (s.core p.dest).dq p.task, busy := true }) .pushAckArrive)
    ∧ EGoes (.pushArrive p) (fun s => p.toQueue = false ∧ 64 ≤ bandsLen (s.core p.dest).dq) (fun s => back s .pushRefusalArrive)
    ∧ EGoes (.pushAckArrive p) (fun s => p.src = c ∧ p.slot = i ∧ s.live c ∧ (t s).held = .push none ∧ calm s c i) (fun s =>
      s.woken c i (up s) ((t s).wp p.pred true))
    ∧ EGoes (.pushRefusalArrive p) (fun s => p.src = c ∧ p.slot = i ∧ s.live c ∧ (t s).held = .push none
        ∧ jrJV p.task.w3 = false ∧ calm s c i) (fun s => s.woken c i (up s) ((t s).wp p.pred false))
    ∧ EGoes (.stealRequestArrive c q) (fun s => bandsTakeTop (s.core c).dq (ok s) = none) (fun s => answers (s.busied c) none)
    ∧ EGoes (.stealRequestArrive c q) (fun s => bandsTakeTop (s.core c).dq (ok s) = some (r, rest)
        ∧ (trRange r = false ∨ trLen r < 2)) (fun s => answers (s.setCore c { up s with dq := rest }) (some r))
    ∧ EGoes (.stealRequestArrive c q) (fun s => bandsTakeTop (s.core c).dq (ok s) = some (r, rest) ∧ trRange r = true
        ∧ 2 ≤ trLen r ∧ jrJV r.w3 = false) (fun s =>
      let mid := trLo r + trLen r / 2
      answers (s.setCore c { up s with dq := bandsSetTop (s.core c).dq (ok s) (trSpan r (trLo r) mid) })
        (some (trSpan r mid (trHi r))))
    ∧ EGoes (.stealAnswerArrive c i .steal ⟨id, src, some r⟩) (fun s => (t s).held = .steal n k id ∧ s.live c ∧ s.hub.cancels = []
        ∧ calm s c i) (fun s => s.woken c i (up s) (given s))
    ∧ EGoes (.stealAnswerArrive c i .steal ⟨id, src, none⟩) (fun s => (t s).held = .steal n k id ∧ s.live c ∧ calm s c i) (fun s =>
      s.woken c i (up s) ((t s).wp k false))
    ∧ EGoes (.stealAnswerArrive c i .steal ⟨id, src, none⟩) (fun s => (t s).held = .steal n k v ∧ v ≠ id) (fun s => s)
    ∧ EGoes (.dieQueueRequest d q) (fun s =>
        bandsTakeTop (s.dieQueue d) (eligible q.gang q.pinned (decide (q.die ≠ d))) = some (r, rest)) (fun s =>
      { s with dieq := vset s.dieq d rest }.toDeque (q.till - s.now)
        (.stealAnswerArrive q.src q.slot q.why ⟨q.id, 4096 + d, some r⟩))
    ∧ EGoes (.dqpopPass c i) (fun s => s.passDue c i = true ∧ (t s).held = .dqpop e ∧ e.level = 0 ∧ e.scope = 2
        ∧ s.draughtVisit c = []) (fun s =>
      (s.setSlot c i { t s with held := .dqpop { e with level := 4, visit := [], asked := true, round := s.now } }).toDeque
        (s.dieBound c (s.die c) / 2)
        (.dieQueueRequest (s.die c) ⟨c, i, s.gangNo c, (s.core c).pinned i, s.die c, .dqpop, 0, s.now + s.dieBound c (s.die c)⟩))
    ∧ EGoes (.joinCounterUpdate c a true) (fun s => Memory.read (s.core c).mem a 4 = v
        ∧ ∀ i ∈ slotNums, (s.slot c i).held ≠ .join a) (fun s => s.setCore c ((s.core c).wr a 4 ((v + 1) % 2 ^ 32)))
    ∧ EGoes (.joinCounterUpdate c a false) (fun s => Memory.read (s.core c).mem a 4 = 1 ∧ s.live c
        ∧ ∃ i ∈ slotNums, (s.slot c i).held = .join a) (fun s =>
      s.setCore c { (up s).wr a 4 0 with zeroed := (s.core c).zeroed ++ [a] })
    ∧ (∀ s : State, (s.core c).zeroed = [a] → (∀ k ∈ slotNums, (s.slot c k).held = .join a ↔ k = i) → calm s c i →
        s.serveJoins c = if Memory.read (s.core c).mem a 4 = 0 then s.woken c i (s.core c) (t s) else s)
    ∧ EGoes (.cancelArrive c gang tag) (fun s => s.live c ∧ s.hub.cancels = [run] ∧ run.gang = gang ∧ run.tag = tag ∧ run.marks = []
        ∧ ∀ r ∈ (s.core c).dq.toList.flatten, ofLineage gang tag r = true → jrJV r.w3 = false) (fun s =>
      let gone := (s.core c).dq.toList.flatten.filter (ofLineage gang tag)
      if gone = [] then s.busied c
      else { s with hub := { s.hub with cancels := [{ run with purged := run.purged + gone.length }] } }.setCore c
        { up s with dq := (s.core c).dq.map fun (l : List TaskRec) => l.filter fun r => !ofLineage gang tag r })
    ∧ EGoes (.cancellComplete c i) (fun s => s.cancelFor c i = some run ∧ run.since ≤ s.now ∧ z = s.cancelSweep run
        ∧ z.cancelFor c i = some run' ∧ z.cancelOver run' = true ∧ z.live c
        ∧ ((z.cancelEnd run').slot c i).held = .cancell d tag ∧ calm (z.cancelEnd run') c i) (fun _ =>
      let y := z.cancelEnd run'
      y.woken c i { y.core c with busy := true } ((y.slot c i).ws d (BitVec.ofNat 64 run'.purged)))
    ∧ EGoes (.taskendComplete c i) (fun s => s.taskendReady c i = true ∧ jrJV (t s).curj = false ∧ calm s c i) (fun s =>
      s.woken c i (s.core c) { t s with curj := (t s).curj &&& 0x7FFFFFFFFFFFFFFF#64, lin := 0 })

/-- R28, R200, R301, R304, R305, R334, R338: SEND sends an active message; a message that arrives enters a mailbox with room, ends
the wait for it, interrupts a slot that can take it and has no TIMER interrupt to take first, or is held; a held one enters when
there is room; an interrupt saves its words and the PC in the shadow bank. TIMER's expiry makes its interrupt pending, stops the
slot, or is kept in TPEND; a table's switch, banking, the end of a restart and slot 15's restart change their core as they should.
Pre-emption stops the slots below 15, rolls an open region back to its mark and calls slot 15. Where a clause rests on a choice of
the model, it is that of log entries 2, 3, 70, 105 and 134. -/
def Obligations.MessagesAndCoreEvents : Prop :=
  ∀ (n a : BitVec 6) (h : BitVec 4) (c i d r tid va : Nat) (m : Msg) (l : List Msg) (ist : Vector (BitVec 8) 32) (snap : Snap),
    i < 16 →
    let home := fun (s : State) => s.rankCore s.cur.1 (s.rs a.toNat).toNat
    let same := fun (s : State) (e : Event) => match e with
      | .remoteRequestArrive c (.builtin q) => c = home s && q.src = s.cur.1 && s.inOrder s.cur.1 (home s) (.builtin q)
      | .remoteRequestArrive c (.active q) => c = home s && q.src = s.cur.1 && s.inOrder s.cur.1 (home s) (.active q)
      | _ => false
    let act := fun (s : State) (rx : Bool) (id : Nat) => NetMsg.active ⟨s.cur.1, s.cur.2, rx, id, h.toNat, s.rs n.toNat,
      s.rs (n.toNat + 1), s.rs (n.toNat + 2), s.my.rank * 16 + s.cur.2⟩
    let mayPost := fun (s : State) =>
      (vget s.my.hand h.toNat 0).getLsbD 31 = true ∧ (s.rs a.toNat).toNat < s.my.gsize
    let t := fun (s : State) => s.slot c i
    let up := fun (s : State) => { s.core c with busy := true }
    let calm := fun (s : State) => (s.core c).directMma i = false
    let quietly := fun (s : State) => m.src = none ∧ s.live c
    let box := fun (s : State) => { t s with mail := (t s).mail ++ [m] }
    let room := fun (s : State) => (t s).st ≠ .idle ∧ msgU m = false ∧ (t s).mail.length < 16 ∧ (t s).mailHeld = []
    let out := fun (s : State) => (t s).timer = 0x8000000000000000#64 ∧ s.live c
    let stops := fun (s : State) (k : Nat) => let u := s.slot c k
      u.st = .ready ∧ u.relaxed = [] ∧ u.mst = .none ∧ u.doomed = false ∧ u.stop = none
        ∧ ((s.core c).seqr.owner ≠ some k ∨ (s.core c).seqr.want = 0)
    let halt := fun (s : State) (u : Slot) (cause : Nat) => { u with
      st := .stopped, held := .none, stop := none, rdv := none, late := u.late ++ u.awaited, stopped := some s.now, tcause := BitVec.ofNat 64 cause }
    let system := fun (s : State) => (s.slot c 15).held = .waitmsg false ∧ (s.core c).directMma 15 = false
    let pre := fun (s : State) => { up s with preempt := true }
    let unstaged := fun (x : Core) => { x with su := x.su.map Stream.unstage }
    let hit := fun (u : Slot) (_ : State) (m0 m1 : W64) => { u with
      ua := true, level := false, st := .ready, held := .none, pc := codePc u.ulivec
      sh := vset (vset (vset u.sh 0 m0) 1 m1) 2 u.pc, bar := some (u.bar.getD 0) }
    SGoes (.send n a 0 h) mayPost (fun s => (s.sendTo s.cur.1 (home s) (same s)
        (.remoteRequestArrive (home s) (act s false 0))).awaits s.my .parked .send)
    ∧ SGoes (.send n a 1 h) (fun s => mayPost s ∧ s.me.relaxed.length < 8) (fun s =>
        ({ s with nonce := s.nonce + 1 }.sendTo s.cur.1 (home s) (same s)
          (.remoteRequestArrive (home s) (act s true (s.nonce + 1)))).wentOn s.my
          (({ s.me with relaxed := s.me.relaxed ++ [(⟨s.nonce + 1, home s, none, 0, 0⟩ : Rlx)] } : Slot).next s.me.pc))
    ∧ EGoes (.messageArrive c i m) (fun s => quietly s ∧ room s ∧ (t s).held = .none) (fun s => s.setCore c ((up s).setSlot i (box s)))
    ∧ EGoes (.messageArrive c i m) (fun s => quietly s ∧ room s ∧ (t s).held = .waitmsg false ∧ calm s) (fun s =>
        s.woken c i (up s) (box s))
    ∧ EGoes (.messageArrive c i m) (fun s => quietly s ∧ msgU m = true ∧ (t s).st = .ready ∧ (t s).able i = true
        ∧ (t s).timerInt = false ∧ ∀ x ∈ (t s).mail, msgU x = false) (fun s =>
        s.setCore c ((up s).setSlot i (hit (t s) s m.m0 m.m1)))
    ∧ EGoes (.messageArrive c i m) (fun s => quietly s ∧ msgU m = true ∧ (t s).st = .waiting ∧ (t s).able i = true
        ∧ (t s).timerInt = false ∧ ∀ x ∈ (t s).mail, msgU x = false) (fun s =>
        s.setCore c ({ up s with woken := (s.core c).woken + 1 }.setSlot i (hit (t s) s m.m0 m.m1)))
    ∧ EGoes (.messageArrive c i m) (fun s => quietly s ∧ msgU m = true ∧ (t s).st = .ready ∧ (t s).held = .none
        ∧ (t s).timerInt = true ∧ (t s).mail.length < 16 ∧ (t s).mailHeld = []) (fun s =>
        s.setCore c ((up s).setSlot i { box s with mail := (t s).mail ++ [{ m with src := none }] }))
    ∧ EGoes (.messageArrive c i m) (fun s => quietly s ∧ (t s).st ≠ .idle ∧ msgU m = false ∧ 16 ≤ (t s).mail.length) (fun s =>
        s.setCore c ((up s).setSlot i { t s with mailHeld := (t s).mailHeld ++ [m] }))
    ∧ EGoes (.mailboxHeldEntry c i) (fun s => m.src = none ∧ (t s).mailHeld = m :: l ∧ (t s).mail.length < 16 ∧ (t s).st ≠ .idle
        ∧ (t s).held = .none) (fun s => s.setSlot c i { box s with mailHeld := l })
    ∧ EGoes (.uliDeliver c i) (fun s => (t s).able i = true ∧ (t s).st = .ready ∧ (t s).timerInt = true) (fun s =>
        s.setSlot c i (hit { t s with timerInt := false } s 0x100 0))
    ∧ EGoes (.uliDeliver c i) (fun s => (t s).able i = true ∧ (t s).st = .ready ∧ (t s).timerInt = false
        ∧ (t s).mail.find? msgU = some m) (fun s =>
        s.setSlot c i (hit { t s with mail := (t s).mail.eraseP msgU } s m.m0 m.m1))
    ∧ EGoes (.timerExpiry c i) (fun s => (t s).st ≠ .idle ∧ (t s).st ≠ .stopped ∧ out s ∧ i ≤ 13 ∧ (t s).tul = true
        ∧ (t s).ue = true) (fun s => s.setCore c ((up s).setSlot i { t s with timer := 0, timerInt := true }))
    ∧ EGoes (.timerExpiry c i) (fun s => out s ∧ i < 15 ∧ stops s i
        ∧ ((t s).tul = false ∨ (t s).ue = false)) (fun s =>
        s.setCore c ({ up s with
          trapq := trapPut ⟨i, BitVec.ofNat 64 cTIMER, (t s).pc, s.now⟩ ((s.core c).trapq.filter fun r => r.slot ≠ i) }.setSlot i
            { halt s (t s) cTIMER with timer := 0 }))
    ∧ EGoes (.timerExpiry c i) (fun s => (t s).st = .stopped ∧ (t s).stop = none ∧ (t s).stopped ≠ some s.now ∧ out s) (fun s =>
        s.setCore c ((up s).setSlot i { t s with timer := 0, tpend := true }))
    ∧ EGoes (.istSwitch c) (fun s => (s.core c).istNext = some ist ∧ (s.core c).istDue s.now = true) (fun s =>
        s.setCore c { s.core c with ist := ist, istNext := none, istBar := false })
    ∧ EGoes (.coreBank c) (fun s => s.bankable c = true) (fun s => s.setCore c { s.core c with banked := true })
    ∧ EGoes (.restartEnd c) (fun s => (s.core c).restart = some d ∧ d ≤ s.now) (fun s =>
        s.setCore c { s.core c with restart := none })
    ∧ EGoes (.preemptArrive c) (fun s => s.live c ∧ system s
        ∧ ∀ k < 15, (s.slot c k).stop = none ∧ ((s.slot c k).st = .idle ∨ stops s k ∧ (s.slot c k).imv = false)) (fun s =>
        s.woken c 15 (unstaged { pre s with slots := (s.core c).slots.mapIdx fun k u =>
          if k < 15 ∧ u.st = .ready then halt s u cPREEMPT else u }) (s.slot c 15))
    ∧ EGoes (.preemptArrive c) (fun s => s.live c ∧ system s ∧ i < 15 ∧ stops s i ∧ (t s).imv = true
        ∧ ∀ k < 15, k ≠ i → (s.slot c k).st = .idle ∧ (s.slot c k).stop = none) (fun s =>
        let q := (s.setCore c ((pre s).setSlot i (halt s (t s) cPREEMPT))).rollback c i
        q.woken c 15 (unstaged (q.core c)) (q.slot c 15))
    ∧ (∀ s : State, (s.core c).snaps.find? (fun n => n.slot = i) = some snap →
        let q := s.rollback c i
        let mine := fun (o : Option Nat) => o = some i ∨ o = none
        (q.slot c i).pc = (t s).mark.setWidth 64
        ∧ (∀ k z, k < 4 → snap.cursors.find? (fun e => e.1 = k) = some (k, z) → mine ((s.core c).cxOf k).owner →
          (q.core c).cxOf k = z)
        ∧ (∀ k z, k < 8 → snap.streams.find? (fun e => e.1 = k) = some (k, z) → mine ((s.core c).suOf k).owner → z.write = false →
          (q.core c).suOf k =
            { z with staged := [], moved := z.count, flight := false, ticket := none, fid := ((s.core c).suOf k).fid })
        ∧ ((s.core c).scan.owner = some i → (q.core c).scan = { (s.core c).scan with
            run := snap.scan.run, cin := snap.scan.cin, tot := snap.scan.tot
            tiles := (s.core c).scan.tiles.filter fun t => !t.region })
        ∧ ∀ k, k < 4 → vget (q.core c).cq k [] = (vget (s.core c).cq k []).filter fun e => !(e.slot = i && e.region))
    ∧ EGoes (.slot15Restart c) (fun s => (s.slot c 15).st = .stopped) (fun s =>
        s.setSlot c 15 ((s.slot c 15).start Config.firmwareEntry 0 true))
    ∧ EGoes (.engineEccError c d r tid va) always (fun s =>
        s.postRecord (faultBits ⟨0, s.ctxOf c, tid, true, d, r, false, 4, va, (s.core c).rank, c⟩))
    ∧ EGoes (.scrub c d) (fun s => (s.core c).bad (d / 4 * 4) 4 = false ∧ (s.core c).scrub ≠ d / 4) (fun s =>
        s.touch c (d / 4 * 4) 4)
    ∧ EGoes (.scrub c d) (fun s => (s.core c).bad (d / 4 * 4) 4 = false ∧ (s.core c).scrub = d / 4) (fun s =>
        State.touch ({ s with nonce := s.nonce + 1 }.setCore c { s.core c with
          scrub := (d / 4 + 1) % 2 ^ 18, scrubAt := s.now + (1 + Config.free s.nonce % 152) }) c (d / 4 * 4) 4)

/-- R329, R330, R332, R365, R367 to R369: an engine's fault holds its request under a fault id and posts a record; a wake lets it
translate again, and makes the bundle of the slot it names issue afresh where that is PARKED on a cause that stops at once; a
write to a shared copy-on-write page takes a frame, copies it and maps it; a frame that nothing uses returns to the pool, and the
faults that wait for one are woken. Where a clause rests on a choice of the model, it is that of log entries 3, 49, 51 and 52. -/
def Obligations.PagesAndFaultRecords : Prop :=
  ∀ (c eng u va reason i fid tid ctx f : Nat) (wr : Bool) (k : Cmd) (p : Pending) (rest : List Nat) (lf : Leaf) (w : Cow),
    let fresh := fun (s : State) =>
      freeFid (s.hub.faults.map fun f => f.info.fid) (s.hub.faults.length + 2) s.hub.fidNext
    let record := fun (s : State) (unit slot : Nat) => (⟨fresh s, s.ctxOf c, (s.core c).rank * 16 + slot, true, eng, unit, wr,
      reason, va, (s.core c).rank, c⟩ : FaultRec)
    let held := fun (s : State) (slot : Nat) =>
      let q := s.postRecord (faultBits (record s u slot))
      { q with hub := { q.hub with
        faults := s.hub.faults ++ [(⟨record s u slot, false⟩ : Pending)], fidNext := (fresh s + 1) % 65536 } }
    let retry := fun (s : State) =>
      let x : Core := { s.core c with
        busy := true
        cq := (s.core c).cq.map fun (l : List Cmd) => l.map fun k =>
          if k.fid = some fid then { k with fid := none, due := s.now + 1 } else k
        su := (s.core c).su.map fun (y : Stream) => if y.fid = some fid then { y with fid := none, due := s.now + 1 } else y }
      State.setCore { s with hub := { s.hub with faults := s.hub.faults.filter fun g => g.info.fid != fid } } c x
    let woken := fun (s : State) => s.hub.faults.find? (fun f => f.info.fid = fid) = some p ∧ p.info.pcore = c
      ∧ (s.ofTid c tid).1 = c ∧ s.live c
    let returned := fun (s : State) => { s with hub := { s.hub with dying := s.hub.dying.erase f, pool := s.hub.pool ++ [f] } }
    EGoes (.pageFault c eng u va wr reason) (fun s => eng = 0 ∧ (s.core c).runningCmd u = some k ∧ k.fid = none) (fun s =>
      (held s k.slot).setCore c ((s.core c).modCmd k.id fun k => { k with fid := some (fresh s) }))
    ∧ EGoes (.pageFault c eng u va wr reason) (fun s => eng ≠ 0 ∧ ((s.core c).suOf u).owner = some i
        ∧ ((s.core c).suOf u).kind = .global ∧ ((s.core c).suOf u).fid = none) (fun s =>
      (held s i).setCore c ((s.core c).setSu u { (s.core c).suOf u with fid := some (fresh s) }))
    ∧ EGoes (.wakeArrive fid tid) (fun s => woken s ∧ (s.core c).wakes (tid % 16) = false) retry
    ∧ EGoes (.wakeArrive fid tid) (fun s => woken s ∧ (s.core c).wakes (tid % 16) = true) (fun s =>
      let j := tid % 16
      let t := s.slot c j
      (retry s).setCore c (((((retry s).core c).withdraw j t.held).setSlot j { t with st := .ready, held := .none }).count 15 1))
    ∧ (∀ x : Core, (x.slot i).st = .parked → (match (x.slot i).held with
        | .fe _ | .ring _ | .unit _ _ | .strip _ _ | .copyPlace _ | .relaxFull | .caddyFull | .seqEnd | .fence _ _ | .haltDrain =>
          x.wakes i = true
        | .divide | .matrix | .remote _ _ | .push _ | .send => x.wakes i = false
        | _ => True))
    ∧ EGoes (.cowCopy ctx va) (fun s => s.cowing ctx va = false ∧ s.xlate ctx false va (some true) = .ok lf ∧ lf.cow = true
        ∧ 1 < s.shareOf (lf.phys / 65536) ∧ s.hub.pool = f :: rest) (fun s =>
      { s with hub := { s.hub with pool := rest, cows := s.hub.cows ++ [(⟨ctx, va, f⟩ : Cow)] } }.afterIn (s.usCycles 1) (s.usCycles 3)
        (fun _ => false) (.cowCopyComplete ctx va))
    ∧ EGoes (.cowCopyComplete ctx va) (fun s => s.hub.cows = [w] ∧ w.ctx = ctx ∧ w.va = va
        ∧ s.xlate ctx false va none = .ok lf ∧ lf.big = false ∧ s.shareOf (lf.phys / 65536) ≠ 0) (fun s =>
      let q := { s with
        hub := { s.hub with cows := [] }
        hbm := Memory.write s.hbm (w.frame * 65536) 65536 (Memory.read s.hbm (lf.phys / 65536 * 65536) 65536) }
      let e := Memory.read q.hbm lf.entry 8
      (q.setPte lf.entry (bitSet (e - pteAddr e + w.frame * 65536) 60 false)).shareDrop (lf.phys / 65536))
    ∧ EGoes (.frameReturn f) (fun s => f ∈ s.hub.dying ∧ s.frameUsed f = false ∧ ∀ g ∈ s.hub.faults, g.info.reason ≠ 6) returned
    ∧ EGoes (.frameReturn f) (fun s => f ∈ s.hub.dying ∧ s.frameUsed f = false ∧ s.hub.faults = [p] ∧ p.info.reason = 6) (fun s =>
      (returned s).afterIn 1 (s.usCycles 2) (fun _ => false) (.wakeArrive p.info.fid p.info.tid))

/-- R353, R354, R358 to R363, R383 to R385: a rank goes into transit, its core stops and its state moves to a spare; a lost lane
retrains its link, a failed link's traffic takes another die's, and what heals works again; a Cord link that drops leaves every
mask; an atomic of another package is applied once, and its result kept; one of this package without a reply in time is
INDETERMINATE; a transfer's end posts its notice; and a barrier counts its packages and tells its slots.
Where a clause rests on a choice of the model, it is that of log entries 3, 76, 84 to 86, 88 and 89. -/
def Obligations.LinksAndCord : Prop :=
  ∀ (gang rank spx die v kind link seq pkg count bid xid : Nat) (g : Gang) (r : RankEnt) (req : CordAtomic) (b : Bar)
    (q : CatomRun) (x : CordXfer) (d a : Nat),
    let spare := fun (r : RankEnt) => 2048 + r.pos / 256 * 16 + spx
    let ranked := fun (s : State) => s.gang? gang = some g ∧ g.ranks[rank]? = some r
    let calls := fun (s : State) (e : Event) => s.after 1 e
    let l := fun (s : State) => s.link die
    let quiet := fun (s : State) => s.hub.wires = []
    let mine := fun (s : State) => s.hub.replies.filter fun y => y.link = req.link
    let n := if req.wide then 8 else 4
    let w := req.addr / n * n
    let old := fun (s : State) => Memory.read s.hbm w n
    let answer := fun (s : State) (v : W64) => (⟨req.link, req.pkg, req.seq, v, s.now⟩ : ReplyEnt)
    let apply := fun (s : State) => { s with
      hbm := Memory.write s.hbm w n
        (amoNew req.op (8 * n) (old s) (req.operand.toNat % 2 ^ (8 * n)) (req.newval.toNat % 2 ^ (8 * n)))
      hub := { s.hub with
        replies := s.hub.replies ++ [answer s (BitVec.ofNat 64 (old s))], atomics := []
        returned := s.hub.returned ++ [answer s (BitVec.ofNat 64 (old s))] } }
    let came := insertNat pkg b.came
    let others := fun (s : State) => s.hub.bars.filter fun y => y.id != bid
    EGoes (.rankMove gang rank spx) (fun s => ranked s ∧ r.transit = false ∧ g.st = .running ∧ spx < 16
        ∧ (s.core (spare r)).gang = none ∧ ∀ p ∈ s.hub.spares, p.2 ≠ spare r) (fun s =>
        calls (s.setGang gang { g with ranks := g.ranks.set rank { r with transit := true } }) (.rankMove gang rank spx))
    ∧ EGoes (.rankMove gang rank spx) (fun s => ranked s ∧ r.transit = true ∧ (s.core r.core).preempt = false
        ∧ s.answered r.core = true) (fun s => calls ((s.stoke r.core).preemptCore r.core) (.rankMove gang rank spx))
    ∧ EGoes (.rankMove gang rank spx) (fun s => ranked s ∧ r.transit = true ∧ (s.core r.core).preempt = true
        ∧ s.stillToMove r.core = true ∧ (s.core r.core).err2 = []) (fun s => s.moveCore gang rank r.pos r.core (spare r))
    ∧ EGoes (.laneSpare die) (fun s => die < 8 ∧ s.sound die = true ∧ (l s).lost < 2) (fun s =>
        ((s.setLink die { l s with lost := (l s).lost + 1, retrain := true }).linkRecord 0 3 die 0 64).afterIn 1
          (s.usCycles 2 - 1) (fun _ => false) (.retrainingEnd die))
    ∧ EGoes (.retrainingEnd die) (fun s => quiet s ∧ ∀ e ∈ s.agenda, e.2 ≠ .retrainingEnd die) (fun s =>
        s.setLink die { l s with retrain := false })
    ∧ EGoes (.flitRetry kind link) always (fun s => s.corrected 1)
    ∧ EGoes (.linkFail die) (fun s => die < 8 ∧ s.sound die = true ∧ s.reroute die = some v ∧ quiet s
        ∧ ∀ k < 8, (s.link k).via ≠ some die) (fun s =>
        let q := (s.setLink die { l s with via := some v, change := true, isolated := false, retrain := false }).linkRecord 0 1 die v 0
        ((q.afterIn 1 (s.usCycles 10) (fun _ => false) (.changeoverEnd die)).shuffle die).raiseSkews die)
    ∧ (∀ (s : State) (c i : Nat), ((s.raiseSkews die).slot c i).skew =
        let t := s.slot c i
        let p := (s.ofTid c t.chan.toNat).1
        if t.mst ≠ .none ∧ s.die c ≠ s.die p ∧ (s.die c = die ∨ s.die p = die) then max t.skew 160 else t.skew)
    ∧ EGoes (.changeoverEnd die) (fun s => quiet s ∧ ∀ e ∈ s.agenda, e.2 ≠ .changeoverEnd die) (fun s =>
        s.setLink die { l s with change := false })
    ∧ EGoes (.linkHeal die) (fun s => die < 8 ∧ s.sound die = false ∧ quiet s ∧ ∀ k < 8, k ≠ die → (s.link k).isolated = false)
        (fun s => (s.setLink die ⟨0, none, false, false, false, s.flying die, if s.rerouted die then s.flueRounds else []⟩).linkRecord
          0 2 die 0 64)
    ∧ EGoes (.memoryLinkFail die) always (fun s =>
        { s with hub := { s.hub with memlink := vset s.hub.memlink die false } })
    ∧ EGoes (.cordLinkDrop link) (fun s => vget s.hub.cord link false = true ∧ s.hub.xfers = []) (fun s =>
        { s with hub := { s.hub with
          cord := vset s.hub.cord link false
          croute := s.hub.croute.map fun (e : Nat × W64) => (e.1, BitVec.ofNat 64 (bitSet e.2.toNat link false)) } }.linkRecord 3 1 link 0 0)
    ∧ (∀ y : ReplyEnt, EGoes (.cordAtomicArrive req)
        (fun s => req.retry = true ∧ s.hub.replies.filter (fun r => r.pkg = req.pkg ∧ r.seq = req.seq) = [y]) (fun s =>
        { s with hub := { s.hub with returned := s.hub.returned ++ [answer s y.result] } }))
    ∧ EGoes (.cordAtomicArrive req) (fun s => req.retry = false ∧ (mine s).length < 1024 ∧ s.hub.atomics = []) apply
    ∧ EGoes (.replyCacheEntryAge req.link) (fun s => s.hub.atomics = [req] ∧ (mine s).length < 1024) apply
    ∧ EGoes (.cordAtomicTimeout seq) (fun s => s.hub.catoms = [q] ∧ q.seq = seq ∧ s.live q.core
        ∧ (s.slot q.core q.slot).held = .hubcmd d a ∧ (s.core q.core).directMma q.slot = false) (fun s =>
        { s with hub := { s.hub with catoms := [] } }.woken q.core q.slot
          ({ s.core q.core with busy := true }.engWr (q.block + 48) 2 seq) ((s.slot q.core q.slot).ws d 5))
    ∧ EGoes (.cordTransferComplete xid) (fun s => s.hub.xfers = [x] ∧ x.id = xid ∧ x.failed = false ∧ x.write = true
        ∧ x.far = false ∧ x.orphan = false ∧ x.notice = true) (fun s => { s with hub := { s.hub with xfers := [] } }.notify x.core x.slot x.tag 0 x.len)
    ∧ (∀ z : State, EGoes (.cordTransferComplete xid) (fun s => s.hub.xfers = [x] ∧ x.id = xid ∧ x.failed = false ∧ x.write = true
        ∧ x.far = true ∧ State.writeVa { s with nonce := s.nonce + 1 } x.ctx false x.dst x.len
          (packN 8 (fun k => (x.data.getD k 0).toNat) x.len) = .done z) (fun _ =>
        { z with hub := { z.hub with xfers := z.hub.xfers.filter fun y => y.id != xid } }))
    ∧ EGoes (.cbarArrive bid pkg count) (fun s => s.bar bid = b ∧ came.length < count) (fun s =>
        { s with hub := { s.hub with bars := others s ++ [(⟨bid, b.gen, came, b.tell⟩ : Bar)] } })
    ∧ EGoes (.cbarArrive bid pkg count) (fun s => s.bar bid = b ∧ count ≤ came.length) (fun s =>
        b.tell.foldl (fun s t => s.notify t.1 t.2.1 t.2.2 0 b.gen)
          { s with hub := { s.hub with bars := others s ++ [(⟨bid, b.gen + 1, [], []⟩ : Bar)] } })

/-- R344, R380, R383 to R385: HUBCMD hands a block to the hub and its slot awaits the reply; SAVED and RESTORED note their rank
and a code without a row is answered 1; GANGFAIL ends its gang; CADDY sets a counter; CWRITE and CREAD send a transfer, CATOM an
atomic, and CBAR arrives at a barrier. How long a reply of CATOM takes and the TAG of CBAR's notice are free values. Where a
clause rests on a choice of the model, it is that of log entries 3, 15, 82, 88 and 90. -/
def Obligations.HubCommands : Prop :=
  ∀ (d a : BitVec 6) (c i dst at' g : Nat) (blk : BitVec 512) (y : Gang),
    let off := fun (s : State) => ((s.rs a.toNat).toNat : Int)
    let x := fun (s : State) => s.la 0 (off s)
    let given := fun (s : State) => BitVec.ofNat 512 (Memory.read s.my.mem (x s) 64)
    let asked := fun (s : State) => s.live c ∧ (s.slot c i).held = .hubcmd dst at' ∧ (s.core c).directMma i = false
    let asks := fun (s : State) => asked s ∧ (s.core c).gang = some g ∧ s.gang? g = some y
    let reply := fun (s : State) (st : Nat) =>
      s.woken c i { s.core c with busy := true } ((s.slot c i).ws dst (BitVec.ofNat 64 st))
    let w := blkWord blk
    let came := fun (s : State) => insertNat (s.core c).rank y.done
    let mine := fun (s : State) => w 1 = (s.core c).rank ∧ (came s).length < y.size
    let noted := fun (s : State) => s.setGang g { y with done := came s }
    let far := fun (s : State) => fld (w 4) 16 48 = 0 ∧ fld (w 5) 16 48 = 0 ∧ s.cordPath (w 4) = true
    let data := fun (s : State) => bytesOf ((s.readVa y.ctx false (w 1) (w 3)).getD 0) (w 3)
    let waits := fun (s : State) => { s with hub := { s.hub with catoms := s.hub.catoms ++ [(⟨c, i, fld (w 2) 32 16, at'⟩ : CatomRun)] } }
    SGoes (.hubcmd d a) (fun s => s.me.level = true ∧ s.segOk 0 (off s) 64 64 .load ∧ s.my.bad (x s) 64 = false
        ∧ ((given s).toNat % 256 = 0x22 → s.segOk 0 (off s) 64 64 .store)) (fun s =>
      let q := s.touch s.cur.1 (x s) 64
      (q.afterIn 1 (s.hubWay s.cur.1) (fun _ => false) (hubStep s.cur.1 s.cur.2 (given s))).awaits q.my .parked
        (.hubcmd d.toNat (x s)))
    ∧ EGoes (.saved c i blk) (fun s => asked s ∧ fld (w 0) 0 8 ≠ 0x10) (fun s => reply s 1)
    ∧ EGoes (.saved c i blk) (fun s => asks s ∧ fld (w 0) 0 8 = 0x10 ∧ y.st = .saving ∧ mine s) (fun s => noted (reply s 0))
    ∧ EGoes (.restored c i blk) (fun s => asks s ∧ y.st = .restoring ∧ mine s) (fun s =>
        (s.busied c).setGang g { y with done := came s, askers := y.askers ++ [(c, i)] })
    ∧ EGoes (.gangfail c i blk) asks (fun s => (reply s 0).failGang g)
    ∧ EGoes (.caddy c i blk) (fun s => asks s ∧ w 1 ≤ 7 ∧ fld (w 2) 48 16 = 0) (fun s =>
        (reply s 0).setGang g { y with caddy := vset y.caddy (w 1) ⟨fld (w 2) 0 32, fld (w 2) 32 16, 0⟩ })
    ∧ EGoes (.cwrite c i blk) (fun s => asks s ∧ far s ∧ s.rangeOk y.ctx false (w 1) (w 3) false = true) (fun s =>
        (reply s 0).sendXfer ⟨0, true, c, i, w 5, true, w 1, w 2, w 3, w 4, data s, false, y.ctx, false, false⟩)
    ∧ EGoes (.cread c i blk) (fun s => asks s ∧ far s ∧ s.rangeOk y.ctx false (w 2) (w 3) true = true) (fun s =>
        (reply s 0).sendXfer ⟨0, true, c, i, w 5, false, w 1, w 2, w 3, w 4, [], false, y.ctx, false, false⟩)
    ∧ EGoes (.catom c i blk) (fun s => asks s ∧ catomBad blk = false ∧ s.cordPath (fld (w 2) 0 16) = true
        ∧ ∀ q ∈ s.hub.catoms, ¬ (q.core = c ∧ q.slot = i)) (fun s =>
        let t := s.usCycles 50
        let e := ((waits (s.busied c)).after t (.cordAtomicTimeout (fld (w 2) 32 16))).draw 1 (2 * t)
        if e.1 < t then e.2.after e.1 (.catom c i blk) else e.2)
    ∧ EGoes (.cbar c i blk) (fun s => asks s ∧ fld (w 1) 24 40 = 0 ∧ fld (w 1) 8 16 ≠ 0) (fun s =>
        let e := s.draw 0 65535
        (reply e.2 0).barArrive (fld (w 1) 0 8) (s.hub.pkgid.toNat % 65536) (fld (w 1) 8 16) [(c, i, e.1)])

/-- R365, R370 to R378, R381: SQTAIL, SQCTL, WAKE, FQCONS and the other hub registers take a host's write; the next entry of a queue
is accepted and journaled, or its queue has been lapped; FENCE, SIGNAL, COPY, PGFORK and LAUNCH do their work; a finished command is
journaled, its record is written and its interrupt raised; and the host reads and writes lines of HBM.
Where a clause rests on a choice of the model, it is that of log entries 51, 78, 87 and 110. -/
def Obligations.QueuesAndCommands : Prop :=
  ∀ (queue seq addr c k x : Nat) (val : W64) (line : BitVec 512) (e : SqEntry) (w : Work) (t : State),
    let q := fun (s : State) => s.sq queue
    let v := val.toNat
    let on := fun (s : State) => s.barOn = true
    let hub := fun (s : State) (h : Hub) => ({ s with hub := h } : State)
    let slotOf := fun (s : State) => (q s).rd % 2 ^ (q s).lsz
    let ent := fun (s : State) => (⟨queue, ((q s).seqbase + (q s).rd) % 2 ^ 32, (q s).rd,
      BitVec.ofNat 512 (Memory.read s.host ((q s).base.toNat + 64 * slotOf s) 64)⟩ : SqEntry)
    let fill := fun (s : State) => ((q s).tail % 2 ^ 32 + 2 ^ 32 - (q s).rd) % 2 ^ 32
    let phase := fun (s : State) => if (q s).rd / 2 ^ (q s).lsz % 2 = 0 then 1 else 0
    let taken := fun (s : State) => hub s { s.hub with served := vset s.hub.served (q s).cls queue }
    let starts := fun (s : State) => s.workOf e.queue e.seq = some w ∧ s.mayBegin w = true ∧ w.ctx ∉ s.hub.kills
    let begun := fun (s : State) => hub s { s.hub with work := s.hub.work.map fun (y : Work) =>
      if y.e.queue = e.queue ∧ y.e.seq = e.seq then { y with begun := true } else y }
    let ends := fun (s : State) (st detail : Nat) => s.finishCmd e.queue e.seq st detail
    let word := sqWord e
    let tables := fun (s : State) => (s.ctxTable w.ctx).isSome = true
    let d := BitVec.ofNat 4736 x
    let pages := fld (word 3) 0 32
    let forks := fun (s : State) (k : Nat) => if pages ≤ k then ends s 4 0 else
      (hub s { s.hub with work := s.hub.work.map fun (y : Work) =>
        if y.e.queue = e.queue ∧ y.e.seq = e.seq then { y with page := k } else y }).after 1 (.pgfork e)
    let plain := word 3 % 64 = 0 ∧ fld (word 4) 4 12 = 0 ∧ fld (word 4) 42 22 = 0
    EGoes (.sqtailWrite queue val) (fun s => on s ∧ (q s).stop = false) (fun s =>
        s.setSq queue { q s with tail := v })
    ∧ EGoes (.sqtailWrite queue val) (fun s => (q s).stop = true) (fun s => s)
    ∧ EGoes (.sqctlRst queue) on (fun s => s.setSq queue
        { q s with seqbase := ((q s).seqbase + (q s).rd) % 2 ^ 32, rd := 0, tail := 0, stop := false })
    ∧ EGoes (.sqctlEn queue val) (fun s => on s ∧ fld v 29 1 = 0 ∧ (q s).en = false ∧ 4 ≤ fld v 16 5 ∧ fld v 16 5 ≤ 12) (fun s =>
        s.setSq queue { q s with cls := fld v 24 2, lsz := fld v 16 5, ctx := fld v 0 10, en := fld v 31 1 = 1 })
    ∧ EGoes (.sqctlEn queue val) (fun s => on s ∧ fld v 29 1 = 0 ∧ (q s).en = true) (fun s =>
        s.setSq queue { q s with en := fld v 31 1 = 1 })
    ∧ EGoes .entryAccept (fun s => s.acceptFrom = some queue ∧ fill s ≤ 2 ^ (q s).lsz ∧ sqPh (ent s) = phase s
        ∧ sqBad (ent s) = false) (fun s =>
        let p := (taken s).setSq queue { q s with rd := ((q s).rd + 1) % 2 ^ 32 }
        (hub p { p.hub with work := s.hub.work ++ [(⟨ent s, (q s).ctx, s.now, false, 1, 0, 0⟩ : Work)] }).journal queue (ent s).seq 1 0)
    ∧ EGoes .entryAccept (fun s => s.acceptFrom = some queue ∧ (2 ^ (q s).lsz < fill s ∨ sqPh (ent s) ≠ phase s)) (fun s =>
        (taken s).lap queue)
    ∧ EGoes (.wake val) on (fun s => s.afterIn 1 (s.usCycles 2) (fun _ => false) (.wakeArrive (fld v 48 16) (fld v 0 15)))
    ∧ EGoes (.fqcons val) (fun s => on s ∧ s.hub.fqwait = []) (fun s => hub s { s.hub with fqcons := v })
    ∧ EGoes (.hubRegisterWrite 0x08 val) (fun s => on s ∧ 1 ≤ v ∧ v ≤ 2 ^ 20) (fun s => hub s { s.hub with agemax := val })
    ∧ EGoes (.hubRegisterWrite 0x08 val) (fun _ => v = 0 ∨ 2 ^ 20 < v) (fun s => s)
    ∧ EGoes (.hubRegisterWrite 0x10 val) on (fun s => hub s { s.hub with jmirror := val &&& 0xFFFFFFFFFFFF0000#64 })
    ∧ EGoes (.hubRegisterWrite 0x20 val) on (fun s => hub s { s.hub with fqbase := val })
    ∧ EGoes (.hubRegisterWrite 0x40 val) on (fun s => hub s { s.hub with pkgid := val &&& 0xFFFF#64 })
    ∧ EGoes (.hubRegisterWrite (0x1000 + 64 * k) val) (fun s => on s ∧ k < 256) (fun s =>
        s.setSq k { s.sq k with base := val &&& 0xFFFFFFFFFFFFFFC0#64 })
    ∧ EGoes (.hubRegisterWrite (0x8000 + 16 * c) val) (fun s => on s ∧ c < 1024) (fun s =>
        (hub s { s.hub with ctxroot := tput c (val &&& 0x800000FFFFFFF000#64) s.hub.ctxroot }).uncache c)
    ∧ EGoes (.queueFence e) starts (fun s => ends (begun s) 4 0)
    ∧ EGoes (.signal e) (fun s => starts s ∧ word 1 % 8 = 0) (fun s =>
        ends { begun s with host := Memory.write s.host (word 1) 8 (word 2) } 4 0)
    ∧ EGoes (.signal e) (fun s => starts s ∧ word 1 % 8 ≠ 0) (fun s => ends (begun s) 5 1)
    ∧ EGoes (.copy e) (fun s => starts s ∧ tables s ∧ plain ∧ copyFlag e 2 = false ∧ copyFlag e 3 = false
        ∧ s.rangeOk w.ctx (copyFlag e 1) (word 2) (word 3) true = true ∧ s.readVa w.ctx (copyFlag e 0) (word 1) (word 3) = some x
        ∧ (begun s).writeVa w.ctx (copyFlag e 1) (word 2) (word 3) x = .done t) (fun _ => ends t 4 (word 3))
    ∧ EGoes (.copy e) (fun s => starts s ∧ tables s ∧ plain ∧ copyFlag e 2 = false ∧ copyFlag e 3 = true
        ∧ s.cordPath (fld (word 4) 16 16) = true ∧ s.rangeOk w.ctx (copyFlag e 0) (word 1) (word 3) false = true) (fun s =>
        (begun s).sendXfer ⟨0, false, e.queue, e.seq, 0, true, word 1, word 2, word 3, fld (word 4) 16 16,
          bytesOf ((s.readVa w.ctx (copyFlag e 0) (word 1) (word 3)).getD 0) (word 3), false, w.ctx, false, false⟩)
    ∧ EGoes (.pgfork e) (fun s => starts s ∧ tables s ∧ fld (word 3) 48 16 = 0 ∧ word 1 % 65536 = 0 ∧ word 2 % 65536 = 0
        ∧ (begun s).forkCheck w.ctx (word 1) (word 2) [] [] pages = 0) (fun s => forks (begun s) 0)
    ∧ EGoes (.pgfork e) (fun s => s.workOf e.queue e.seq = some w ∧ w.begun = true ∧ w.state < 4) (fun s =>
        forks (s.forkPage w.ctx (word 1 + 65536 * w.page) (word 2 + 65536 * w.page) (fld (word 3) 32 16)) (w.page + 1))
    ∧ EGoes (.launch e) (fun s => starts s ∧ tables s ∧ s.readVa w.ctx false (word 1) 592 = some x ∧ word 1 % 64 = 0
        ∧ launchBad d = false ∧ launchTooBig d = false ∧ s.rangeOk w.ctx false (dBits d 8 0 64) (dCode d).2 false = true
        ∧ s.rangeOk w.ctx false (dBits d 24 0 64) (dData d).2 false = true) (fun s =>
        let p := (begun s).setGang s.hub.gangNext ({
            ctx := w.ctx, queue := e.queue, seq := e.seq, cls := (s.sq e.queue).cls, st := .accepted, desc := d
            size := dCores d, ranks := [], psize := poolBytes (dPool d)
            caddy := Vector.ofFn fun k => ⟨dBits d (296 + 8 * k) 0 32, dBits d (296 + 8 * k) 32 16, 0⟩
            since := w.since, waiter := false, base := 0, done := [], askers := [], kept := [], reserved := [] } : Gang)
        hub p { p.hub with gangNext := s.hub.gangNext + 1 })
    ∧ EGoes (.commandFinish queue seq) (fun s => s.workOf queue seq = some w ∧ 4 ≤ w.state) (fun s =>
        let j := s.journal queue seq w.state w.detail
        let r := seq % 2 ^ 32 * 2 ^ 32 + sqTag w.e * 65536 + w.state * 256 + sqPh w.e + w.detail % 2 ^ 64 * 2 ^ 64
        { j with
          host := Memory.write s.host ((j.sq queue).cq.toNat + 16 * (w.e.n % 2 ^ (j.sq queue).lsz)) 16 r
          hub := { j.hub with
            work := j.hub.work.filter fun y => !(y.e.queue = queue && y.e.seq = seq)
            irqs := if sqIrq w.e then s.hub.irqs ++ [w.ctx % 64] else s.hub.irqs } })
    ∧ EGoes (.hostMemWrite addr line) (fun s => on s ∧ addr < hbmSize) (fun s => { s with
        hbm := Memory.write s.hbm (addr / 64 * 64) 64 line.toNat
        hub := { s.hub with
          badLines := s.hub.badLines.filter fun l => l != addr / 64, weakLines := s.hub.weakLines.filter fun l => l != addr / 64 }
        mg := { s.mg with hostRead := some (.written (addr / 64 * 64)) } })
    ∧ EGoes (.hostMemRead addr) (fun s => on s ∧ addr < hbmSize) (fun s =>
        let p := s.touchLine (addr / 64)
        { p with mg := { p.mg with hostRead := some (.line (addr / 64 * 64)
          (BitVec.ofNat 512 (Memory.read p.hbm (addr / 64 * 64) 64)) (p.hub.badLines.contains (addr / 64))) } })
    ∧ EGoes (.hostMemRead addr) (fun s => s.barOn = false ∧ s.mg.tripped = false ∧ addr < hbmSize) (fun s =>
        { s with mg := { s.mg with hostRead := some (.error (addr / 64 * 64)) } })
    ∧ EGoes (.hostMemWrite addr line) (fun s => s.barOn = false ∧ s.mg.tripped = false ∧ addr < hbmSize) (fun s =>
        { s with mg := { s.mg with hostRead := some (.error (addr / 64 * 64)) } })

/-- R237, R331, R334, R337, R355, R356, R377 to R379: the placer puts a launch on cores, and every table is written before a slot
starts; a launch that fits nowhere makes its class's waiter; a launch whose cores are done is DONE with what its deques still held;
CANCEL, KILL, PREEMPT, RESUME and CANCEL-FAULTS do their work, and a drained KILL frees its context.
Where a clause rests on a choice of the model, it is that of log entries 3, 6, 7, 75, 80 and 83. -/
def Obligations.GangsAndKills : Prop :=
  ∀ (gang ctx g : Nat) (x : Gang) (ps : List Nat) (code data : Nat) (e : SqEntry) (w : Work),
    let hub := fun (s : State) (h : Hub) => ({ s with hub := h } : State)
    let due := fun (s : State) => s.placeDue = some gang ∧ s.gang? gang = some x
    let d := x.desc
    let starts := fun (s : State) => s.workOf e.queue e.seq = some w ∧ s.mayBegin w = true ∧ w.ctx ∉ s.hub.kills
    let begun := fun (s : State) => hub s { s.hub with work := s.hub.work.map fun (y : Work) =>
      if y.e.queue = e.queue ∧ y.e.seq = e.seq then { y with begun := true } else y }
    let names := fun (s : State) => starts s ∧ s.namedGang e = some (g, x)
    let dead := fld (sqWord e 1) 0 10
    let gone := fun (s : State) => s.hub.work.filter fun y => sqOpc y.e = 5 && y.begun && fld (sqWord y.e 1) 0 10 = ctx
    EGoes (.gangPlace gang) (fun s => due s ∧ s.choose gang x = none) (fun s => s.setGang gang { x with waiter := true })
    ∧ EGoes (.gangPlace gang) (fun s => due s ∧ s.choose gang x = some ps ∧ x.st = .accepted
        ∧ s.readVa x.ctx false (dBits d 8 0 64) (dCode d).2 = some code
        ∧ s.readVa x.ctx false (dBits d 24 0 64) (dData d).2 = some data) (fun s =>
        let rs := s.rankTable ps
        let y : Gang := { x with st := .running, ranks := rs, waiter := false, reserved := [] }
        (rs.zipIdx.foldl (fun (s : State) (e : RankEnt × Nat) => s.setCore e.1.core ((s.core e.1.core).launch gang y e.2 code data))
          ((s.setGang gang y).journal x.queue x.seq 2 0)).journal x.queue x.seq 3 0)
    ∧ EGoes (.launchDone gang) (fun s => s.gang? gang = some x ∧ x.st = .running ∧ s.gangFinished x = true
        ∧ ∀ r ∈ s.hub.cancels, r.gang ≠ gang) (fun s =>
        let n := (x.ranks.map fun e => bandsLen (s.core e.core).dq).sum + (s.dieRecords gang).length
        let q := s.freeCores gang x
        (hub q { q.hub with gangs := tdel gang q.hub.gangs }).finishCmd x.queue x.seq 4 n)
    ∧ EGoes (.cancel e) (fun s => names s ∧ s.cancelOf e = none ∧ x.st = .running ∧ sqWord e 2 % 65536 ≠ 0) (fun s =>
        (begun s).cancelStart g (sqWord e 2 % 65536) 0 0 (some (e.queue, e.seq)))
    ∧ EGoes (.cancel e) (fun s => names s ∧ s.cancelOf e = none ∧ x.st = .running ∧ sqWord e 2 % 65536 = 0) (fun s =>
        (begun s).finishCmd e.queue e.seq 4 0)
    ∧ EGoes (.kill e) starts (fun s =>
        let p := hub s { (begun s).hub with
          kills := s.hub.kills ++ [dead], cancels := s.hub.cancels.filter fun q => s.ctxGang q.gang != dead }
        let p := (p.hub.work.filter fun y => y.ctx = dead && !(sqOpc y.e = 5 && y.begun)).foldl (fun p y => p.failCmd y.e 6) p
        (p.hub.gangs.filter fun f => f.2.ctx = dead).foldl (fun p f =>
          if f.2.ranks.isEmpty then hub p { p.hub with gangs := tdel f.1 p.hub.gangs } else p.stopGang f.1 f.2) p)
    ∧ EGoes (.killDrained ctx) (fun s => s.killOver ctx = true ∧ ∀ f ∈ s.hub.gangs, f.2.ctx ≠ ctx) (fun s =>
        let p := ((gone s).foldl (fun p y => p.finishCmd y.e.queue y.e.seq 6 0) s).releaseCtx ctx
        hub p { p.hub with kills := p.hub.kills.filter fun k => k != ctx })
    ∧ EGoes (.cancelFaults e) starts (fun s =>
        let l := s.namedFaults e w.ctx
        let gs := l.filterMap fun f => (s.core f.info.pcore).gang
        let p := l.foldl State.dropFault (begun s)
        ((p.hub.faults.filter fun f => (p.core f.info.pcore).gang.any gs.contains).foldl State.retryFault p).finishCmd
          e.queue e.seq 4 l.length)
    ∧ EGoes (.preempt e) (fun s => names s ∧ x.st = .running) (fun s =>
        let p := State.setGang { begun s with nonce := s.nonce + 1 } g
          { x with st := .saving, done := [], base := Config.saveBase s.nonce % 2 ^ 32 * 65536 }
        x.ranks.foldl (fun p r => p.afterIn 1 (p.hubWay r.core) (fun _ => false) (.preemptArrive r.core)) p)
    ∧ EGoes (.resume e) (fun s => names s ∧ x.st = .saved) (fun s =>
        (begun s).setGang g { x with st := .waiting, waiter := false, since := w.since })
    ∧ EGoes (.resume e) (fun s => s.hub.work = [w] ∧ w.e = e ∧ w.begun = true ∧ w.state < 4 ∧ sqOpc e = 0x0A
        ∧ s.namedGang e = some (g, x) ∧ x.st = .running ∧ ∀ r ∈ x.ranks, ∃ k, (s.slot r.core 15).held = .waitmsg k) (fun s =>
        s.finishCmd e.queue e.seq 4 0)

/-- R386 to R396: a reset begins bring-up anew with the images last loaded and the fuses kept; a stage succeeds and the next starts,
or bring-up stops with an error code; VERIFY fixes the measurements, and DIES what the links and the spare cores are; a firmware
image is taken at once where VERIFY stopped and else awaits the reset; SVNCOMMIT raises the fuse and never lowers it; PWRLIM,
CECNT and the control word take a write; samples of power, current and temperature, 10 µs apart, change the clock step at a frame
start, where the hub's times stay what they are in microseconds, or trip the package; and SPDM's requests are answered, with Busy
while a response is being signed. Where a clause rests on a choice of the model, it is that of log entries 3, 9, 91 to 94, 96, 98
and 131 to 133. -/
def Obligations.Management : Prop :=
  ∀ (img mw amps temp slot off len idx code : Nat) (svn : BitVec 16) (keyok sigok ea eh signed : Bool) (val : W32) (n : Nat)
    (r : Signing),
    let mg := fun (s : State) (m : Mgmt) => ({ s with mg := m } : State)
    let anew := fun (s : State) =>
      ({ State.reset with
        nonce := s.nonce, host := s.host
        agenda := (s.agenda.filter fun e => isOutside e.2).map fun e => (e.1 - s.now, e.2)
        mg := { Mgmt.reset with
          epoch := s.mg.epoch + s.now
          fuse := s.mg.fuse, keyDigest := s.mg.keyDigest, debugLock := s.mg.debugLock, faulty := s.mg.faulty
          images := s.mg.pending.foldl (fun v e => vset v (e.1 - 1) e.2) s.mg.images } } : State).after 1
          .bringUpStage
    let works := fun (s : State) (k : Nat) => s.mg.stage = k ∧ s.mg.err = false ∧ s.mg.faulty ≠ some k
    let later := fun (s : State) (k : Nat) =>
      (mg s { s.mg with stage := k + 1 }).afterIn 1 (s.usCycles 400000) (fun _ => false) .bringUpStage
    let stops := fun (s : State) (k : Nat) => mg s { s.mg with err := true, ecode := k }
    let sound := fun (s : State) => ∀ i ∈ s.mg.images.toList, i.keyok = true ∧ i.sigok = true ∧ s.mg.fuse ≤ i.svn
    let of := fun (s : State) (k : Nat) => Config.digest [k + 1, (vget s.mg.images k ⟨0, false, false, 0⟩).content]
    let ok := keyok = true ∧ sigok = true
    let image := fun (s : State) => (⟨svn, keyok, sigok, s.nonce + 1⟩ : Image)
    let named := 1 ≤ img ∧ img ≤ 3
    let halted := fun (s : State) => named ∧ s.mg.stage = 1 ∧ s.mg.err = true ∧ s.mg.ecode = 1
    let samples := fun (s : State) => (mw :: s.mg.power).take 100
    let full := fun (s : State) => (samples s).length = 100 ∧ 100 ≤ s.mg.fresh + 1
    let lim := fun (s : State) => s.mg.pwrlim * 1000 * (samples s).length
    let calm := fun (s : State) => full s ∧ (samples s).sum + 100000 * (samples s).length < lim s ∧ temp < 100
    let high := fun (s : State) => full s ∧ lim s < (samples s).sum
    let sampled := fun (s : State) (p : Prop) [Decidable p] => { s.mg with
      power := samples s, pwrnow := (samples s).sum / (samples s).length, fresh := s.mg.fresh + 1
      cool := if p then s.mg.cool + 1 else 0, amps := if amps > 4000 then s.mg.amps + 1 else 0
      since := s.mg.since + 1, held3 := if s.mg.step = 3 then s.mg.held3 + 1 else 0, sampleAt := s.now + s.usCycles 10 }
    let due := fun (s : State) => s.mg.tripped = false ∧ s.mg.sampleAt ≤ s.now
    let runs := fun (s : State) => due s ∧ temp < 115 ∧ s.mg.step < 3 ∧ s.mg.stepNext = none
    let asks := fun (s : State) (m : Mgmt) (k : Nat) =>
      (mg s { m with stepNext := some k }).after (32 - s.now % 32) .clockStepChange
    let hears := fun (s : State) => 2 ≤ s.mg.stage ∧ s.mg.tripped = false ∧ s.mg.spdm.signing = none
    let tells := fun (s : State) (r : SpdmResp) => mg s { s.mg with spdm := { s.mg.spdm with resp := some r } }
    let signs := fun (s : State) (r : Signing) => (mg s { s.mg with spdm := { s.mg.spdm with signing := some r } }).afterIn 1
      (s.usCycles 150000) (fun _ => false) .spdmSignedResponse
    let able := fun (s : State) => s.mg.spdm.asym = true ∧ s.mg.spdm.hash = true
    let entry := fun (b : Bool) (k : Nat) => if b then some (⟨3, Config.vendorId, k⟩ : ExtAlg) else none
    let sent := fun (s : State) (r : SpdmResp) =>
      mg { s with nonce := s.nonce + 1 } { s.mg with spdm := { s.mg.spdm with signing := none, resp := some r } }
    let sig := fun (s : State) => Config.signature s.mg.devKey s.nonce
    EGoes .powerOn always anew ∧ EGoes .perst always anew ∧ EGoes .rst always anew
    ∧ EGoes .bringUpStage (fun s => s.mg.stage = 0 ∧ s.mg.err = false) (fun s => later s 0)
    ∧ EGoes .bringUpStage (fun s => s.mg.stage = 1 ∧ s.mg.err = false ∧ sound s) (fun s => later (mg s { s.mg with
        measured := (((s.mg.measured.set 0 (of s 0)).set 1 (of s 1)).set 2 (of s 2)).set 3
          (Config.digest [4, s.mg.fuse.toNat, s.mg.keyDigest.toNat, s.mg.debugLock.toNat])
        devKey := Config.deviceKey (of s 0) }) 1)
    ∧ EGoes .bringUpStage (fun s => s.mg.stage = 1 ∧ s.mg.err = false ∧ ¬ sound s) (fun s => stops s 1)
    ∧ EGoes .bringUpStage (fun s => works s 2) (fun s =>
        later { s.trainLanes 16 4 with
          hbm := [], hub := { s.hub with memlink := Vector.replicate 4 true, badLines := [], weakLines := [] } } 2)
    ∧ EGoes .bringUpStage (fun s => works s 3) (fun s =>
        if overSpare (Config.failing s.nonce) then stops s 3 else later s.trainDies 3)
    ∧ (∀ s : State, (∀ k < 8, (s.trainDies.link k).lost ≤ 2 ∧ { s.trainDies.link k with lost := 0 } = Link.healthy)
        ∧ (∀ e ∈ s.trainDies.hub.spares, e.1 ∈ Config.failing s.nonce ∧ 2048 + e.1 / 256 * 16 ≤ e.2)
        ∧ ∀ k < 4, vget s.trainDies.mg.measured k 0 = vget s.mg.measured k 0)
    ∧ EGoes .bringUpStage (fun s => works s 4) (fun s => later { s with cores := [] } 4)
    ∧ EGoes .bringUpStage (fun s => works s 5) (fun s =>
        let p := s.trainLanes 20 17
        mg { p with hub := { s.hub with cord := Hub.reset.cord } } { p.mg with memActive := true, stage := 6 })
    ∧ EGoes .bringUpStage (fun s => 2 ≤ s.mg.stage ∧ s.mg.stage < 6 ∧ s.mg.err = false ∧ s.mg.faulty = some s.mg.stage) (fun s =>
        stops s s.mg.stage)
    ∧ EGoes (.firmwareImageLoad img svn keyok sigok) (fun s => halted s ∧ ok ∧ s.mg.fuse ≤ svn) (fun s =>
        (mg { s with nonce := s.nonce + 1 } { s.mg with
          images := vset s.mg.images (img - 1) (image s), err := false, ecode := 0 }).after 1 .bringUpStage)
    ∧ EGoes (.firmwareImageLoad img svn keyok sigok) (fun s => halted s ∧ ¬ (ok ∧ s.mg.fuse ≤ svn)) (fun s => s)
    ∧ EGoes (.firmwareImageLoad img svn keyok sigok) (fun s => named ∧ s.mg.stage ≠ 1) (fun s =>
        mg { s with nonce := s.nonce + 1 } { s.mg with pending := tput img (image s) s.mg.pending })
    ∧ EGoes .svncommit (fun s => s.mg.stage = 6 ∧ s.mg.fuse < s.mg.svn) (fun s => mg s { s.mg with fuse := s.mg.svn })
    ∧ EGoes .svncommit (fun s => s.mg.stage ≠ 6 ∨ s.mg.svn ≤ s.mg.fuse) (fun s => s)
    ∧ (∀ g : Mgmt, (∀ i ∈ g.images.toList, g.svn ≤ i.svn) ∧ ∃ i ∈ g.images.toList, g.svn = i.svn)
    ∧ EGoes (.pwrlimWrite val) always (fun s =>
        mg s { s.mg with pwrlim := min 2000 (max 600 (val.toNat % 4096)) })
    ∧ EGoes (.mgmtRegisterWrite 0x14 1) always anew
    ∧ EGoes (.mgmtRegisterWrite 0x18 val) always (fun s =>
        mg s { s.mg with pwrlim := min 2000 (max 600 (val.toNat % 4096)) })
    ∧ EGoes (.mgmtRegisterWrite 0x20 val) always (fun s =>
        mg s { s.mg with cecnt := ((BitVec.ofNat 32 s.mg.cecnt : W32) &&& ~~~val).toNat })
    ∧ EGoes (.powerSample mw amps temp) (fun s => due s ∧ 115 ≤ temp) (fun s => (mg s (sampled s False)).trip)
    ∧ EGoes (.powerSample mw amps temp) (fun s => due s ∧ s.mg.step = 3 ∧ 99 ≤ s.mg.held3 ∧ high s) (fun s =>
        (mg s (sampled s False)).trip)
    ∧ EGoes (.powerSample mw amps temp) (fun s => runs s ∧ 4000 < amps ∧ s.mg.amps = 1 ∧ ¬ calm s) (fun s =>
        asks s (sampled s False) 3)
    ∧ EGoes (.powerSample mw amps temp) (fun s => runs s ∧ amps ≤ 4000 ∧ (high s ∨ 105 < temp) ∧ 99 ≤ s.mg.since) (fun s =>
        asks s { sampled s False with since := 0 } (s.mg.step + 1))
    ∧ EGoes (.powerSample mw amps temp) (fun s => runs s ∧ amps ≤ 4000 ∧ calm s ∧ 0 < s.mg.step ∧ 999 ≤ s.mg.cool) (fun s =>
        asks s { sampled s True with cool := 0 } (s.mg.step - 1))
    ∧ EGoes (.powerSample mw amps temp) (fun s => runs s ∧ amps ≤ 4000 ∧ ¬ high s ∧ temp ≤ 105 ∧ ¬ calm s) (fun s =>
        mg s (sampled s False))
    ∧ EGoes .clockStepChange (fun s => s.mg.stepNext = some n ∧ s.now % 32 = 0) (fun s =>
        let p := s.rescale s.mg.step n
        (mg p { p.mg with step := n, stepNext := none }).postRecord (faultBits ⟨0, 0, 0, false, 4, 0, false, n, 0, 0, 0⟩))
    ∧ (∀ (s : State) (k t : Nat) (e : Event), (t, e) ∈ s.agenda → s.now ≤ t →
        let now := fun (t : Nat) => if t ≤ s.now then t else s.now + (t - s.now) * stepClock n / stepClock k
        let due := if s.hubTimed t e then now t
          else match e, s.changeEnd e with
            | .remoteRequestArrive _ _, some m => if m < t then now m + (t - m) else min t (now m)
            | _, _ => t
        (due, e) ∈ (s.rescale k n).agenda)
    ∧ EGoes .getVersion hears (fun s => tells s .version) ∧ EGoes .getCapabilities hears (fun s => tells s .capabilities)
    ∧ EGoes (.negotiateAlgorithms ea eh) hears (fun s => mg s { s.mg with spdm := { s.mg.spdm with
        asym := ea, hash := eh, resp := some (.algorithms 0 0 (entry ea 1) (entry eh 2)) } })
    ∧ EGoes .getDigests (fun s => hears s ∧ s.mg.spdm.hash = true) (fun s => tells s (.digests (Config.digest [0])))
    ∧ EGoes (.getCertificate slot off len) hears (fun s =>
        tells s (if slot = 0 then .certificate off len else .errorUnsupported))
    ∧ EGoes (.challenge 0) (fun s => hears s ∧ able s) (fun s => signs s .challenge)
    ∧ EGoes (.challenge slot) (fun s => hears s ∧ (slot ≠ 0 ∨ ¬ able s)) (fun s => tells s .errorUnsupported)
    ∧ EGoes (.getMeasurements idx signed) (fun s => hears s ∧ s.mg.stage < 4) (fun s => tells s .errorBusy)
    ∧ EGoes (.getMeasurements idx true) (fun s => hears s ∧ 4 ≤ s.mg.stage ∧ 1 ≤ idx ∧ idx ≤ 5 ∧ able s) (fun s =>
        signs s (.measurement idx))
    ∧ EGoes (.getMeasurements idx false) (fun s => hears s ∧ 4 ≤ s.mg.stage ∧ 1 ≤ idx ∧ idx ≤ 5 ∧ s.mg.spdm.hash = true) (fun s =>
        tells s (.measurements idx (vget s.mg.measured (idx - 1) 0) none))
    ∧ EGoes (.spdmUnsupportedRequest code) hears (fun s => tells s .errorUnsupported)
    ∧ EGoes .getVersion (fun s => 2 ≤ s.mg.stage ∧ s.mg.tripped = false ∧ s.mg.spdm.signing = some r) (fun s => tells s .errorBusy)
    ∧ EGoes .spdmSignedResponse (fun s => s.mg.spdm.signing = some .challenge) (fun s => sent s (.challengeAuth (sig s)))
    ∧ EGoes .spdmSignedResponse (fun s => s.mg.spdm.signing = some (.measurement idx)) (fun s =>
        sent s (.measurements idx (vget s.mg.measured (idx - 1) 0) (some (sig s))))

/-! ### Streams as operands -/

/-- R22, R70, R71, R91, R110 to R112, R222, R308, R309, R311, R312: VMOV with a source bound for reading takes the next strip of a
pattern, of a GLOBAL stream's staging area, of a port or of a pipe, and with a destination bound for writing stores its active
words or adds a strip; the stream advances, its last strip sets its predicate, a pattern's padded strip holds its pad word and an
end strip 0. A source bound for writing, a destination bound for reading and a stream at its end trap HANDLE; a strip that Seg or
its words' check find at fault traps so; with no strip or no place the slot waits, and its bundle issues afresh. That faults come
before waits is the model's choice (log entry 17), and so is what the staging area holds (log entry 3). -/
def Obligations.StreamOperands : Prop :=
  ∀ (d a : BitVec 5) (m : BitVec 3) (y : Stream) (x f : Nat) (t : Strip) (wm : W32) (ts : List Strip)
    (gs : List (Strip × W32)) (s : State), s.Able → s.Direct →
    let c := s.cur.1
    let bound := fun (r : BitVec 5) => s.bound c s.cur.2 r.toNat = some (r.toNat - 24, y)
    let mk := s.me.rm m.toNat
    let more := y.ended = false ∧ y.count < patCount y.blk
    let off := patSrc y.blk y.base y.count
    let valid := patValid y.blk y.count = true
    let pattern := y.kind = .pattern ∧ more ∧ valid
    let last := decide (y.count + 1 ≥ patCount y.blk)
    let onto := fun (v : VReg) => mergeElems 32 mk (s.me.rv d.toNat) fun e => VReg.elem v 32 e
    let active := fun (v : VReg) => VReg.ofElems 32 fun j => if mk.getLsbD j then VReg.elem v 32 j else 0
    let next := { y with count := y.count + 1 }
    let o := exec (.vmov d a m) s
    let waits := fun (l k : List Nat) => Host.Outcome.next
      (s.setCore c (s.my.setSlot s.cur.2 { s.me with st := .parked, held := .strip l k, npc := s.me.pc }))
    let read := fun (z : Stream) (ends : Bool) (p : State) =>
      let q := p.setCore c (p.my.setSu (a.toNat - 24) { z with ended := z.ended || ends })
      if ends then q.setCore c (q.my.setSlot s.cur.2 (q.me.wp y.pred true)) else q
    let gives := fun (q : State) (v : VReg) => o = .next (q.vput (q.me.wv d.toNat (onto v)) [])
    let port := s.my.portOf y.num
    let pipe := s.my.pipeOf y.num
    let popped := fun (p : State) => p.setCore c { p.my with pipe := vset p.my.pipe y.num { pipe with
      head := (pipe.head + 1) % pipe.depth, count := pipe.count - 1, ends := pipe.ends.filter fun e => e != pipe.head } }
    let from_ := pipe.base + 128 * pipe.head
    (bound a → y.write = false → s.plain [d.toNat] →
      (mk ≠ 0 → pattern →
        (segLocal y.seg off 128 4 .load = .at x →
          (s.my.bad x 128 = false → gives (read next last (s.touch c x 128)) (BitVec.ofNat 1024 (Memory.read s.my.mem x 128)))
          ∧ (s.my.bad x 128 = true → Traps o s cECCFATAL (BitVec.ofInt 32 off) true))
        ∧ (segLocal y.seg off 128 4 .load = .bad x → Traps o s x (BitVec.ofInt 32 off) true))
      ∧ (mk ≠ 0 → y.kind = .pattern → more → ¬valid → gives (read next last s) (VReg.ofElems 32 fun _ => patPad y.blk))
      ∧ (mk = 0 → y.kind = .pattern → more → o = .next ((read next last s).put (read next last s).me))
      ∧ (y.kind = .global → more →
        (mk ≠ 0 → y.staged = (t, wm) :: gs → t.bad = false → s.my.bad (y.stgOf y.count) 128 = false →
          gives (read { next with staged := gs } last (s.touch c (y.stgOf y.count) 128)) t.v)
        ∧ (mk ≠ 0 → y.staged = (t, wm) :: gs → t.bad = true ∨ s.my.bad (y.stgOf y.count) 128 = true → Traps o s cECCFATAL (BitVec.ofInt 32 off) true)
        ∧ (y.staged = [] → y.failed = none → o = waits [a.toNat] [])
        ∧ (y.staged = [] → y.failed = some f → Traps o s cPAGEFATAL (BitVec.ofNat 32 f) true))
      ∧ (y.kind = .port → y.ended = false → s.me.imv = false →
        (mk ≠ 0 → port.fifo = t :: ts → gives (read next t.last
            (s.setCore c { s.my with port := vset s.my.port y.num { port with fifo := ts } })) (if t.last then 0 else t.v))
        ∧ (port.fifo = [] → o = waits [a.toNat] []))
      ∧ (y.kind = .port → y.ended = false → s.me.imv = true → Traps o s cIDEMADD (s.me.mark.setWidth 32) true)
      ∧ (y.kind = .pipe → y.ended = false →
        (mk ≠ 0 → pipe.count ≠ 0 → pipe.ends.contains pipe.head = true → gives (read next true (popped s)) 0)
        ∧ (mk ≠ 0 → pipe.count ≠ 0 → pipe.ends.contains pipe.head = false → s.my.bad from_ 128 = false →
          gives (read next false (popped (s.touch c from_ 128))) (BitVec.ofNat 1024 (Memory.read s.my.mem from_ 128)))
        ∧ (pipe.count = 0 → o = waits [a.toNat] []))
      ∧ (y.ended = true → Traps o s cHANDLE (hDetail 2 a.toNat) true))
    ∧ (bound a → y.write = true → s.plain [d.toNat] → Traps o s cHANDLE (hDetail 1 a.toNat) true)
    ∧ (bound d → y.write = true → s.plain [a.toNat] →
      (mk ≠ 0 → pattern →
        (segLocal y.seg off 128 4 .store = .at x →
          o = .next (s.wentOn ((storeLanes s.my x (onto (s.me.rv a.toNat)) mk).setSu (d.toNat - 24) next) (s.me.next s.me.pc)))
        ∧ (segLocal y.seg off 128 4 .store = .bad x → Traps o s x (BitVec.ofInt 32 off) true))
      ∧ (y.kind = .pattern → more → mk = 0 ∨ ¬valid → o = .next (s.wentOn (s.my.setSu (d.toNat - 24) next) (s.me.next s.me.pc)))
      ∧ (mk ≠ 0 → y.kind = .global → more → y.staged.length < 32 →
        let p := s.scramble c y y.count false
        o = .next (p.wentOn (p.my.setSu (d.toNat - 24) { next with
          staged := y.staged ++ [(⟨active (onto (s.me.rv a.toNat)), false, false⟩, mk)] }) (s.me.next s.me.pc)))
      ∧ (y.kind = .global → more → 32 ≤ y.staged.length → o = waits [] [d.toNat])
      ∧ (mk ≠ 0 → y.kind = .pipe → y.ended = false → pipe.count < pipe.depth →
        let q := s.my.wr (pipe.base + 128 * pipe.tail) 128 (active (onto (s.me.rv a.toNat))).toNat
        o = .next (s.wentOn ({ q with pipe := vset q.pipe y.num { pipe with
          tail := (pipe.tail + 1) % pipe.depth, count := pipe.count + 1 } }.setSu (d.toNat - 24) next) (s.me.next s.me.pc)))
      ∧ (y.kind = .pipe → y.ended = false → pipe.depth ≤ pipe.count → o = waits [] [d.toNat])
      ∧ (y.ended = true → Traps o s cHANDLE (hDetail 2 d.toNat) true))
    ∧ (bound d → y.write = false → s.plain [a.toNat] → Traps o s cHANDLE (hDetail 1 d.toNat) true)

/-- R22, R91, R109 to R112: an instruction with a vector source that is bound for reading does what it does with the strip in that
register, and the stream has moved on; one whose destination is bound for writing stores there what it would have written into the
register: its active lanes' words, or, of an instruction that writes every lane, the whole strip; the register itself stays. A
destination bound for reading, one that the instruction also reads, and a source bound for writing trap HANDLE. That all 32 words
of a whole vector are stored, whatever the mask, is the model's choice (log entry 123). -/
def Obligations.StreamForms : Prop :=
  ∀ (d a b e : BitVec 5) (sd sb : BitVec 6) (md m f g : BitVec 3) (h : BitVec 2) (rx : BitVec 1) (n : BitVec 6) (y : Stream)
    (x : Nat) (s : State), s.Able → s.Direct → s.me.st = .ready → (s.me.rm m.toNat).getLsbD 0 = true →
    let c := s.cur.1
    let i := s.cur.2
    let k := f.toNat
    let mk := s.me.rm m.toNat
    let F := (fFmt k).width
    let W := intWidth k
    let two : List (Instr × Nat) := [(.vadd d a b m f, F), (.vsub d a b m f, F), (.vmul d a b m f, F), (.vmin d a b m f, F),
      (.vmax d a b m f, F), (.vcvtF16F32 d a b m f, 16), (.vcvtBf16F32 d a b m f, 16), (.vaddi d a b m f, W), (.vsubi d a b m f, W),
      (.vmuli d a b m f, W), (.vmulhi d a b m f, W), (.vmini d a b m f, W), (.vmaxi d a b m f, W), (.vabsdi d a b m f, W),
      (.vand d a b m f, W), (.vor d a b m f, W), (.vxor d a b m f, W), (.vshl d a b m f, W), (.vshr d a b m f, W),
      (.vsra d a b m f, W), (.vrshr d a b m f, W), (.vaddiSat d a b m f, W), (.vsubiSat d a b m f, W), (.vsatn d a b m f, W),
      (.vperm d a b m, 32), (.vdqnt d a b m f, 32)]
    let one : List (Instr × Nat) := [(.vaddScalar d a sb m f, F), (.vsubScalar d a sb m f, F), (.vmulScalar d a sb m f, F),
      (.vabs d a m f, F), (.vneg d a m f, F), (.vclass d a m f, F), (.vrndi d a m f, F), (.vrcp d a m f, F), (.vrsq d a m f, F),
      (.vexp2 d a m f, F), (.vlog2 d a m f, F), (.vtanh d a m f, F), (.vsig d a m f, F), (.vcvtI32F32 d a m f, 32),
      (.vcvtN32F32 d a m f, 32), (.vcvtF32I32 d a m f, 32), (.vcvtF32N32 d a m f, 32), (.vcvtF32F16 d a m 0, 32),
      (.vcvtF32Bf16 d a m 0, 32), (.vnot d a m f, W), (.vaddiScalar d a sb m f, W), (.vsubiScalar d a sb m f, W),
      (.vmuliScalar d a sb m f, W), (.vminiScalar d a sb m f, W), (.vmaxiScalar d a sb m f, W), (.vshlImm d a n m f, W),
      (.vshrImm d a n m f, W), (.vsraImm d a n m f, W), (.vrshrImm d a n m f, W), (.vwidenLo d a m f, 2 * W),
      (.vwidenHi d a m f, 2 * W), (.vpopc d a m f, W), (.vclz d a m f, W), (.vprepop d a m f, 32), (.vslideUp d a n m, 32),
      (.vslideDn d a n m, 32), (.vmov d a m, 32), (.vexpnd d a m, 32), (.vscaniAddInt d a m f, 32), (.vscaniMaxInt d a m f, 32),
      (.vscaniAddFloat d a m f, 32)]
    let three : List (Instr × Nat) := [(.vfma d a b e m h, (fFmt2 h.toNat).width), (.vfms d a b e m h, (fFmt2 h.toNat).width),
      (.vfnma d a b e m h, (fFmt2 h.toNat).width)]
    let none_ : List (Instr × Nat) := [(.vbcast d sb m, 32), (.viota d m, 32)]
    let whole2 : List Instr := [.vselv d a b m]
    let whole1 : List Instr := [.vcmprs d a m, .vredAddInt d a m f, .vredMinInt d a m f, .vredMaxInt d a m f, .vredAddFloat d a m f,
      .vredMinFloat d a m f, .vredMaxFloat d a m f]
    let read2 : List Instr := [.vcmpEq md a b m f, .vcmpNe md a b m f, .vcmpLt md a b m f, .vcmpLe md a b m f, .vcmpUn md a b m f,
      .vcmpOr md a b m f, .vcmpiEq md a b m f, .vcmpiNe md a b m f, .vcmpiLt md a b m f, .vcmpiLe md a b m f, .vmac2 d a b m f,
      .vmac2Sat d a b m f, .vdot4 d a b m f, .vdot4Sat d a b m f, .vqnt d a b m f, .vtopk d a b m f, .vtopkNz d a b m f,
      .vstx a sb g rx b m]
    let read1 : List Instr := [.vmovs sd a sb, .vldx d sb g rx a m]
    let reads := fun (j : Instr) (r : BitVec 5) => ((j ∈ one.map (·.1) ∨ j ∈ whole1 ∨ j ∈ read1) ∧ r = a)
      ∨ ((j ∈ two.map (·.1) ∨ j ∈ whole2 ∨ j ∈ read2) ∧ (r = a ∨ r = b)) ∨ (j ∈ three.map (·.1) ∧ (r = a ∨ r = b ∨ r = e))
    let stores := fun (j : Instr) (w : W32) => (∃ v, (j, v) ∈ two ++ one ++ three ++ none_ ∧ w = laneMask mk v)
      ∨ ((j ∈ whole1 ∨ j ∈ whole2) ∧ w = 0xFFFFFFFF#32)
    let bound := fun (r : BitVec 5) => s.bound c i r.toNat = some (r.toNat - 24, y) ∧ ∀ q, q ≠ r.toNat → s.plain [q]
    let free := fun (r : BitVec 5) (t : Slot) => s.setCore c ((s.my.setSu (r.toNat - 24) Stream.reset).setSlot i t)
    let same := fun (t u : State) => (t.slot c i).pc = (u.slot c i).pc ∧ (t.slot c i).s = (u.slot c i).s
      ∧ (t.slot c i).m = (u.slot c i).m ∧ (t.slot c i).sticky = (u.slot c i).sticky ∧ (t.core c).ev = (u.core c).ev
    (∀ (j : Instr) (r : BitVec 5) (v : VReg) (fx : State → State) (u : State), reads j r → j.wf = true → bound r → y.write = false →
      d ≠ r → d.toNat + 1 ≠ r.toNat → popStream s c i (r.toNat - 24) y true = .got v fx → exec j (free r (s.me.wv r.toNat v)) = .next u → (u.slot c i).st = .ready →
      ∃ t, exec j s = .next t ∧ same t u ∧ (t.core c).mem = (u.core c).mem
        ∧ (∀ q, q < 32 → q ≠ r.toNat → (t.slot c i).rv q = (u.slot c i).rv q) ∧ (t.slot c i).rv r.toNat = s.me.rv r.toNat
        ∧ (t.slot c i).p = ((fx s).slot c i).p ∧ (t.core c).su = ((fx s).core c).su ∧ (t.core c).port = ((fx s).core c).port
        ∧ (t.core c).pipe = ((fx s).core c).pipe)
    ∧ (∀ (j : Instr) (w : W32) (u : State), stores j w → j.wf = true → bound d → d ∉ [a, b, e] → y.write = true → y.kind = .pattern →
      y.ended = false → y.count < patCount y.blk → patValid y.blk y.count = true →
      segLocal y.seg (patSrc y.blk y.base y.count) 128 4 .store = .at x → exec j (free d s.me) = .next u →
      (u.slot c i).st = .ready →
      ∃ t, exec j s = .next t ∧ same t u ∧ (t.core c).mem = (storeLanes s.my x ((u.slot c i).rv d.toNat) w).mem
        ∧ (∀ q, q < 32 → (t.slot c i).rv q = s.me.rv q)
        ∧ (t.core c).su = vset s.my.su (d.toNat - 24) { y with count := y.count + 1 })
    ∧ (∀ (j : Instr) (w : W32), stores j w → j.wf = true → bound d → d ∉ [a, b, e] → y.write = false →
      Traps (exec j s) s cHANDLE (hDetail 1 d.toNat) true)
    ∧ (∀ (j : Instr) (r : BitVec 5), reads j r → (∃ w, stores j w) → j.wf = true → bound r → d ≠ r → y.write = true →
      Traps (exec j s) s cHANDLE (hDetail 1 r.toNat) true)
    ∧ (bound d → d ∉ [a, b, e] → ∀ j ∈ ([.vtopk d a b m f, .vtopkNz d a b m f] : List Instr), j.wf = true →
      Traps (exec j s) s cHANDLE (hDetail 1 d.toNat) true)
    ∧ (bound d → (Instr.smovv d sd sb).wf = true → Traps (exec (.smovv d sd sb) s) s cHANDLE (hDetail 1 d.toNat) false)

/-! ### Slot starts -/

/-- R11, R12: a slot start sets the slot's registers to their values at slot start, with the entry offset and the start word of the
request, and leaves the local store, every core-scope register and every other slot. -/
def Obligations.SlotStart : Prop :=
  ∀ (a b : BitVec 6) (s t : State), s.Able → s.me.level = true →
    let v := (s.rs a.toNat).toNat
    let i := v % 2 ^ 4
    let u := t.slot s.cur.1 i
    let x := t.core s.cur.1
    i < 14 → i ≠ s.cur.2 → (s.my.slot i).st = .idle → v / 2 ^ 4 % 2 ^ 4 = 0 → v / 2 ^ 9 % 2 ^ 23 = 0 → v / 2 ^ 52 = 0 →
      v / 2 ^ 32 % 8 = 0 → exec (.slotstart a b) s = .next t →
      u.pc = BitVec.ofNat 64 (v / 2 ^ 32) ∧ u.st = .ready ∧ u.level = decide (v / 2 ^ 8 % 2 = 1)
      ∧ (∀ r, r < 64 → u.rs r = if r = 1 then s.rs b.toNat else 0) ∧ (∀ k, k < 8 → vget u.sh k 0 = 0)
      ∧ (∀ k, k < 8 → u.rp k = decide (k = 0)) ∧ (∀ k, k < 32 → u.rv k = 0) ∧ (∀ k, k < 8 → u.rm k = 0xFFFFFFFF#32)
      ∧ u.sg = (s.my.slot i).sg ∧ u.geom = (s.my.slot i).geom
      ∧ u.fxa = 0 ∧ u.fxb = 0 ∧ u.fxc = 0 ∧ u.spa = 0 ∧ u.spb = 0
      ∧ u.tcause = 0 ∧ u.ulivec = 0 ∧ u.sticky = 0 ∧ u.timer = 0 ∧ u.lin = 0
      ∧ x.mem = s.my.mem ∧ x.fe = s.my.fe ∧ x.k = s.my.k ∧ x.acc = s.my.acc ∧ x.ring = s.my.ring ∧ x.cx = s.my.cx
      ∧ ∀ k, k ≠ i → k ≠ s.cur.2 → x.slot k = s.my.slot k

/-! ### Frames -/

/-- R11, R27, R54, R82, R158, R201: a scalar instruction of the integer, compare, predicate, move and address groups changes the
register that it writes, its slot's PC, and nothing else: no other register, no flag or status of the slot, no unit, no other slot
or core, no byte of memory. ISSUED counts it, and no other counter moves; an open capture of the slot records its bundle's VNOP,
and the repetition sequencer is else as it was. -/
def Obligations.ScalarFrame : Prop :=
  ∀ (d a b : BitVec 6) (p q r sg m : BitVec 3) (n : BitVec 6) (imm k : BitVec 12) (l : BitVec 32) (o : BitVec 8) (s t : State), s.Able →
    let toS : List Instr := [.add d a b, .sub d a b, .mul d a b, .mulh d a b, .mulhn d a b, .and d a b, .or d a b, .xor d a b, .andn d a b,
      .shl d a b, .shr d a b, .sra d a b, .rotr d a b, .min d a b, .max d a b, .minn d a b, .maxn d a b, .sel d a b p, .addi d a imm,
      .andi d a imm, .ori d a imm, .xori d a imm, .shli d a n, .shri d a n, .srai d a n, .sext d a n, .zext d a n, .clz d a, .ctz d a,
      .popc d a, .brev d a, .bext d a b, .bdep d a b, .movl d l, .movhi d l, .lea d a sg o, .ptos d, .mtos d m, .movk d k]
    let toP : List Instr := [.cmp r p a b, .cmpi r p a imm, .pand p q r, .por p q r, .pxor p q r]
    let c := s.cur.1
    let u := t.slot c s.cur.2
    let rest := s.others t ∧ (t.core c).bare = s.my.bare ∧ (t.core c).err1 = s.my.err1 ∧ (t.core c).err2 = s.my.err2 ∧ t.mg = s.mg ∧ s.sameBytes t 0 0
      ∧ (t.core c).ev = (s.my.count 8 1).ev ∧ (t.core c).seqr = (s.capture 0).my.seqr
      ∧ (s.my.seqr.owner ≠ some s.cur.2 ∨ s.my.seqr.want = 0 → (t.core c).seqr = s.my.seqr)
    (∀ i ∈ toS, i.wf = true → exec i s = .next t →
      rest ∧ { u with s := s.me.s, sh := s.me.sh }.bare = s.me.bare ∧ s.me.sameS u d.toNat)
    ∧ (∀ i ∈ toP, i.wf = true → exec i s = .next t →
      rest ∧ { u with p := s.me.p }.bare = s.me.bare ∧ ∀ j, j < 8 → j ≠ p.toNat → u.rp j = s.me.rp j)

/-- R27, R53, R54, R108, R109: a V syllable of the elementwise groups whose registers are not bound to streams changes v[d],
STICKY and its slot's PC, and nothing else: the inactive elements of v[d] stay, bits of STICKY are only ever set, only bits 0 to 5
of it are, and only counters 0 to 5, and ISSUED by one, count. -/
def Obligations.VectorFrame : Prop :=
  ∀ (d a b e : BitVec 5) (sc : BitVec 6) (m f : BitVec 3) (h : BitVec 2) (s t : State), s.Able → s.Direct →
    s.plain [d.toNat, a.toNat, b.toNat, e.toNat] →
    let F := (fFmt f.toNat).width
    let H := (fFmt2 h.toNat).width
    let W := intWidth f.toNat
    let is : List (Instr × Nat) := [(.vadd d a b m f, F), (.vsub d a b m f, F), (.vmul d a b m f, F), (.vaddScalar d a sc m f, F),
      (.vsubScalar d a sc m f, F), (.vmulScalar d a sc m f, F), (.vfma d a b e m h, H), (.vfms d a b e m h, H), (.vfnma d a b e m h, H),
      (.vmin d a b m f, F), (.vmax d a b m f, F), (.vabs d a m f, F), (.vneg d a m f, F), (.vrndi d a m f, F), (.vrcp d a m f, F),
      (.vrsq d a m f, F), (.vexp2 d a m f, F), (.vlog2 d a m f, F), (.vtanh d a m f, F), (.vsig d a m f, F), (.vaddi d a b m f, W),
      (.vsubi d a b m f, W), (.vmuli d a b m f, W), (.vmulhi d a b m f, W), (.vmini d a b m f, W), (.vmaxi d a b m f, W),
      (.vand d a b m f, W), (.vor d a b m f, W), (.vxor d a b m f, W), (.vnot d a m f, W), (.vmov d a m, 32)]
    let c := s.cur.1
    let u := t.slot c s.cur.2
    ∀ i ∈ is, i.1.wf = true → exec i.1 s = .next t →
      s.others t ∧ (t.core c).bare = s.my.bare ∧ (t.core c).err1 = s.my.err1 ∧ (t.core c).err2 = s.my.err2 ∧ (t.core c).seqr = s.my.seqr ∧ t.mg = s.mg
      ∧ s.sameBytes t 0 0 ∧ { u with v := s.me.v, sticky := s.me.sticky }.bare = s.me.bare
      ∧ (∀ r, r < 32 → r ≠ d.toNat → u.rv r = s.me.rv r)
      ∧ (∀ k, k < 1024 / i.2 → active (s.me.rm m.toNat) i.2 k = false → VReg.elem (u.rv d.toNat) i.2 k = VReg.elem (s.me.rv d.toNat) i.2 k)
      ∧ (∀ k, 6 ≤ k → vget (t.core c).ev k 0 = vget (s.my.count 8 1).ev k 0)
      ∧ (∀ j, j < 64 → s.me.sticky.getLsbD j = true → u.sticky.getLsbD j = true)
      ∧ ∀ j, 6 ≤ j → u.sticky.getLsbD j = s.me.sticky.getLsbD j

/-- R17, R19, R54, R93, R158, R201: a scalar load or store through a LOCAL segment that Seg allows changes nothing but its
register, or the bytes that it stores, and its slot's PC: every other byte of memory, every FE bit, register, flag and unit stays.
ISSUED counts it, and an open capture of the slot records its bundle's VNOP. What single-bit errors it has corrected is the
exception (R20). -/
def Obligations.MemoryFrame : Prop :=
  ∀ (d a : BitVec 6) (sg : BitVec 3) (rx : BitVec 1) (imm : BitVec 8) (s t : State), s.Able →
    let loads : List (Instr × Nat) := [(.ldb d a sg rx imm, 1), (.ldbs d a sg rx imm, 1), (.ldh d a sg rx imm, 2), (.ldhs d a sg rx imm, 2),
      (.ldw d a sg rx imm, 4), (.ldws d a sg rx imm, 4), (.ldd d a sg rx imm, 8)]
    let stores : List (Instr × Nat) := [(.stb d a sg rx imm, 1), (.sth d a sg rx imm, 2), (.stw d a sg rx imm, 4), (.std d a sg rx imm, 8)]
    let off := fun (n : Nat) => ((s.rs a.toNat).toNat : Int) + imm.toInt * n
    let x := fun (n : Nat) => s.la sg.toNat (off n)
    let c := s.cur.1
    let u := t.slot c s.cur.2
    let rest := s.others t ∧ (t.core c).bare = s.my.bare ∧ (∀ w ∈ (t.core c).err1, w ∈ s.my.err1)
      ∧ (∀ w ∈ (t.core c).err2, w ∈ s.my.err2) ∧ (t.core c).ev = (s.my.count 8 1).ev ∧ (t.core c).seqr = (s.capture 0).my.seqr
      ∧ (s.my.seqr.owner ≠ some s.cur.2 ∨ s.my.seqr.want = 0 → (t.core c).seqr = s.my.seqr)
    (∀ f ∈ loads, s.segOk sg.toNat (off f.2) f.2 f.2 .load → s.my.bad (x f.2) f.2 = false → exec f.1 s = .next t →
      rest ∧ s.sameBytes t 0 0 ∧ { u with s := s.me.s, sh := s.me.sh }.bare = s.me.bare ∧ s.me.sameS u d.toNat)
    ∧ (∀ f ∈ stores, s.segOk sg.toNat (off f.2) f.2 f.2 .store → (f.2 < 4 → s.my.bad (x f.2) f.2 = false) → exec f.1 s = .next t →
      rest ∧ s.sameBytes t (x f.2) f.2 ∧ u.bare = s.me.bare)

/-! ### Registers and memory -/

/-- R11, R19, R305: a register reads as it was last written, and the others as before; s0 reads 0, p0 true and m0 all ones,
whatever is written to them. While a slot's shadow bank is in use, s56 to s63 are its registers. Bytes read as they were last
written, the least significant first, and the others as before. -/
def Obligations.RegistersAndMemory : Prop :=
  (∀ (t : Slot) (d r : Nat) (v : W64), d < 64 → r < 64 →
    (t.ws d v).rs r = (if r = 0 then 0 else if r = d then v else t.rs r)
    ∧ (t.ua = false → (t.ws d v).sh = t.sh) ∧ (t.ua = true → 56 ≤ d → (t.ws d v).s = t.s ∧ (t.ws d v).sh = vset t.sh (d - 56) v))
  ∧ (∀ (t : Slot) (d r : Nat) (b : Bool), d < 8 → r < 8 → (t.wp d b).rp r = (r = 0 || if r = d then b else t.rp r))
  ∧ (∀ (t : Slot) (d r : Nat) (v : W32), d < 8 → r < 8 →
    (t.wm d v).rm r = if r = 0 then 0xFFFFFFFF#32 else if r = d then v else t.rm r)
  ∧ (∀ (t : Slot) (d r : Nat) (v : VReg), d < 32 → r < 32 → (t.wv d v).rv r = if r = d then v else t.rv r)
  ∧ ∀ (m : List Host.Cell) (a n x : Nat), Memory.wf m = true →
    Memory.read (Memory.write m a n x) a n = x % 2 ^ (8 * n)
    ∧ (∀ k, k < n → Memory.get (Memory.write m a n x) (a + k) = BitVec.ofNat 8 (x / 2 ^ (8 * k)))
    ∧ ∀ b, b < a ∨ a + n ≤ b → Memory.get (Memory.write m a n x) b = Memory.get m b

/-! ### Encoding -/

/-- R58 to R66, R68: what is decoded from the encoding of a well-formed instruction is that instruction, with every operand, and a
word that decodes is the encoding of its instruction: S syllables, V syllables and long forms each by their own table. -/
def Obligations.DecodeAndEncodeAgree : Prop :=
  (∀ i : Instr, i.wf = true →
    (i.kind = .short → decodeS (encode i) = some i) ∧ (i.kind = .vector → decodeV (encode i) = some i)
    ∧ (i.kind = .long → decodeL (encode i) = some i))
  ∧ ∀ (w : Nat) (i : Instr), (decodeS w = some i ∨ decodeV w = some i ∨ decodeL w = some i) → encode i = w ∧ i.wf = true

/-- R56, R58 to R66: words of the spec's examples decode to the instructions that they stand for. -/
def Obligations.DecodedWords : Prop :=
  decodeS 0x078C6064 = some (.cmpi 4 3 6 100) ∧ decodeS 0x0824A2C3 = some (.mulh 9 10 11)
  ∧ decodeS 0x30005007 = some (.trap 5) ∧ decodeV 0x06308860 = some (.vfma 3 1 2 3 0 0)
  ∧ decodeV 0x60305004 = some (.mset 3 20) ∧ decodeL 0xFFFFFFFB801C0000 = some (.movl 7 0xFFFFFFFB#32)
  ∧ decodeBundle 0x0221040014144002 = .pair (some (.ldw 5 4 0 0 2)) (some (.vadd 2 2 1 0 0))

/-! ### Steps -/

/-- R56, R57, R71, R196, R201: where no early step of a unit is due and a core's turn has come, the core runs, and selects a
slot's own bundle, whose eight bytes at its PC hold one instruction beside NOP or VNOP, and the slot does not publish, a step is
that instruction's: the bundle's word is read and corrected, the contest with the sequencer is won, the banks that it takes and
the counters of the cycle are kept, and a V part leaves its cycle's vector pipe to no syllable of the sequencer. That a core's
issue is one step of the model is its choice (log entry 2). -/
def Obligations.StepRunsTheDecoded : Prop :=
  ∀ (s r : State) (c i a : Nat) (l : List Nat) (donated : Bool) (ins : Instr), s.early = [] → s.turn = c :: l →
    (s.core c).banked = false → (s.core c).restart = none →
    let q := { s with turn := l }
    let p := q.atSlot c i
    let w := Memory.read p.my.mem a 8
    q.pick c = some ⟨i, none, donated⟩ → (i ≠ 14 ∨ (s.core c).netq = []) → p.fetchAt = .ok a →
    (p.touch c a 8).contest c i w false = some r → r.me.pub = false →
    soleInstr (decodeBundle w) = some ins →
    step s = onNext (exec ins r) fun t => ((r.charge t c (some a) (instrsOf w)).tally c i donated).sharePipe c i w

/-- R56 to R69: no instruction, of any form, ends a run: each answers a next state in every state; and the only step
that does not go on is one that an event begins which names a core, slot, unit, link or queue that the package
does not have, the model's choice (log entries 2 and 106). -/
def Obligations.EveryInstructionAnswers : Prop :=
  (∀ (i : Instr) (s : State), Goes (exec i s))
  ∧ ∀ s : State, Goes (step s) ∨ (step s = .fault .noSuchUnit
    ∧ ((∃ e l, s.early = e :: l ∧ eventOk e = false) ∨ (∃ t e l, s.agenda = (t, e) :: l ∧ t ≤ s.now ∧ eventOk e = false)
      ∨ ∃ e, (s.takers.poll = some e ∨ s.takers.services.poll = some e ∨ s.takers.services.pollBank = some e)
        ∧ eventOk e = false))

/-! ### Invariants -/

/-- R19, R20: every step keeps every memory in its canonical form, so that equal memories are equal data, and the list of cores in
order. The form is the model's (log entry 4). -/
def Obligations.MemoryStaysCanonical : Prop := ∀ s t : State, s.canonical → step s = .next t → t.canonical

/-- R20, R54, R134, R193, R353, R356, R372, R386 to R388, R396: after reset bring-up is in its first stage; every core has zero
memory with no FE bit set, its counters clear, its accumulators FP32 zero and no unit owned, the default issue-slot table, and
slots 0 to 14 IDLE with slot 15 in its firmware; no queue is enabled and nothing is accepted; and the invariant holds. Its
firmware's entry is the image's, and that it waits there the model's choice (log entry 8), as are the zeros of FQPROD's and the
queues' registers (log entry 1). -/
def Obligations.ResetState : Prop :=
  State.reset.canonical
  ∧ State.reset.mg.stage = 0 ∧ State.reset.mg.err = false ∧ State.reset.mg.step = 0 ∧ State.reset.mg.pwrlim = 2000
  ∧ State.reset.hub.work = [] ∧ State.reset.hub.gangs = [] ∧ State.reset.hub.agemax = 2000 ∧ State.reset.hub.fidNext = 1
  ∧ (∀ q, (State.reset.sq q).en = false)
  ∧ ∀ c, let x := State.reset.core c
    (∀ a, Memory.get x.mem a = 0) ∧ x.fe = [] ∧ (∀ k, k < 16 → vget x.ev k 1 = 0)
    ∧ (∀ k, k < 8 → vget x.acc k ⟨Vector.replicate 32 0, true, some 0⟩ = ⟨Vector.replicate 32 0, false, none⟩)
    ∧ (∀ e, e < 32 → vget x.ist e 0 = BitVec.ofNat 8 (0x80 + e % 16))
    ∧ (∀ i, i < 15 → (x.slot i).st = .idle) ∧ (x.slot 15).level = true ∧ (x.slot 15).pc = codePc Config.firmwareEntry
end

