-- ==== Sys2Proof/Laws/State.lean ====
section
/-! SUPPORT. What each update of the state leaves: one lemma for each field that it does not change. -/

namespace Sys2Proof.Machine

@[simp] theorem State.setCore_now (s : State) (c : Nat) (x : Core) : (s.setCore c x).now = s.now := rfl
@[simp] theorem State.setCore_turn (s : State) (c : Nat) (x : Core) : (s.setCore c x).turn = s.turn := rfl
@[simp] theorem State.setCore_early (s : State) (c : Nat) (x : Core) : (s.setCore c x).early = s.early := rfl
@[simp] theorem State.setCore_agenda (s : State) (c : Nat) (x : Core) : (s.setCore c x).agenda = s.agenda := rfl
@[simp] theorem State.setCore_cur (s : State) (c : Nat) (x : Core) : (s.setCore c x).cur = s.cur := rfl
@[simp] theorem State.setCore_nonce (s : State) (c : Nat) (x : Core) : (s.setCore c x).nonce = s.nonce := rfl
@[simp] theorem State.setCore_dieq (s : State) (c : Nat) (x : Core) : (s.setCore c x).dieq = s.dieq := rfl
@[simp] theorem State.setCore_hub (s : State) (c : Nat) (x : Core) : (s.setCore c x).hub = s.hub := rfl
@[simp] theorem State.setCore_hbm (s : State) (c : Nat) (x : Core) : (s.setCore c x).hbm = s.hbm := rfl
@[simp] theorem State.setCore_host (s : State) (c : Nat) (x : Core) : (s.setCore c x).host = s.host := rfl
@[simp] theorem State.setCore_mg (s : State) (c : Nat) (x : Core) : (s.setCore c x).mg = s.mg := rfl
@[simp] theorem State.modCore_now (s : State) (c : Nat) (f : Core → Core) : (s.modCore c f).now = s.now := rfl
@[simp] theorem State.modCore_turn (s : State) (c : Nat) (f : Core → Core) : (s.modCore c f).turn = s.turn := rfl
@[simp] theorem State.modCore_early (s : State) (c : Nat) (f : Core → Core) : (s.modCore c f).early = s.early := rfl
@[simp] theorem State.modCore_agenda (s : State) (c : Nat) (f : Core → Core) : (s.modCore c f).agenda = s.agenda := rfl
@[simp] theorem State.modCore_cur (s : State) (c : Nat) (f : Core → Core) : (s.modCore c f).cur = s.cur := rfl
@[simp] theorem State.modCore_nonce (s : State) (c : Nat) (f : Core → Core) : (s.modCore c f).nonce = s.nonce := rfl
@[simp] theorem State.modCore_dieq (s : State) (c : Nat) (f : Core → Core) : (s.modCore c f).dieq = s.dieq := rfl
@[simp] theorem State.modCore_hub (s : State) (c : Nat) (f : Core → Core) : (s.modCore c f).hub = s.hub := rfl
@[simp] theorem State.modCore_hbm (s : State) (c : Nat) (f : Core → Core) : (s.modCore c f).hbm = s.hbm := rfl
@[simp] theorem State.modCore_host (s : State) (c : Nat) (f : Core → Core) : (s.modCore c f).host = s.host := rfl
@[simp] theorem State.modCore_mg (s : State) (c : Nat) (f : Core → Core) : (s.modCore c f).mg = s.mg := rfl
@[simp] theorem State.setSlot_now (s : State) (c i : Nat) (t : Slot) : (s.setSlot c i t).now = s.now := rfl
@[simp] theorem State.setSlot_turn (s : State) (c i : Nat) (t : Slot) : (s.setSlot c i t).turn = s.turn := rfl
@[simp] theorem State.setSlot_early (s : State) (c i : Nat) (t : Slot) : (s.setSlot c i t).early = s.early := rfl
@[simp] theorem State.setSlot_agenda (s : State) (c i : Nat) (t : Slot) : (s.setSlot c i t).agenda = s.agenda := rfl
@[simp] theorem State.setSlot_cur (s : State) (c i : Nat) (t : Slot) : (s.setSlot c i t).cur = s.cur := rfl
@[simp] theorem State.setSlot_nonce (s : State) (c i : Nat) (t : Slot) : (s.setSlot c i t).nonce = s.nonce := rfl
@[simp] theorem State.setSlot_dieq (s : State) (c i : Nat) (t : Slot) : (s.setSlot c i t).dieq = s.dieq := rfl
@[simp] theorem State.setSlot_hub (s : State) (c i : Nat) (t : Slot) : (s.setSlot c i t).hub = s.hub := rfl
@[simp] theorem State.setSlot_hbm (s : State) (c i : Nat) (t : Slot) : (s.setSlot c i t).hbm = s.hbm := rfl
@[simp] theorem State.setSlot_host (s : State) (c i : Nat) (t : Slot) : (s.setSlot c i t).host = s.host := rfl
@[simp] theorem State.setSlot_mg (s : State) (c i : Nat) (t : Slot) : (s.setSlot c i t).mg = s.mg := rfl
@[simp] theorem State.modSlot_now (s : State) (c i : Nat) (f : Slot → Slot) : (s.modSlot c i f).now = s.now := rfl
@[simp] theorem State.modSlot_turn (s : State) (c i : Nat) (f : Slot → Slot) : (s.modSlot c i f).turn = s.turn := rfl
@[simp] theorem State.modSlot_early (s : State) (c i : Nat) (f : Slot → Slot) : (s.modSlot c i f).early = s.early := rfl
@[simp] theorem State.modSlot_agenda (s : State) (c i : Nat) (f : Slot → Slot) : (s.modSlot c i f).agenda = s.agenda := rfl
@[simp] theorem State.modSlot_cur (s : State) (c i : Nat) (f : Slot → Slot) : (s.modSlot c i f).cur = s.cur := rfl
@[simp] theorem State.modSlot_nonce (s : State) (c i : Nat) (f : Slot → Slot) : (s.modSlot c i f).nonce = s.nonce := rfl
@[simp] theorem State.modSlot_dieq (s : State) (c i : Nat) (f : Slot → Slot) : (s.modSlot c i f).dieq = s.dieq := rfl
@[simp] theorem State.modSlot_hub (s : State) (c i : Nat) (f : Slot → Slot) : (s.modSlot c i f).hub = s.hub := rfl
@[simp] theorem State.modSlot_hbm (s : State) (c i : Nat) (f : Slot → Slot) : (s.modSlot c i f).hbm = s.hbm := rfl
@[simp] theorem State.modSlot_host (s : State) (c i : Nat) (f : Slot → Slot) : (s.modSlot c i f).host = s.host := rfl
@[simp] theorem State.modSlot_mg (s : State) (c i : Nat) (f : Slot → Slot) : (s.modSlot c i f).mg = s.mg := rfl
@[simp] theorem State.modMe_now (s : State) (f : Slot → Slot) : (s.modMe f).now = s.now := rfl
@[simp] theorem State.modMe_turn (s : State) (f : Slot → Slot) : (s.modMe f).turn = s.turn := rfl
@[simp] theorem State.modMe_early (s : State) (f : Slot → Slot) : (s.modMe f).early = s.early := rfl
@[simp] theorem State.modMe_agenda (s : State) (f : Slot → Slot) : (s.modMe f).agenda = s.agenda := rfl
@[simp] theorem State.modMe_cur (s : State) (f : Slot → Slot) : (s.modMe f).cur = s.cur := rfl
@[simp] theorem State.modMe_nonce (s : State) (f : Slot → Slot) : (s.modMe f).nonce = s.nonce := rfl
@[simp] theorem State.modMe_dieq (s : State) (f : Slot → Slot) : (s.modMe f).dieq = s.dieq := rfl
@[simp] theorem State.modMe_hub (s : State) (f : Slot → Slot) : (s.modMe f).hub = s.hub := rfl
@[simp] theorem State.modMe_hbm (s : State) (f : Slot → Slot) : (s.modMe f).hbm = s.hbm := rfl
@[simp] theorem State.modMe_host (s : State) (f : Slot → Slot) : (s.modMe f).host = s.host := rfl
@[simp] theorem State.modMe_mg (s : State) (f : Slot → Slot) : (s.modMe f).mg = s.mg := rfl
@[simp] theorem State.modMy_now (s : State) (f : Core → Core) : (s.modMy f).now = s.now := rfl
@[simp] theorem State.modMy_turn (s : State) (f : Core → Core) : (s.modMy f).turn = s.turn := rfl
@[simp] theorem State.modMy_early (s : State) (f : Core → Core) : (s.modMy f).early = s.early := rfl
@[simp] theorem State.modMy_agenda (s : State) (f : Core → Core) : (s.modMy f).agenda = s.agenda := rfl
@[simp] theorem State.modMy_cur (s : State) (f : Core → Core) : (s.modMy f).cur = s.cur := rfl
@[simp] theorem State.modMy_nonce (s : State) (f : Core → Core) : (s.modMy f).nonce = s.nonce := rfl
@[simp] theorem State.modMy_dieq (s : State) (f : Core → Core) : (s.modMy f).dieq = s.dieq := rfl
@[simp] theorem State.modMy_hub (s : State) (f : Core → Core) : (s.modMy f).hub = s.hub := rfl
@[simp] theorem State.modMy_hbm (s : State) (f : Core → Core) : (s.modMy f).hbm = s.hbm := rfl
@[simp] theorem State.modMy_host (s : State) (f : Core → Core) : (s.modMy f).host = s.host := rfl
@[simp] theorem State.modMy_mg (s : State) (f : Core → Core) : (s.modMy f).mg = s.mg := rfl
@[simp] theorem State.ws_now (s : State) (a : Nat) (x : W64) : (s.ws a x).now = s.now := rfl
@[simp] theorem State.ws_turn (s : State) (a : Nat) (x : W64) : (s.ws a x).turn = s.turn := rfl
@[simp] theorem State.ws_early (s : State) (a : Nat) (x : W64) : (s.ws a x).early = s.early := rfl
@[simp] theorem State.ws_agenda (s : State) (a : Nat) (x : W64) : (s.ws a x).agenda = s.agenda := rfl
@[simp] theorem State.ws_cur (s : State) (a : Nat) (x : W64) : (s.ws a x).cur = s.cur := rfl
@[simp] theorem State.ws_nonce (s : State) (a : Nat) (x : W64) : (s.ws a x).nonce = s.nonce := rfl
@[simp] theorem State.ws_dieq (s : State) (a : Nat) (x : W64) : (s.ws a x).dieq = s.dieq := rfl
@[simp] theorem State.ws_hub (s : State) (a : Nat) (x : W64) : (s.ws a x).hub = s.hub := rfl
@[simp] theorem State.ws_hbm (s : State) (a : Nat) (x : W64) : (s.ws a x).hbm = s.hbm := rfl
@[simp] theorem State.ws_host (s : State) (a : Nat) (x : W64) : (s.ws a x).host = s.host := rfl
@[simp] theorem State.ws_mg (s : State) (a : Nat) (x : W64) : (s.ws a x).mg = s.mg := rfl
@[simp] theorem State.wp_now (s : State) (k : Nat) (b : Bool) : (s.wp k b).now = s.now := rfl
@[simp] theorem State.wp_turn (s : State) (k : Nat) (b : Bool) : (s.wp k b).turn = s.turn := rfl
@[simp] theorem State.wp_early (s : State) (k : Nat) (b : Bool) : (s.wp k b).early = s.early := rfl
@[simp] theorem State.wp_agenda (s : State) (k : Nat) (b : Bool) : (s.wp k b).agenda = s.agenda := rfl
@[simp] theorem State.wp_cur (s : State) (k : Nat) (b : Bool) : (s.wp k b).cur = s.cur := rfl
@[simp] theorem State.wp_nonce (s : State) (k : Nat) (b : Bool) : (s.wp k b).nonce = s.nonce := rfl
@[simp] theorem State.wp_dieq (s : State) (k : Nat) (b : Bool) : (s.wp k b).dieq = s.dieq := rfl
@[simp] theorem State.wp_hub (s : State) (k : Nat) (b : Bool) : (s.wp k b).hub = s.hub := rfl
@[simp] theorem State.wp_hbm (s : State) (k : Nat) (b : Bool) : (s.wp k b).hbm = s.hbm := rfl
@[simp] theorem State.wp_host (s : State) (k : Nat) (b : Bool) : (s.wp k b).host = s.host := rfl
@[simp] theorem State.wp_mg (s : State) (k : Nat) (b : Bool) : (s.wp k b).mg = s.mg := rfl
@[simp] theorem State.wm_now (s : State) (k : Nat) (x : W32) : (s.wm k x).now = s.now := rfl
@[simp] theorem State.wm_turn (s : State) (k : Nat) (x : W32) : (s.wm k x).turn = s.turn := rfl
@[simp] theorem State.wm_early (s : State) (k : Nat) (x : W32) : (s.wm k x).early = s.early := rfl
@[simp] theorem State.wm_agenda (s : State) (k : Nat) (x : W32) : (s.wm k x).agenda = s.agenda := rfl
@[simp] theorem State.wm_cur (s : State) (k : Nat) (x : W32) : (s.wm k x).cur = s.cur := rfl
@[simp] theorem State.wm_nonce (s : State) (k : Nat) (x : W32) : (s.wm k x).nonce = s.nonce := rfl
@[simp] theorem State.wm_dieq (s : State) (k : Nat) (x : W32) : (s.wm k x).dieq = s.dieq := rfl
@[simp] theorem State.wm_hub (s : State) (k : Nat) (x : W32) : (s.wm k x).hub = s.hub := rfl
@[simp] theorem State.wm_hbm (s : State) (k : Nat) (x : W32) : (s.wm k x).hbm = s.hbm := rfl
@[simp] theorem State.wm_host (s : State) (k : Nat) (x : W32) : (s.wm k x).host = s.host := rfl
@[simp] theorem State.wm_mg (s : State) (k : Nat) (x : W32) : (s.wm k x).mg = s.mg := rfl
@[simp] theorem State.wv_now (s : State) (k : Nat) (x : VReg) : (s.wv k x).now = s.now := rfl
@[simp] theorem State.wv_turn (s : State) (k : Nat) (x : VReg) : (s.wv k x).turn = s.turn := rfl
@[simp] theorem State.wv_early (s : State) (k : Nat) (x : VReg) : (s.wv k x).early = s.early := rfl
@[simp] theorem State.wv_agenda (s : State) (k : Nat) (x : VReg) : (s.wv k x).agenda = s.agenda := rfl
@[simp] theorem State.wv_cur (s : State) (k : Nat) (x : VReg) : (s.wv k x).cur = s.cur := rfl
@[simp] theorem State.wv_nonce (s : State) (k : Nat) (x : VReg) : (s.wv k x).nonce = s.nonce := rfl
@[simp] theorem State.wv_dieq (s : State) (k : Nat) (x : VReg) : (s.wv k x).dieq = s.dieq := rfl
@[simp] theorem State.wv_hub (s : State) (k : Nat) (x : VReg) : (s.wv k x).hub = s.hub := rfl
@[simp] theorem State.wv_hbm (s : State) (k : Nat) (x : VReg) : (s.wv k x).hbm = s.hbm := rfl
@[simp] theorem State.wv_host (s : State) (k : Nat) (x : VReg) : (s.wv k x).host = s.host := rfl
@[simp] theorem State.wv_mg (s : State) (k : Nat) (x : VReg) : (s.wv k x).mg = s.mg := rfl
@[simp] theorem State.await_now (s : State) (st : SlotSt) (h : Held) : (s.await st h).now = s.now := rfl
@[simp] theorem State.await_turn (s : State) (st : SlotSt) (h : Held) : (s.await st h).turn = s.turn := rfl
@[simp] theorem State.await_early (s : State) (st : SlotSt) (h : Held) : (s.await st h).early = s.early := rfl
@[simp] theorem State.await_agenda (s : State) (st : SlotSt) (h : Held) : (s.await st h).agenda = s.agenda := rfl
@[simp] theorem State.await_cur (s : State) (st : SlotSt) (h : Held) : (s.await st h).cur = s.cur := rfl
@[simp] theorem State.await_nonce (s : State) (st : SlotSt) (h : Held) : (s.await st h).nonce = s.nonce := rfl
@[simp] theorem State.await_dieq (s : State) (st : SlotSt) (h : Held) : (s.await st h).dieq = s.dieq := rfl
@[simp] theorem State.await_hub (s : State) (st : SlotSt) (h : Held) : (s.await st h).hub = s.hub := rfl
@[simp] theorem State.await_hbm (s : State) (st : SlotSt) (h : Held) : (s.await st h).hbm = s.hbm := rfl
@[simp] theorem State.await_host (s : State) (st : SlotSt) (h : Held) : (s.await st h).host = s.host := rfl
@[simp] theorem State.await_mg (s : State) (st : SlotSt) (h : Held) : (s.await st h).mg = s.mg := rfl
@[simp] theorem State.issued_now (s : State) : (s.issued).now = s.now := rfl
@[simp] theorem State.issued_turn (s : State) : (s.issued).turn = s.turn := rfl
@[simp] theorem State.issued_early (s : State) : (s.issued).early = s.early := rfl
@[simp] theorem State.issued_agenda (s : State) : (s.issued).agenda = s.agenda := rfl
@[simp] theorem State.issued_cur (s : State) : (s.issued).cur = s.cur := rfl
@[simp] theorem State.issued_nonce (s : State) : (s.issued).nonce = s.nonce := rfl
@[simp] theorem State.issued_dieq (s : State) : (s.issued).dieq = s.dieq := rfl
@[simp] theorem State.issued_hub (s : State) : (s.issued).hub = s.hub := rfl
@[simp] theorem State.issued_hbm (s : State) : (s.issued).hbm = s.hbm := rfl
@[simp] theorem State.issued_host (s : State) : (s.issued).host = s.host := rfl
@[simp] theorem State.issued_mg (s : State) : (s.issued).mg = s.mg := rfl
@[simp] theorem State.after_now (s : State) (d : Nat) (e : Event) : (s.after d e).now = s.now := rfl
@[simp] theorem State.after_turn (s : State) (d : Nat) (e : Event) : (s.after d e).turn = s.turn := rfl
@[simp] theorem State.after_early (s : State) (d : Nat) (e : Event) : (s.after d e).early = s.early := rfl
@[simp] theorem State.after_cur (s : State) (d : Nat) (e : Event) : (s.after d e).cur = s.cur := rfl
@[simp] theorem State.after_nonce (s : State) (d : Nat) (e : Event) : (s.after d e).nonce = s.nonce := rfl
@[simp] theorem State.after_cores (s : State) (d : Nat) (e : Event) : (s.after d e).cores = s.cores := rfl
@[simp] theorem State.after_dieq (s : State) (d : Nat) (e : Event) : (s.after d e).dieq = s.dieq := rfl
@[simp] theorem State.after_hub (s : State) (d : Nat) (e : Event) : (s.after d e).hub = s.hub := rfl
@[simp] theorem State.after_hbm (s : State) (d : Nat) (e : Event) : (s.after d e).hbm = s.hbm := rfl
@[simp] theorem State.after_host (s : State) (d : Nat) (e : Event) : (s.after d e).host = s.host := rfl
@[simp] theorem State.after_mg (s : State) (d : Nat) (e : Event) : (s.after d e).mg = s.mg := rfl
@[simp] theorem State.lose_now (s : State) (c : Nat) : (s.lose c).now = s.now := rfl
@[simp] theorem State.lose_turn (s : State) (c : Nat) : (s.lose c).turn = s.turn := rfl
@[simp] theorem State.lose_early (s : State) (c : Nat) : (s.lose c).early = s.early := rfl
@[simp] theorem State.lose_agenda (s : State) (c : Nat) : (s.lose c).agenda = s.agenda := rfl
@[simp] theorem State.lose_cur (s : State) (c : Nat) : (s.lose c).cur = s.cur := rfl
@[simp] theorem State.lose_nonce (s : State) (c : Nat) : (s.lose c).nonce = s.nonce := rfl
@[simp] theorem State.lose_dieq (s : State) (c : Nat) : (s.lose c).dieq = s.dieq := rfl
@[simp] theorem State.lose_hub (s : State) (c : Nat) : (s.lose c).hub = s.hub := rfl
@[simp] theorem State.lose_hbm (s : State) (c : Nat) : (s.lose c).hbm = s.hbm := rfl
@[simp] theorem State.lose_host (s : State) (c : Nat) : (s.lose c).host = s.host := rfl
@[simp] theorem State.lose_mg (s : State) (c : Nat) : (s.lose c).mg = s.mg := rfl
@[simp] theorem State.holdSeq_now (s : State) (c : Nat) : (s.holdSeq c).now = s.now := rfl
@[simp] theorem State.holdSeq_turn (s : State) (c : Nat) : (s.holdSeq c).turn = s.turn := rfl
@[simp] theorem State.holdSeq_early (s : State) (c : Nat) : (s.holdSeq c).early = s.early := rfl
@[simp] theorem State.holdSeq_agenda (s : State) (c : Nat) : (s.holdSeq c).agenda = s.agenda := rfl
@[simp] theorem State.holdSeq_cur (s : State) (c : Nat) : (s.holdSeq c).cur = s.cur := rfl
@[simp] theorem State.holdSeq_nonce (s : State) (c : Nat) : (s.holdSeq c).nonce = s.nonce := rfl
@[simp] theorem State.holdSeq_dieq (s : State) (c : Nat) : (s.holdSeq c).dieq = s.dieq := rfl
@[simp] theorem State.holdSeq_hub (s : State) (c : Nat) : (s.holdSeq c).hub = s.hub := rfl
@[simp] theorem State.holdSeq_hbm (s : State) (c : Nat) : (s.holdSeq c).hbm = s.hbm := rfl
@[simp] theorem State.holdSeq_host (s : State) (c : Nat) : (s.holdSeq c).host = s.host := rfl
@[simp] theorem State.holdSeq_mg (s : State) (c : Nat) : (s.holdSeq c).mg = s.mg := rfl
@[simp] theorem Core.setSlot_mem (x : Core) (i : Nat) (t : Slot) : (x.setSlot i t).mem = x.mem := rfl
@[simp] theorem Core.setSlot_fe (x : Core) (i : Nat) (t : Slot) : (x.setSlot i t).fe = x.fe := rfl
@[simp] theorem Core.setSlot_err1 (x : Core) (i : Nat) (t : Slot) : (x.setSlot i t).err1 = x.err1 := rfl
@[simp] theorem Core.setSlot_err2 (x : Core) (i : Nat) (t : Slot) : (x.setSlot i t).err2 = x.err2 := rfl
@[simp] theorem Core.setSlot_k (x : Core) (i : Nat) (t : Slot) : (x.setSlot i t).k = x.k := rfl
@[simp] theorem Core.setSlot_ev (x : Core) (i : Nat) (t : Slot) : (x.setSlot i t).ev = x.ev := rfl
@[simp] theorem Core.setSlot_acc (x : Core) (i : Nat) (t : Slot) : (x.setSlot i t).acc = x.acc := rfl
@[simp] theorem Core.setSlot_ring (x : Core) (i : Nat) (t : Slot) : (x.setSlot i t).ring = x.ring := rfl
@[simp] theorem Core.setSlot_cx (x : Core) (i : Nat) (t : Slot) : (x.setSlot i t).cx = x.cx := rfl
@[simp] theorem Core.setSlot_mx (x : Core) (i : Nat) (t : Slot) : (x.setSlot i t).mx = x.mx := rfl
@[simp] theorem Core.setSlot_seqr (x : Core) (i : Nat) (t : Slot) : (x.setSlot i t).seqr = x.seqr := rfl
@[simp] theorem Core.setSlot_div (x : Core) (i : Nat) (t : Slot) : (x.setSlot i t).div = x.div := rfl
@[simp] theorem Core.setSlot_divEnd (x : Core) (i : Nat) (t : Slot) : (x.setSlot i t).divEnd = x.divEnd := rfl
@[simp] theorem Core.setSlot_scan (x : Core) (i : Nat) (t : Slot) : (x.setSlot i t).scan = x.scan := rfl
@[simp] theorem Core.setSlot_cq (x : Core) (i : Nat) (t : Slot) : (x.setSlot i t).cq = x.cq := rfl
@[simp] theorem Core.setSlot_su (x : Core) (i : Nat) (t : Slot) : (x.setSlot i t).su = x.su := rfl
@[simp] theorem Core.setSlot_port (x : Core) (i : Nat) (t : Slot) : (x.setSlot i t).port = x.port := rfl
@[simp] theorem Core.setSlot_pipe (x : Core) (i : Nat) (t : Slot) : (x.setSlot i t).pipe = x.pipe := rfl
@[simp] theorem Core.setSlot_dq (x : Core) (i : Nat) (t : Slot) : (x.setSlot i t).dq = x.dq := rfl
@[simp] theorem Core.setSlot_owed (x : Core) (i : Nat) (t : Slot) : (x.setSlot i t).owed = x.owed := rfl
@[simp] theorem Core.setSlot_feWait (x : Core) (i : Nat) (t : Slot) : (x.setSlot i t).feWait = x.feWait := rfl
@[simp] theorem Core.setSlot_snaps (x : Core) (i : Nat) (t : Slot) : (x.setSlot i t).snaps = x.snaps := rfl
@[simp] theorem Core.setSlot_ist (x : Core) (i : Nat) (t : Slot) : (x.setSlot i t).ist = x.ist := rfl
@[simp] theorem Core.setSlot_istNext (x : Core) (i : Nat) (t : Slot) : (x.setSlot i t).istNext = x.istNext := rfl
@[simp] theorem Core.setSlot_istBar (x : Core) (i : Nat) (t : Slot) : (x.setSlot i t).istBar = x.istBar := rfl
@[simp] theorem Core.setSlot_banked (x : Core) (i : Nat) (t : Slot) : (x.setSlot i t).banked = x.banked := rfl
@[simp] theorem Core.setSlot_restart (x : Core) (i : Nat) (t : Slot) : (x.setSlot i t).restart = x.restart := rfl
@[simp] theorem Core.setSlot_busy (x : Core) (i : Nat) (t : Slot) : (x.setSlot i t).busy = x.busy := rfl
@[simp] theorem Core.setSlot_netq (x : Core) (i : Nat) (t : Slot) : (x.setSlot i t).netq = x.netq := rfl
@[simp] theorem Core.setSlot_amq (x : Core) (i : Nat) (t : Slot) : (x.setSlot i t).amq = x.amq := rfl
@[simp] theorem Core.setSlot_trapq (x : Core) (i : Nat) (t : Slot) : (x.setSlot i t).trapq = x.trapq := rfl
@[simp] theorem Core.setSlot_gang (x : Core) (i : Nat) (t : Slot) : (x.setSlot i t).gang = x.gang := rfl
@[simp] theorem Core.setSlot_rank (x : Core) (i : Nat) (t : Slot) : (x.setSlot i t).rank = x.rank := rfl
@[simp] theorem Core.setSlot_gsize (x : Core) (i : Nat) (t : Slot) : (x.setSlot i t).gsize = x.gsize := rfl
@[simp] theorem Core.setSlot_psize (x : Core) (i : Nat) (t : Slot) : (x.setSlot i t).psize = x.psize := rfl
@[simp] theorem Core.setSlot_stage (x : Core) (i : Nat) (t : Slot) : (x.setSlot i t).stage = x.stage := rfl
@[simp] theorem Core.setSlot_pin (x : Core) (i : Nat) (t : Slot) : (x.setSlot i t).pin = x.pin := rfl
@[simp] theorem Core.setSlot_hand (x : Core) (i : Nat) (t : Slot) : (x.setSlot i t).hand = x.hand := rfl
@[simp] theorem Core.setSlot_preempt (x : Core) (i : Nat) (t : Slot) : (x.setSlot i t).preempt = x.preempt := rfl
@[simp] theorem Core.setSlot_woken (x : Core) (i : Nat) (t : Slot) : (x.setSlot i t).woken = x.woken := rfl
@[simp] theorem Core.setSlot_flags (x : Core) (i : Nat) (t : Slot) : (x.setSlot i t).flags = x.flags := rfl
@[simp] theorem Core.setSlot_zeroed (x : Core) (i : Nat) (t : Slot) : (x.setSlot i t).zeroed = x.zeroed := rfl
@[simp] theorem Core.setSlot_pushWait (x : Core) (i : Nat) (t : Slot) : (x.setSlot i t).pushWait = x.pushWait := rfl
@[simp] theorem Core.setSlot_taken (x : Core) (i : Nat) (t : Slot) : (x.setSlot i t).taken = x.taken := rfl
@[simp] theorem Core.setSlot_engaged (x : Core) (i : Nat) (t : Slot) : (x.setSlot i t).engaged = x.engaged := rfl
@[simp] theorem Core.setSlot_scrub (x : Core) (i : Nat) (t : Slot) : (x.setSlot i t).scrub = x.scrub := rfl
@[simp] theorem Core.setSlot_scrubAt (x : Core) (i : Nat) (t : Slot) : (x.setSlot i t).scrubAt = x.scrubAt := rfl
@[simp] theorem Core.wr_fe (x : Core) (a n v : Nat) : (x.wr a n v).fe = x.fe := rfl
@[simp] theorem Core.wr_k (x : Core) (a n v : Nat) : (x.wr a n v).k = x.k := rfl
@[simp] theorem Core.wr_ev (x : Core) (a n v : Nat) : (x.wr a n v).ev = x.ev := rfl
@[simp] theorem Core.wr_slots (x : Core) (a n v : Nat) : (x.wr a n v).slots = x.slots := rfl
@[simp] theorem Core.wr_acc (x : Core) (a n v : Nat) : (x.wr a n v).acc = x.acc := rfl
@[simp] theorem Core.wr_ring (x : Core) (a n v : Nat) : (x.wr a n v).ring = x.ring := rfl
@[simp] theorem Core.wr_cx (x : Core) (a n v : Nat) : (x.wr a n v).cx = x.cx := rfl
@[simp] theorem Core.wr_mx (x : Core) (a n v : Nat) : (x.wr a n v).mx = x.mx := rfl
@[simp] theorem Core.wr_seqr (x : Core) (a n v : Nat) : (x.wr a n v).seqr = x.seqr := rfl
@[simp] theorem Core.wr_div (x : Core) (a n v : Nat) : (x.wr a n v).div = x.div := rfl
@[simp] theorem Core.wr_divEnd (x : Core) (a n v : Nat) : (x.wr a n v).divEnd = x.divEnd := rfl
@[simp] theorem Core.wr_scan (x : Core) (a n v : Nat) : (x.wr a n v).scan = x.scan := rfl
@[simp] theorem Core.wr_cq (x : Core) (a n v : Nat) : (x.wr a n v).cq = x.cq := rfl
@[simp] theorem Core.wr_su (x : Core) (a n v : Nat) : (x.wr a n v).su = x.su := rfl
@[simp] theorem Core.wr_port (x : Core) (a n v : Nat) : (x.wr a n v).port = x.port := rfl
@[simp] theorem Core.wr_pipe (x : Core) (a n v : Nat) : (x.wr a n v).pipe = x.pipe := rfl
@[simp] theorem Core.wr_dq (x : Core) (a n v : Nat) : (x.wr a n v).dq = x.dq := rfl
@[simp] theorem Core.wr_owed (x : Core) (a n v : Nat) : (x.wr a n v).owed = x.owed := rfl
@[simp] theorem Core.wr_feWait (x : Core) (a n v : Nat) : (x.wr a n v).feWait = x.feWait := rfl
@[simp] theorem Core.wr_snaps (x : Core) (a n v : Nat) : (x.wr a n v).snaps = x.snaps := rfl
@[simp] theorem Core.wr_ist (x : Core) (a n v : Nat) : (x.wr a n v).ist = x.ist := rfl
@[simp] theorem Core.wr_istNext (x : Core) (a n v : Nat) : (x.wr a n v).istNext = x.istNext := rfl
@[simp] theorem Core.wr_istBar (x : Core) (a n v : Nat) : (x.wr a n v).istBar = x.istBar := rfl
@[simp] theorem Core.wr_banked (x : Core) (a n v : Nat) : (x.wr a n v).banked = x.banked := rfl
@[simp] theorem Core.wr_restart (x : Core) (a n v : Nat) : (x.wr a n v).restart = x.restart := rfl
@[simp] theorem Core.wr_busy (x : Core) (a n v : Nat) : (x.wr a n v).busy = x.busy := rfl
@[simp] theorem Core.wr_netq (x : Core) (a n v : Nat) : (x.wr a n v).netq = x.netq := rfl
@[simp] theorem Core.wr_amq (x : Core) (a n v : Nat) : (x.wr a n v).amq = x.amq := rfl
@[simp] theorem Core.wr_trapq (x : Core) (a n v : Nat) : (x.wr a n v).trapq = x.trapq := rfl
@[simp] theorem Core.wr_gang (x : Core) (a n v : Nat) : (x.wr a n v).gang = x.gang := rfl
@[simp] theorem Core.wr_rank (x : Core) (a n v : Nat) : (x.wr a n v).rank = x.rank := rfl
@[simp] theorem Core.wr_gsize (x : Core) (a n v : Nat) : (x.wr a n v).gsize = x.gsize := rfl
@[simp] theorem Core.wr_psize (x : Core) (a n v : Nat) : (x.wr a n v).psize = x.psize := rfl
@[simp] theorem Core.wr_stage (x : Core) (a n v : Nat) : (x.wr a n v).stage = x.stage := rfl
@[simp] theorem Core.wr_pin (x : Core) (a n v : Nat) : (x.wr a n v).pin = x.pin := rfl
@[simp] theorem Core.wr_hand (x : Core) (a n v : Nat) : (x.wr a n v).hand = x.hand := rfl
@[simp] theorem Core.wr_preempt (x : Core) (a n v : Nat) : (x.wr a n v).preempt = x.preempt := rfl
@[simp] theorem Core.wr_woken (x : Core) (a n v : Nat) : (x.wr a n v).woken = x.woken := rfl
@[simp] theorem Core.wr_flags (x : Core) (a n v : Nat) : (x.wr a n v).flags = x.flags := rfl
@[simp] theorem Core.wr_zeroed (x : Core) (a n v : Nat) : (x.wr a n v).zeroed = x.zeroed := rfl
@[simp] theorem Core.wr_pushWait (x : Core) (a n v : Nat) : (x.wr a n v).pushWait = x.pushWait := rfl
@[simp] theorem Core.wr_taken (x : Core) (a n v : Nat) : (x.wr a n v).taken = x.taken := rfl
@[simp] theorem Core.wr_engaged (x : Core) (a n v : Nat) : (x.wr a n v).engaged = x.engaged := rfl
@[simp] theorem Core.wr_scrub (x : Core) (a n v : Nat) : (x.wr a n v).scrub = x.scrub := rfl
@[simp] theorem Core.wr_scrubAt (x : Core) (a n v : Nat) : (x.wr a n v).scrubAt = x.scrubAt := rfl
@[simp] theorem Core.setFe_mem (x : Core) (a : Nat) (b : Bool) : (x.setFe a b).mem = x.mem := rfl
@[simp] theorem Core.setFe_err1 (x : Core) (a : Nat) (b : Bool) : (x.setFe a b).err1 = x.err1 := rfl
@[simp] theorem Core.setFe_err2 (x : Core) (a : Nat) (b : Bool) : (x.setFe a b).err2 = x.err2 := rfl
@[simp] theorem Core.setFe_k (x : Core) (a : Nat) (b : Bool) : (x.setFe a b).k = x.k := rfl
@[simp] theorem Core.setFe_ev (x : Core) (a : Nat) (b : Bool) : (x.setFe a b).ev = x.ev := rfl
@[simp] theorem Core.setFe_slots (x : Core) (a : Nat) (b : Bool) : (x.setFe a b).slots = x.slots := rfl
@[simp] theorem Core.setFe_acc (x : Core) (a : Nat) (b : Bool) : (x.setFe a b).acc = x.acc := rfl
@[simp] theorem Core.setFe_ring (x : Core) (a : Nat) (b : Bool) : (x.setFe a b).ring = x.ring := rfl
@[simp] theorem Core.setFe_cx (x : Core) (a : Nat) (b : Bool) : (x.setFe a b).cx = x.cx := rfl
@[simp] theorem Core.setFe_mx (x : Core) (a : Nat) (b : Bool) : (x.setFe a b).mx = x.mx := rfl
@[simp] theorem Core.setFe_seqr (x : Core) (a : Nat) (b : Bool) : (x.setFe a b).seqr = x.seqr := rfl
@[simp] theorem Core.setFe_div (x : Core) (a : Nat) (b : Bool) : (x.setFe a b).div = x.div := rfl
@[simp] theorem Core.setFe_divEnd (x : Core) (a : Nat) (b : Bool) : (x.setFe a b).divEnd = x.divEnd := rfl
@[simp] theorem Core.setFe_scan (x : Core) (a : Nat) (b : Bool) : (x.setFe a b).scan = x.scan := rfl
@[simp] theorem Core.setFe_cq (x : Core) (a : Nat) (b : Bool) : (x.setFe a b).cq = x.cq := rfl
@[simp] theorem Core.setFe_su (x : Core) (a : Nat) (b : Bool) : (x.setFe a b).su = x.su := rfl
@[simp] theorem Core.setFe_port (x : Core) (a : Nat) (b : Bool) : (x.setFe a b).port = x.port := rfl
@[simp] theorem Core.setFe_pipe (x : Core) (a : Nat) (b : Bool) : (x.setFe a b).pipe = x.pipe := rfl
@[simp] theorem Core.setFe_dq (x : Core) (a : Nat) (b : Bool) : (x.setFe a b).dq = x.dq := rfl
@[simp] theorem Core.setFe_owed (x : Core) (a : Nat) (b : Bool) : (x.setFe a b).owed = x.owed := rfl
@[simp] theorem Core.setFe_feWait (x : Core) (a : Nat) (b : Bool) : (x.setFe a b).feWait = x.feWait := rfl
@[simp] theorem Core.setFe_snaps (x : Core) (a : Nat) (b : Bool) : (x.setFe a b).snaps = x.snaps := rfl
@[simp] theorem Core.setFe_ist (x : Core) (a : Nat) (b : Bool) : (x.setFe a b).ist = x.ist := rfl
@[simp] theorem Core.setFe_istNext (x : Core) (a : Nat) (b : Bool) : (x.setFe a b).istNext = x.istNext := rfl
@[simp] theorem Core.setFe_istBar (x : Core) (a : Nat) (b : Bool) : (x.setFe a b).istBar = x.istBar := rfl
@[simp] theorem Core.setFe_banked (x : Core) (a : Nat) (b : Bool) : (x.setFe a b).banked = x.banked := rfl
@[simp] theorem Core.setFe_restart (x : Core) (a : Nat) (b : Bool) : (x.setFe a b).restart = x.restart := rfl
@[simp] theorem Core.setFe_busy (x : Core) (a : Nat) (b : Bool) : (x.setFe a b).busy = x.busy := rfl
@[simp] theorem Core.setFe_netq (x : Core) (a : Nat) (b : Bool) : (x.setFe a b).netq = x.netq := rfl
@[simp] theorem Core.setFe_amq (x : Core) (a : Nat) (b : Bool) : (x.setFe a b).amq = x.amq := rfl
@[simp] theorem Core.setFe_trapq (x : Core) (a : Nat) (b : Bool) : (x.setFe a b).trapq = x.trapq := rfl
@[simp] theorem Core.setFe_gang (x : Core) (a : Nat) (b : Bool) : (x.setFe a b).gang = x.gang := rfl
@[simp] theorem Core.setFe_rank (x : Core) (a : Nat) (b : Bool) : (x.setFe a b).rank = x.rank := rfl
@[simp] theorem Core.setFe_gsize (x : Core) (a : Nat) (b : Bool) : (x.setFe a b).gsize = x.gsize := rfl
@[simp] theorem Core.setFe_psize (x : Core) (a : Nat) (b : Bool) : (x.setFe a b).psize = x.psize := rfl
@[simp] theorem Core.setFe_stage (x : Core) (a : Nat) (b : Bool) : (x.setFe a b).stage = x.stage := rfl
@[simp] theorem Core.setFe_pin (x : Core) (a : Nat) (b : Bool) : (x.setFe a b).pin = x.pin := rfl
@[simp] theorem Core.setFe_hand (x : Core) (a : Nat) (b : Bool) : (x.setFe a b).hand = x.hand := rfl
@[simp] theorem Core.setFe_preempt (x : Core) (a : Nat) (b : Bool) : (x.setFe a b).preempt = x.preempt := rfl
@[simp] theorem Core.setFe_woken (x : Core) (a : Nat) (b : Bool) : (x.setFe a b).woken = x.woken := rfl
@[simp] theorem Core.setFe_flags (x : Core) (a : Nat) (b : Bool) : (x.setFe a b).flags = x.flags := rfl
@[simp] theorem Core.setFe_zeroed (x : Core) (a : Nat) (b : Bool) : (x.setFe a b).zeroed = x.zeroed := rfl
@[simp] theorem Core.setFe_pushWait (x : Core) (a : Nat) (b : Bool) : (x.setFe a b).pushWait = x.pushWait := rfl
@[simp] theorem Core.setFe_taken (x : Core) (a : Nat) (b : Bool) : (x.setFe a b).taken = x.taken := rfl
@[simp] theorem Core.setFe_engaged (x : Core) (a : Nat) (b : Bool) : (x.setFe a b).engaged = x.engaged := rfl
@[simp] theorem Core.setFe_scrub (x : Core) (a : Nat) (b : Bool) : (x.setFe a b).scrub = x.scrub := rfl
@[simp] theorem Core.setFe_scrubAt (x : Core) (a : Nat) (b : Bool) : (x.setFe a b).scrubAt = x.scrubAt := rfl
@[simp] theorem Core.engWr_k (x : Core) (a n v : Nat) : (x.engWr a n v).k = x.k := rfl
@[simp] theorem Core.engWr_ev (x : Core) (a n v : Nat) : (x.engWr a n v).ev = x.ev := rfl
@[simp] theorem Core.engWr_slots (x : Core) (a n v : Nat) : (x.engWr a n v).slots = x.slots := rfl
@[simp] theorem Core.engWr_acc (x : Core) (a n v : Nat) : (x.engWr a n v).acc = x.acc := rfl
@[simp] theorem Core.engWr_ring (x : Core) (a n v : Nat) : (x.engWr a n v).ring = x.ring := rfl
@[simp] theorem Core.engWr_cx (x : Core) (a n v : Nat) : (x.engWr a n v).cx = x.cx := rfl
@[simp] theorem Core.engWr_mx (x : Core) (a n v : Nat) : (x.engWr a n v).mx = x.mx := rfl
@[simp] theorem Core.engWr_seqr (x : Core) (a n v : Nat) : (x.engWr a n v).seqr = x.seqr := rfl
@[simp] theorem Core.engWr_div (x : Core) (a n v : Nat) : (x.engWr a n v).div = x.div := rfl
@[simp] theorem Core.engWr_divEnd (x : Core) (a n v : Nat) : (x.engWr a n v).divEnd = x.divEnd := rfl
@[simp] theorem Core.engWr_scan (x : Core) (a n v : Nat) : (x.engWr a n v).scan = x.scan := rfl
@[simp] theorem Core.engWr_cq (x : Core) (a n v : Nat) : (x.engWr a n v).cq = x.cq := rfl
@[simp] theorem Core.engWr_su (x : Core) (a n v : Nat) : (x.engWr a n v).su = x.su := rfl
@[simp] theorem Core.engWr_port (x : Core) (a n v : Nat) : (x.engWr a n v).port = x.port := rfl
@[simp] theorem Core.engWr_pipe (x : Core) (a n v : Nat) : (x.engWr a n v).pipe = x.pipe := rfl
@[simp] theorem Core.engWr_dq (x : Core) (a n v : Nat) : (x.engWr a n v).dq = x.dq := rfl
@[simp] theorem Core.engWr_owed (x : Core) (a n v : Nat) : (x.engWr a n v).owed = x.owed := rfl
@[simp] theorem Core.engWr_feWait (x : Core) (a n v : Nat) : (x.engWr a n v).feWait = x.feWait := rfl
@[simp] theorem Core.engWr_snaps (x : Core) (a n v : Nat) : (x.engWr a n v).snaps = x.snaps := rfl
@[simp] theorem Core.engWr_ist (x : Core) (a n v : Nat) : (x.engWr a n v).ist = x.ist := rfl
@[simp] theorem Core.engWr_istNext (x : Core) (a n v : Nat) : (x.engWr a n v).istNext = x.istNext := rfl
@[simp] theorem Core.engWr_istBar (x : Core) (a n v : Nat) : (x.engWr a n v).istBar = x.istBar := rfl
@[simp] theorem Core.engWr_banked (x : Core) (a n v : Nat) : (x.engWr a n v).banked = x.banked := rfl
@[simp] theorem Core.engWr_restart (x : Core) (a n v : Nat) : (x.engWr a n v).restart = x.restart := rfl
@[simp] theorem Core.engWr_busy (x : Core) (a n v : Nat) : (x.engWr a n v).busy = x.busy := rfl
@[simp] theorem Core.engWr_netq (x : Core) (a n v : Nat) : (x.engWr a n v).netq = x.netq := rfl
@[simp] theorem Core.engWr_amq (x : Core) (a n v : Nat) : (x.engWr a n v).amq = x.amq := rfl
@[simp] theorem Core.engWr_trapq (x : Core) (a n v : Nat) : (x.engWr a n v).trapq = x.trapq := rfl
@[simp] theorem Core.engWr_gang (x : Core) (a n v : Nat) : (x.engWr a n v).gang = x.gang := rfl
@[simp] theorem Core.engWr_rank (x : Core) (a n v : Nat) : (x.engWr a n v).rank = x.rank := rfl
@[simp] theorem Core.engWr_gsize (x : Core) (a n v : Nat) : (x.engWr a n v).gsize = x.gsize := rfl
@[simp] theorem Core.engWr_psize (x : Core) (a n v : Nat) : (x.engWr a n v).psize = x.psize := rfl
@[simp] theorem Core.engWr_stage (x : Core) (a n v : Nat) : (x.engWr a n v).stage = x.stage := rfl
@[simp] theorem Core.engWr_pin (x : Core) (a n v : Nat) : (x.engWr a n v).pin = x.pin := rfl
@[simp] theorem Core.engWr_hand (x : Core) (a n v : Nat) : (x.engWr a n v).hand = x.hand := rfl
@[simp] theorem Core.engWr_preempt (x : Core) (a n v : Nat) : (x.engWr a n v).preempt = x.preempt := rfl
@[simp] theorem Core.engWr_woken (x : Core) (a n v : Nat) : (x.engWr a n v).woken = x.woken := rfl
@[simp] theorem Core.engWr_flags (x : Core) (a n v : Nat) : (x.engWr a n v).flags = x.flags := rfl
@[simp] theorem Core.engWr_zeroed (x : Core) (a n v : Nat) : (x.engWr a n v).zeroed = x.zeroed := rfl
@[simp] theorem Core.engWr_pushWait (x : Core) (a n v : Nat) : (x.engWr a n v).pushWait = x.pushWait := rfl
@[simp] theorem Core.engWr_taken (x : Core) (a n v : Nat) : (x.engWr a n v).taken = x.taken := rfl
@[simp] theorem Core.engWr_engaged (x : Core) (a n v : Nat) : (x.engWr a n v).engaged = x.engaged := rfl
@[simp] theorem Core.engWr_scrub (x : Core) (a n v : Nat) : (x.engWr a n v).scrub = x.scrub := rfl
@[simp] theorem Core.engWr_scrubAt (x : Core) (a n v : Nat) : (x.engWr a n v).scrubAt = x.scrubAt := rfl
@[simp] theorem Core.setSu_mem (x : Core) (u : Nat) (y : Stream) : (x.setSu u y).mem = x.mem := rfl
@[simp] theorem Core.setSu_fe (x : Core) (u : Nat) (y : Stream) : (x.setSu u y).fe = x.fe := rfl
@[simp] theorem Core.setSu_err1 (x : Core) (u : Nat) (y : Stream) : (x.setSu u y).err1 = x.err1 := rfl
@[simp] theorem Core.setSu_err2 (x : Core) (u : Nat) (y : Stream) : (x.setSu u y).err2 = x.err2 := rfl
@[simp] theorem Core.setSu_k (x : Core) (u : Nat) (y : Stream) : (x.setSu u y).k = x.k := rfl
@[simp] theorem Core.setSu_ev (x : Core) (u : Nat) (y : Stream) : (x.setSu u y).ev = x.ev := rfl
@[simp] theorem Core.setSu_slots (x : Core) (u : Nat) (y : Stream) : (x.setSu u y).slots = x.slots := rfl
@[simp] theorem Core.setSu_acc (x : Core) (u : Nat) (y : Stream) : (x.setSu u y).acc = x.acc := rfl
@[simp] theorem Core.setSu_ring (x : Core) (u : Nat) (y : Stream) : (x.setSu u y).ring = x.ring := rfl
@[simp] theorem Core.setSu_cx (x : Core) (u : Nat) (y : Stream) : (x.setSu u y).cx = x.cx := rfl
@[simp] theorem Core.setSu_mx (x : Core) (u : Nat) (y : Stream) : (x.setSu u y).mx = x.mx := rfl
@[simp] theorem Core.setSu_seqr (x : Core) (u : Nat) (y : Stream) : (x.setSu u y).seqr = x.seqr := rfl
@[simp] theorem Core.setSu_div (x : Core) (u : Nat) (y : Stream) : (x.setSu u y).div = x.div := rfl
@[simp] theorem Core.setSu_divEnd (x : Core) (u : Nat) (y : Stream) : (x.setSu u y).divEnd = x.divEnd := rfl
@[simp] theorem Core.setSu_scan (x : Core) (u : Nat) (y : Stream) : (x.setSu u y).scan = x.scan := rfl
@[simp] theorem Core.setSu_cq (x : Core) (u : Nat) (y : Stream) : (x.setSu u y).cq = x.cq := rfl
@[simp] theorem Core.setSu_port (x : Core) (u : Nat) (y : Stream) : (x.setSu u y).port = x.port := rfl
@[simp] theorem Core.setSu_pipe (x : Core) (u : Nat) (y : Stream) : (x.setSu u y).pipe = x.pipe := rfl
@[simp] theorem Core.setSu_dq (x : Core) (u : Nat) (y : Stream) : (x.setSu u y).dq = x.dq := rfl
@[simp] theorem Core.setSu_owed (x : Core) (u : Nat) (y : Stream) : (x.setSu u y).owed = x.owed := rfl
@[simp] theorem Core.setSu_feWait (x : Core) (u : Nat) (y : Stream) : (x.setSu u y).feWait = x.feWait := rfl
@[simp] theorem Core.setSu_snaps (x : Core) (u : Nat) (y : Stream) : (x.setSu u y).snaps = x.snaps := rfl
@[simp] theorem Core.setSu_ist (x : Core) (u : Nat) (y : Stream) : (x.setSu u y).ist = x.ist := rfl
@[simp] theorem Core.setSu_istNext (x : Core) (u : Nat) (y : Stream) : (x.setSu u y).istNext = x.istNext := rfl
@[simp] theorem Core.setSu_istBar (x : Core) (u : Nat) (y : Stream) : (x.setSu u y).istBar = x.istBar := rfl
@[simp] theorem Core.setSu_banked (x : Core) (u : Nat) (y : Stream) : (x.setSu u y).banked = x.banked := rfl
@[simp] theorem Core.setSu_restart (x : Core) (u : Nat) (y : Stream) : (x.setSu u y).restart = x.restart := rfl
@[simp] theorem Core.setSu_busy (x : Core) (u : Nat) (y : Stream) : (x.setSu u y).busy = x.busy := rfl
@[simp] theorem Core.setSu_netq (x : Core) (u : Nat) (y : Stream) : (x.setSu u y).netq = x.netq := rfl
@[simp] theorem Core.setSu_amq (x : Core) (u : Nat) (y : Stream) : (x.setSu u y).amq = x.amq := rfl
@[simp] theorem Core.setSu_trapq (x : Core) (u : Nat) (y : Stream) : (x.setSu u y).trapq = x.trapq := rfl
@[simp] theorem Core.setSu_gang (x : Core) (u : Nat) (y : Stream) : (x.setSu u y).gang = x.gang := rfl
@[simp] theorem Core.setSu_rank (x : Core) (u : Nat) (y : Stream) : (x.setSu u y).rank = x.rank := rfl
@[simp] theorem Core.setSu_gsize (x : Core) (u : Nat) (y : Stream) : (x.setSu u y).gsize = x.gsize := rfl
@[simp] theorem Core.setSu_psize (x : Core) (u : Nat) (y : Stream) : (x.setSu u y).psize = x.psize := rfl
@[simp] theorem Core.setSu_stage (x : Core) (u : Nat) (y : Stream) : (x.setSu u y).stage = x.stage := rfl
@[simp] theorem Core.setSu_pin (x : Core) (u : Nat) (y : Stream) : (x.setSu u y).pin = x.pin := rfl
@[simp] theorem Core.setSu_hand (x : Core) (u : Nat) (y : Stream) : (x.setSu u y).hand = x.hand := rfl
@[simp] theorem Core.setSu_preempt (x : Core) (u : Nat) (y : Stream) : (x.setSu u y).preempt = x.preempt := rfl
@[simp] theorem Core.setSu_woken (x : Core) (u : Nat) (y : Stream) : (x.setSu u y).woken = x.woken := rfl
@[simp] theorem Core.setSu_flags (x : Core) (u : Nat) (y : Stream) : (x.setSu u y).flags = x.flags := rfl
@[simp] theorem Core.setSu_zeroed (x : Core) (u : Nat) (y : Stream) : (x.setSu u y).zeroed = x.zeroed := rfl
@[simp] theorem Core.setSu_pushWait (x : Core) (u : Nat) (y : Stream) : (x.setSu u y).pushWait = x.pushWait := rfl
@[simp] theorem Core.setSu_taken (x : Core) (u : Nat) (y : Stream) : (x.setSu u y).taken = x.taken := rfl
@[simp] theorem Core.setSu_engaged (x : Core) (u : Nat) (y : Stream) : (x.setSu u y).engaged = x.engaged := rfl
@[simp] theorem Core.setSu_scrub (x : Core) (u : Nat) (y : Stream) : (x.setSu u y).scrub = x.scrub := rfl
@[simp] theorem Core.setSu_scrubAt (x : Core) (u : Nat) (y : Stream) : (x.setSu u y).scrubAt = x.scrubAt := rfl
@[simp] theorem Core.postTrap_mem (x : Core) (now i : Nat) (tc : W64) : (x.postTrap now i tc).mem = x.mem := rfl
@[simp] theorem Core.postTrap_fe (x : Core) (now i : Nat) (tc : W64) : (x.postTrap now i tc).fe = x.fe := rfl
@[simp] theorem Core.postTrap_err1 (x : Core) (now i : Nat) (tc : W64) : (x.postTrap now i tc).err1 = x.err1 := rfl
@[simp] theorem Core.postTrap_err2 (x : Core) (now i : Nat) (tc : W64) : (x.postTrap now i tc).err2 = x.err2 := rfl
@[simp] theorem Core.postTrap_k (x : Core) (now i : Nat) (tc : W64) : (x.postTrap now i tc).k = x.k := rfl
@[simp] theorem Core.postTrap_ev (x : Core) (now i : Nat) (tc : W64) : (x.postTrap now i tc).ev = x.ev := rfl
@[simp] theorem Core.postTrap_slots (x : Core) (now i : Nat) (tc : W64) : (x.postTrap now i tc).slots = x.slots := rfl
@[simp] theorem Core.postTrap_acc (x : Core) (now i : Nat) (tc : W64) : (x.postTrap now i tc).acc = x.acc := rfl
@[simp] theorem Core.postTrap_ring (x : Core) (now i : Nat) (tc : W64) : (x.postTrap now i tc).ring = x.ring := rfl
@[simp] theorem Core.postTrap_cx (x : Core) (now i : Nat) (tc : W64) : (x.postTrap now i tc).cx = x.cx := rfl
@[simp] theorem Core.postTrap_mx (x : Core) (now i : Nat) (tc : W64) : (x.postTrap now i tc).mx = x.mx := rfl
@[simp] theorem Core.postTrap_seqr (x : Core) (now i : Nat) (tc : W64) : (x.postTrap now i tc).seqr = x.seqr := rfl
@[simp] theorem Core.postTrap_div (x : Core) (now i : Nat) (tc : W64) : (x.postTrap now i tc).div = x.div := rfl
@[simp] theorem Core.postTrap_divEnd (x : Core) (now i : Nat) (tc : W64) : (x.postTrap now i tc).divEnd = x.divEnd := rfl
@[simp] theorem Core.postTrap_scan (x : Core) (now i : Nat) (tc : W64) : (x.postTrap now i tc).scan = x.scan := rfl
@[simp] theorem Core.postTrap_cq (x : Core) (now i : Nat) (tc : W64) : (x.postTrap now i tc).cq = x.cq := rfl
@[simp] theorem Core.postTrap_su (x : Core) (now i : Nat) (tc : W64) : (x.postTrap now i tc).su = x.su := rfl
@[simp] theorem Core.postTrap_port (x : Core) (now i : Nat) (tc : W64) : (x.postTrap now i tc).port = x.port := rfl
@[simp] theorem Core.postTrap_pipe (x : Core) (now i : Nat) (tc : W64) : (x.postTrap now i tc).pipe = x.pipe := rfl
@[simp] theorem Core.postTrap_dq (x : Core) (now i : Nat) (tc : W64) : (x.postTrap now i tc).dq = x.dq := rfl
@[simp] theorem Core.postTrap_owed (x : Core) (now i : Nat) (tc : W64) : (x.postTrap now i tc).owed = x.owed := rfl
@[simp] theorem Core.postTrap_feWait (x : Core) (now i : Nat) (tc : W64) : (x.postTrap now i tc).feWait = x.feWait := rfl
@[simp] theorem Core.postTrap_snaps (x : Core) (now i : Nat) (tc : W64) : (x.postTrap now i tc).snaps = x.snaps := rfl
@[simp] theorem Core.postTrap_ist (x : Core) (now i : Nat) (tc : W64) : (x.postTrap now i tc).ist = x.ist := rfl
@[simp] theorem Core.postTrap_istNext (x : Core) (now i : Nat) (tc : W64) : (x.postTrap now i tc).istNext = x.istNext := rfl
@[simp] theorem Core.postTrap_istBar (x : Core) (now i : Nat) (tc : W64) : (x.postTrap now i tc).istBar = x.istBar := rfl
@[simp] theorem Core.postTrap_banked (x : Core) (now i : Nat) (tc : W64) : (x.postTrap now i tc).banked = x.banked := rfl
@[simp] theorem Core.postTrap_restart (x : Core) (now i : Nat) (tc : W64) : (x.postTrap now i tc).restart = x.restart := rfl
@[simp] theorem Core.postTrap_busy (x : Core) (now i : Nat) (tc : W64) : (x.postTrap now i tc).busy = x.busy := rfl
@[simp] theorem Core.postTrap_netq (x : Core) (now i : Nat) (tc : W64) : (x.postTrap now i tc).netq = x.netq := rfl
@[simp] theorem Core.postTrap_amq (x : Core) (now i : Nat) (tc : W64) : (x.postTrap now i tc).amq = x.amq := rfl
@[simp] theorem Core.postTrap_gang (x : Core) (now i : Nat) (tc : W64) : (x.postTrap now i tc).gang = x.gang := rfl
@[simp] theorem Core.postTrap_rank (x : Core) (now i : Nat) (tc : W64) : (x.postTrap now i tc).rank = x.rank := rfl
@[simp] theorem Core.postTrap_gsize (x : Core) (now i : Nat) (tc : W64) : (x.postTrap now i tc).gsize = x.gsize := rfl
@[simp] theorem Core.postTrap_psize (x : Core) (now i : Nat) (tc : W64) : (x.postTrap now i tc).psize = x.psize := rfl
@[simp] theorem Core.postTrap_stage (x : Core) (now i : Nat) (tc : W64) : (x.postTrap now i tc).stage = x.stage := rfl
@[simp] theorem Core.postTrap_pin (x : Core) (now i : Nat) (tc : W64) : (x.postTrap now i tc).pin = x.pin := rfl
@[simp] theorem Core.postTrap_hand (x : Core) (now i : Nat) (tc : W64) : (x.postTrap now i tc).hand = x.hand := rfl
@[simp] theorem Core.postTrap_preempt (x : Core) (now i : Nat) (tc : W64) : (x.postTrap now i tc).preempt = x.preempt := rfl
@[simp] theorem Core.postTrap_woken (x : Core) (now i : Nat) (tc : W64) : (x.postTrap now i tc).woken = x.woken := rfl
@[simp] theorem Core.postTrap_flags (x : Core) (now i : Nat) (tc : W64) : (x.postTrap now i tc).flags = x.flags := rfl
@[simp] theorem Core.postTrap_zeroed (x : Core) (now i : Nat) (tc : W64) : (x.postTrap now i tc).zeroed = x.zeroed := rfl
@[simp] theorem Core.postTrap_pushWait (x : Core) (now i : Nat) (tc : W64) : (x.postTrap now i tc).pushWait = x.pushWait := rfl
@[simp] theorem Core.postTrap_taken (x : Core) (now i : Nat) (tc : W64) : (x.postTrap now i tc).taken = x.taken := rfl
@[simp] theorem Core.postTrap_engaged (x : Core) (now i : Nat) (tc : W64) : (x.postTrap now i tc).engaged = x.engaged := rfl
@[simp] theorem Core.postTrap_scrub (x : Core) (now i : Nat) (tc : W64) : (x.postTrap now i tc).scrub = x.scrub := rfl
@[simp] theorem Core.postTrap_scrubAt (x : Core) (now i : Nat) (tc : W64) : (x.postTrap now i tc).scrubAt = x.scrubAt := rfl
@[simp] theorem Slot.wv_pc (t : Slot) (k : Nat) (x : VReg) : (t.wv k x).pc = t.pc := rfl
@[simp] theorem Slot.wv_s (t : Slot) (k : Nat) (x : VReg) : (t.wv k x).s = t.s := rfl
@[simp] theorem Slot.wv_sh (t : Slot) (k : Nat) (x : VReg) : (t.wv k x).sh = t.sh := rfl
@[simp] theorem Slot.wv_p (t : Slot) (k : Nat) (x : VReg) : (t.wv k x).p = t.p := rfl
@[simp] theorem Slot.wv_m (t : Slot) (k : Nat) (x : VReg) : (t.wv k x).m = t.m := rfl
@[simp] theorem Slot.wv_sg (t : Slot) (k : Nat) (x : VReg) : (t.wv k x).sg = t.sg := rfl
@[simp] theorem Slot.wv_fxa (t : Slot) (k : Nat) (x : VReg) : (t.wv k x).fxa = t.fxa := rfl
@[simp] theorem Slot.wv_fxb (t : Slot) (k : Nat) (x : VReg) : (t.wv k x).fxb = t.fxb := rfl
@[simp] theorem Slot.wv_fxc (t : Slot) (k : Nat) (x : VReg) : (t.wv k x).fxc = t.fxc := rfl
@[simp] theorem Slot.wv_spa (t : Slot) (k : Nat) (x : VReg) : (t.wv k x).spa = t.spa := rfl
@[simp] theorem Slot.wv_spb (t : Slot) (k : Nat) (x : VReg) : (t.wv k x).spb = t.spb := rfl
@[simp] theorem Slot.wv_geom (t : Slot) (k : Nat) (x : VReg) : (t.wv k x).geom = t.geom := rfl
@[simp] theorem Slot.wv_tcause (t : Slot) (k : Nat) (x : VReg) : (t.wv k x).tcause = t.tcause := rfl
@[simp] theorem Slot.wv_ulivec (t : Slot) (k : Nat) (x : VReg) : (t.wv k x).ulivec = t.ulivec := rfl
@[simp] theorem Slot.wv_sticky (t : Slot) (k : Nat) (x : VReg) : (t.wv k x).sticky = t.sticky := rfl
@[simp] theorem Slot.wv_timer (t : Slot) (k : Nat) (x : VReg) : (t.wv k x).timer = t.timer := rfl
@[simp] theorem Slot.wv_lin (t : Slot) (k : Nat) (x : VReg) : (t.wv k x).lin = t.lin := rfl
@[simp] theorem Slot.wv_curj (t : Slot) (k : Nat) (x : VReg) : (t.wv k x).curj = t.curj := rfl
@[simp] theorem Slot.wv_st (t : Slot) (k : Nat) (x : VReg) : (t.wv k x).st = t.st := rfl
@[simp] theorem Slot.wv_level (t : Slot) (k : Nat) (x : VReg) : (t.wv k x).level = t.level := rfl
@[simp] theorem Slot.wv_ue (t : Slot) (k : Nat) (x : VReg) : (t.wv k x).ue = t.ue := rfl
@[simp] theorem Slot.wv_ua (t : Slot) (k : Nat) (x : VReg) : (t.wv k x).ua = t.ua := rfl
@[simp] theorem Slot.wv_tul (t : Slot) (k : Nat) (x : VReg) : (t.wv k x).tul = t.tul := rfl
@[simp] theorem Slot.wv_tpend (t : Slot) (k : Nat) (x : VReg) : (t.wv k x).tpend = t.tpend := rfl
@[simp] theorem Slot.wv_timerInt (t : Slot) (k : Nat) (x : VReg) : (t.wv k x).timerInt = t.timerInt := rfl
@[simp] theorem Slot.wv_imv (t : Slot) (k : Nat) (x : VReg) : (t.wv k x).imv = t.imv := rfl
@[simp] theorem Slot.wv_mark (t : Slot) (k : Nat) (x : VReg) : (t.wv k x).mark = t.mark := rfl
@[simp] theorem Slot.wv_mst (t : Slot) (k : Nat) (x : VReg) : (t.wv k x).mst = t.mst := rfl
@[simp] theorem Slot.wv_chan (t : Slot) (k : Nat) (x : VReg) : (t.wv k x).chan = t.chan := rfl
@[simp] theorem Slot.wv_trapov (t : Slot) (k : Nat) (x : VReg) : (t.wv k x).trapov = t.trapov := rfl
@[simp] theorem Slot.wv_pub (t : Slot) (k : Nat) (x : VReg) : (t.wv k x).pub = t.pub := rfl
@[simp] theorem Slot.wv_skew (t : Slot) (k : Nat) (x : VReg) : (t.wv k x).skew = t.skew := rfl
@[simp] theorem Slot.wv_ending (t : Slot) (k : Nat) (x : VReg) : (t.wv k x).ending = t.ending := rfl
@[simp] theorem Slot.wv_asked (t : Slot) (k : Nat) (x : VReg) : (t.wv k x).asked = t.asked := rfl
@[simp] theorem Slot.wv_due (t : Slot) (k : Nat) (x : VReg) : (t.wv k x).due = t.due := rfl
@[simp] theorem Slot.wv_members (t : Slot) (k : Nat) (x : VReg) : (t.wv k x).members = t.members := rfl
@[simp] theorem Slot.wv_rdv (t : Slot) (k : Nat) (x : VReg) : (t.wv k x).rdv = t.rdv := rfl
@[simp] theorem Slot.wv_late (t : Slot) (k : Nat) (x : VReg) : (t.wv k x).late = t.late := rfl
@[simp] theorem Slot.wv_held (t : Slot) (k : Nat) (x : VReg) : (t.wv k x).held = t.held := rfl
@[simp] theorem Slot.wv_npc (t : Slot) (k : Nat) (x : VReg) : (t.wv k x).npc = t.npc := rfl
@[simp] theorem Slot.wv_stop (t : Slot) (k : Nat) (x : VReg) : (t.wv k x).stop = t.stop := rfl
@[simp] theorem Slot.wv_stopped (t : Slot) (k : Nat) (x : VReg) : (t.wv k x).stopped = t.stopped := rfl
@[simp] theorem Slot.wv_doomed (t : Slot) (k : Nat) (x : VReg) : (t.wv k x).doomed = t.doomed := rfl
@[simp] theorem Slot.wv_last (t : Slot) (k : Nat) (x : VReg) : (t.wv k x).last = t.last := rfl
@[simp] theorem Slot.wv_gap (t : Slot) (k : Nat) (x : VReg) : (t.wv k x).gap = t.gap := rfl
@[simp] theorem Slot.wv_bar (t : Slot) (k : Nat) (x : VReg) : (t.wv k x).bar = t.bar := rfl
@[simp] theorem Slot.wv_relaxed (t : Slot) (k : Nat) (x : VReg) : (t.wv k x).relaxed = t.relaxed := rfl
@[simp] theorem Slot.wv_caddy (t : Slot) (k : Nat) (x : VReg) : (t.wv k x).caddy = t.caddy := rfl
@[simp] theorem Slot.wv_mail (t : Slot) (k : Nat) (x : VReg) : (t.wv k x).mail = t.mail := rfl
@[simp] theorem Slot.wv_mailHeld (t : Slot) (k : Nat) (x : VReg) : (t.wv k x).mailHeld = t.mailHeld := rfl
@[simp] theorem Slot.wv_credits (t : Slot) (k : Nat) (x : VReg) : (t.wv k x).credits = t.credits := rfl
@[simp] theorem Slot.wake_s (t : Slot) : (t.wake).s = t.s := rfl
@[simp] theorem Slot.wake_sh (t : Slot) : (t.wake).sh = t.sh := rfl
@[simp] theorem Slot.wake_p (t : Slot) : (t.wake).p = t.p := rfl
@[simp] theorem Slot.wake_v (t : Slot) : (t.wake).v = t.v := rfl
@[simp] theorem Slot.wake_m (t : Slot) : (t.wake).m = t.m := rfl
@[simp] theorem Slot.wake_sg (t : Slot) : (t.wake).sg = t.sg := rfl
@[simp] theorem Slot.wake_fxa (t : Slot) : (t.wake).fxa = t.fxa := rfl
@[simp] theorem Slot.wake_fxb (t : Slot) : (t.wake).fxb = t.fxb := rfl
@[simp] theorem Slot.wake_fxc (t : Slot) : (t.wake).fxc = t.fxc := rfl
@[simp] theorem Slot.wake_spa (t : Slot) : (t.wake).spa = t.spa := rfl
@[simp] theorem Slot.wake_spb (t : Slot) : (t.wake).spb = t.spb := rfl
@[simp] theorem Slot.wake_geom (t : Slot) : (t.wake).geom = t.geom := rfl
@[simp] theorem Slot.wake_tcause (t : Slot) : (t.wake).tcause = t.tcause := rfl
@[simp] theorem Slot.wake_ulivec (t : Slot) : (t.wake).ulivec = t.ulivec := rfl
@[simp] theorem Slot.wake_sticky (t : Slot) : (t.wake).sticky = t.sticky := rfl
@[simp] theorem Slot.wake_timer (t : Slot) : (t.wake).timer = t.timer := rfl
@[simp] theorem Slot.wake_lin (t : Slot) : (t.wake).lin = t.lin := rfl
@[simp] theorem Slot.wake_curj (t : Slot) : (t.wake).curj = t.curj := rfl
@[simp] theorem Slot.wake_level (t : Slot) : (t.wake).level = t.level := rfl
@[simp] theorem Slot.wake_ue (t : Slot) : (t.wake).ue = t.ue := rfl
@[simp] theorem Slot.wake_ua (t : Slot) : (t.wake).ua = t.ua := rfl
@[simp] theorem Slot.wake_tul (t : Slot) : (t.wake).tul = t.tul := rfl
@[simp] theorem Slot.wake_tpend (t : Slot) : (t.wake).tpend = t.tpend := rfl
@[simp] theorem Slot.wake_timerInt (t : Slot) : (t.wake).timerInt = t.timerInt := rfl
@[simp] theorem Slot.wake_imv (t : Slot) : (t.wake).imv = t.imv := rfl
@[simp] theorem Slot.wake_mark (t : Slot) : (t.wake).mark = t.mark := rfl
@[simp] theorem Slot.wake_mst (t : Slot) : (t.wake).mst = t.mst := rfl
@[simp] theorem Slot.wake_chan (t : Slot) : (t.wake).chan = t.chan := rfl
@[simp] theorem Slot.wake_trapov (t : Slot) : (t.wake).trapov = t.trapov := rfl
@[simp] theorem Slot.wake_pub (t : Slot) : (t.wake).pub = t.pub := rfl
@[simp] theorem Slot.wake_skew (t : Slot) : (t.wake).skew = t.skew := rfl
@[simp] theorem Slot.wake_ending (t : Slot) : (t.wake).ending = t.ending := rfl
@[simp] theorem Slot.wake_asked (t : Slot) : (t.wake).asked = t.asked := rfl
@[simp] theorem Slot.wake_due (t : Slot) : (t.wake).due = t.due := rfl
@[simp] theorem Slot.wake_members (t : Slot) : (t.wake).members = t.members := rfl
@[simp] theorem Slot.wake_rdv (t : Slot) : (t.wake).rdv = t.rdv := rfl
@[simp] theorem Slot.wake_late (t : Slot) : (t.wake).late = t.late := rfl
@[simp] theorem Slot.wake_npc (t : Slot) : (t.wake).npc = t.npc := rfl
@[simp] theorem Slot.wake_stop (t : Slot) : (t.wake).stop = t.stop := rfl
@[simp] theorem Slot.wake_stopped (t : Slot) : (t.wake).stopped = t.stopped := rfl
@[simp] theorem Slot.wake_doomed (t : Slot) : (t.wake).doomed = t.doomed := rfl
@[simp] theorem Slot.wake_last (t : Slot) : (t.wake).last = t.last := rfl
@[simp] theorem Slot.wake_gap (t : Slot) : (t.wake).gap = t.gap := rfl
@[simp] theorem Slot.wake_bar (t : Slot) : (t.wake).bar = t.bar := rfl
@[simp] theorem Slot.wake_relaxed (t : Slot) : (t.wake).relaxed = t.relaxed := rfl
@[simp] theorem Slot.wake_caddy (t : Slot) : (t.wake).caddy = t.caddy := rfl
@[simp] theorem Slot.wake_mail (t : Slot) : (t.wake).mail = t.mail := rfl
@[simp] theorem Slot.wake_mailHeld (t : Slot) : (t.wake).mailHeld = t.mailHeld := rfl
@[simp] theorem Slot.wake_credits (t : Slot) : (t.wake).credits = t.credits := rfl
@[simp] theorem Slot.ws_pc (t : Slot) (a : Nat) (x : W64) : (t.ws a x).pc = t.pc := by
  unfold Slot.ws; split <;> (try split) <;> rfl
@[simp] theorem Slot.ws_p (t : Slot) (a : Nat) (x : W64) : (t.ws a x).p = t.p := by
  unfold Slot.ws; split <;> (try split) <;> rfl
@[simp] theorem Slot.ws_v (t : Slot) (a : Nat) (x : W64) : (t.ws a x).v = t.v := by
  unfold Slot.ws; split <;> (try split) <;> rfl
@[simp] theorem Slot.ws_m (t : Slot) (a : Nat) (x : W64) : (t.ws a x).m = t.m := by
  unfold Slot.ws; split <;> (try split) <;> rfl
@[simp] theorem Slot.ws_sg (t : Slot) (a : Nat) (x : W64) : (t.ws a x).sg = t.sg := by
  unfold Slot.ws; split <;> (try split) <;> rfl
@[simp] theorem Slot.ws_fxa (t : Slot) (a : Nat) (x : W64) : (t.ws a x).fxa = t.fxa := by
  unfold Slot.ws; split <;> (try split) <;> rfl
@[simp] theorem Slot.ws_fxb (t : Slot) (a : Nat) (x : W64) : (t.ws a x).fxb = t.fxb := by
  unfold Slot.ws; split <;> (try split) <;> rfl
@[simp] theorem Slot.ws_fxc (t : Slot) (a : Nat) (x : W64) : (t.ws a x).fxc = t.fxc := by
  unfold Slot.ws; split <;> (try split) <;> rfl
@[simp] theorem Slot.ws_spa (t : Slot) (a : Nat) (x : W64) : (t.ws a x).spa = t.spa := by
  unfold Slot.ws; split <;> (try split) <;> rfl
@[simp] theorem Slot.ws_spb (t : Slot) (a : Nat) (x : W64) : (t.ws a x).spb = t.spb := by
  unfold Slot.ws; split <;> (try split) <;> rfl
@[simp] theorem Slot.ws_geom (t : Slot) (a : Nat) (x : W64) : (t.ws a x).geom = t.geom := by
  unfold Slot.ws; split <;> (try split) <;> rfl
@[simp] theorem Slot.ws_tcause (t : Slot) (a : Nat) (x : W64) : (t.ws a x).tcause = t.tcause := by
  unfold Slot.ws; split <;> (try split) <;> rfl
@[simp] theorem Slot.ws_ulivec (t : Slot) (a : Nat) (x : W64) : (t.ws a x).ulivec = t.ulivec := by
  unfold Slot.ws; split <;> (try split) <;> rfl
@[simp] theorem Slot.ws_sticky (t : Slot) (a : Nat) (x : W64) : (t.ws a x).sticky = t.sticky := by
  unfold Slot.ws; split <;> (try split) <;> rfl
@[simp] theorem Slot.ws_timer (t : Slot) (a : Nat) (x : W64) : (t.ws a x).timer = t.timer := by
  unfold Slot.ws; split <;> (try split) <;> rfl
@[simp] theorem Slot.ws_lin (t : Slot) (a : Nat) (x : W64) : (t.ws a x).lin = t.lin := by
  unfold Slot.ws; split <;> (try split) <;> rfl
@[simp] theorem Slot.ws_curj (t : Slot) (a : Nat) (x : W64) : (t.ws a x).curj = t.curj := by
  unfold Slot.ws; split <;> (try split) <;> rfl
@[simp] theorem Slot.ws_st (t : Slot) (a : Nat) (x : W64) : (t.ws a x).st = t.st := by
  unfold Slot.ws; split <;> (try split) <;> rfl
@[simp] theorem Slot.ws_level (t : Slot) (a : Nat) (x : W64) : (t.ws a x).level = t.level := by
  unfold Slot.ws; split <;> (try split) <;> rfl
@[simp] theorem Slot.ws_ue (t : Slot) (a : Nat) (x : W64) : (t.ws a x).ue = t.ue := by
  unfold Slot.ws; split <;> (try split) <;> rfl
@[simp] theorem Slot.ws_ua (t : Slot) (a : Nat) (x : W64) : (t.ws a x).ua = t.ua := by
  unfold Slot.ws; split <;> (try split) <;> rfl
@[simp] theorem Slot.ws_tul (t : Slot) (a : Nat) (x : W64) : (t.ws a x).tul = t.tul := by
  unfold Slot.ws; split <;> (try split) <;> rfl
@[simp] theorem Slot.ws_tpend (t : Slot) (a : Nat) (x : W64) : (t.ws a x).tpend = t.tpend := by
  unfold Slot.ws; split <;> (try split) <;> rfl
@[simp] theorem Slot.ws_timerInt (t : Slot) (a : Nat) (x : W64) : (t.ws a x).timerInt = t.timerInt := by
  unfold Slot.ws; split <;> (try split) <;> rfl
@[simp] theorem Slot.ws_imv (t : Slot) (a : Nat) (x : W64) : (t.ws a x).imv = t.imv := by
  unfold Slot.ws; split <;> (try split) <;> rfl
@[simp] theorem Slot.ws_mark (t : Slot) (a : Nat) (x : W64) : (t.ws a x).mark = t.mark := by
  unfold Slot.ws; split <;> (try split) <;> rfl
@[simp] theorem Slot.ws_mst (t : Slot) (a : Nat) (x : W64) : (t.ws a x).mst = t.mst := by
  unfold Slot.ws; split <;> (try split) <;> rfl
@[simp] theorem Slot.ws_chan (t : Slot) (a : Nat) (x : W64) : (t.ws a x).chan = t.chan := by
  unfold Slot.ws; split <;> (try split) <;> rfl
@[simp] theorem Slot.ws_trapov (t : Slot) (a : Nat) (x : W64) : (t.ws a x).trapov = t.trapov := by
  unfold Slot.ws; split <;> (try split) <;> rfl
@[simp] theorem Slot.ws_pub (t : Slot) (a : Nat) (x : W64) : (t.ws a x).pub = t.pub := by
  unfold Slot.ws; split <;> (try split) <;> rfl
@[simp] theorem Slot.ws_skew (t : Slot) (a : Nat) (x : W64) : (t.ws a x).skew = t.skew := by
  unfold Slot.ws; split <;> (try split) <;> rfl
@[simp] theorem Slot.ws_ending (t : Slot) (a : Nat) (x : W64) : (t.ws a x).ending = t.ending := by
  unfold Slot.ws; split <;> (try split) <;> rfl
@[simp] theorem Slot.ws_asked (t : Slot) (a : Nat) (x : W64) : (t.ws a x).asked = t.asked := by
  unfold Slot.ws; split <;> (try split) <;> rfl
@[simp] theorem Slot.ws_due (t : Slot) (a : Nat) (x : W64) : (t.ws a x).due = t.due := by
  unfold Slot.ws; split <;> (try split) <;> rfl
@[simp] theorem Slot.ws_members (t : Slot) (a : Nat) (x : W64) : (t.ws a x).members = t.members := by
  unfold Slot.ws; split <;> (try split) <;> rfl
@[simp] theorem Slot.ws_rdv (t : Slot) (a : Nat) (x : W64) : (t.ws a x).rdv = t.rdv := by
  unfold Slot.ws; split <;> (try split) <;> rfl
@[simp] theorem Slot.ws_late (t : Slot) (a : Nat) (x : W64) : (t.ws a x).late = t.late := by
  unfold Slot.ws; split <;> (try split) <;> rfl
@[simp] theorem Slot.ws_held (t : Slot) (a : Nat) (x : W64) : (t.ws a x).held = t.held := by
  unfold Slot.ws; split <;> (try split) <;> rfl
@[simp] theorem Slot.ws_npc (t : Slot) (a : Nat) (x : W64) : (t.ws a x).npc = t.npc := by
  unfold Slot.ws; split <;> (try split) <;> rfl
@[simp] theorem Slot.ws_stop (t : Slot) (a : Nat) (x : W64) : (t.ws a x).stop = t.stop := by
  unfold Slot.ws; split <;> (try split) <;> rfl
@[simp] theorem Slot.ws_stopped (t : Slot) (a : Nat) (x : W64) : (t.ws a x).stopped = t.stopped := by
  unfold Slot.ws; split <;> (try split) <;> rfl
@[simp] theorem Slot.ws_doomed (t : Slot) (a : Nat) (x : W64) : (t.ws a x).doomed = t.doomed := by
  unfold Slot.ws; split <;> (try split) <;> rfl
@[simp] theorem Slot.ws_last (t : Slot) (a : Nat) (x : W64) : (t.ws a x).last = t.last := by
  unfold Slot.ws; split <;> (try split) <;> rfl
@[simp] theorem Slot.ws_gap (t : Slot) (a : Nat) (x : W64) : (t.ws a x).gap = t.gap := by
  unfold Slot.ws; split <;> (try split) <;> rfl
@[simp] theorem Slot.ws_bar (t : Slot) (a : Nat) (x : W64) : (t.ws a x).bar = t.bar := by
  unfold Slot.ws; split <;> (try split) <;> rfl
@[simp] theorem Slot.ws_relaxed (t : Slot) (a : Nat) (x : W64) : (t.ws a x).relaxed = t.relaxed := by
  unfold Slot.ws; split <;> (try split) <;> rfl
@[simp] theorem Slot.ws_caddy (t : Slot) (a : Nat) (x : W64) : (t.ws a x).caddy = t.caddy := by
  unfold Slot.ws; split <;> (try split) <;> rfl
@[simp] theorem Slot.ws_mail (t : Slot) (a : Nat) (x : W64) : (t.ws a x).mail = t.mail := by
  unfold Slot.ws; split <;> (try split) <;> rfl
@[simp] theorem Slot.ws_mailHeld (t : Slot) (a : Nat) (x : W64) : (t.ws a x).mailHeld = t.mailHeld := by
  unfold Slot.ws; split <;> (try split) <;> rfl
@[simp] theorem Slot.ws_credits (t : Slot) (a : Nat) (x : W64) : (t.ws a x).credits = t.credits := by
  unfold Slot.ws; split <;> (try split) <;> rfl
@[simp] theorem Slot.wp_pc (t : Slot) (k : Nat) (b : Bool) : (t.wp k b).pc = t.pc := by
  unfold Slot.wp; split <;> rfl
@[simp] theorem Slot.wp_s (t : Slot) (k : Nat) (b : Bool) : (t.wp k b).s = t.s := by
  unfold Slot.wp; split <;> rfl
@[simp] theorem Slot.wp_sh (t : Slot) (k : Nat) (b : Bool) : (t.wp k b).sh = t.sh := by
  unfold Slot.wp; split <;> rfl
@[simp] theorem Slot.wp_v (t : Slot) (k : Nat) (b : Bool) : (t.wp k b).v = t.v := by
  unfold Slot.wp; split <;> rfl
@[simp] theorem Slot.wp_m (t : Slot) (k : Nat) (b : Bool) : (t.wp k b).m = t.m := by
  unfold Slot.wp; split <;> rfl
@[simp] theorem Slot.wp_sg (t : Slot) (k : Nat) (b : Bool) : (t.wp k b).sg = t.sg := by
  unfold Slot.wp; split <;> rfl
@[simp] theorem Slot.wp_fxa (t : Slot) (k : Nat) (b : Bool) : (t.wp k b).fxa = t.fxa := by
  unfold Slot.wp; split <;> rfl
@[simp] theorem Slot.wp_fxb (t : Slot) (k : Nat) (b : Bool) : (t.wp k b).fxb = t.fxb := by
  unfold Slot.wp; split <;> rfl
@[simp] theorem Slot.wp_fxc (t : Slot) (k : Nat) (b : Bool) : (t.wp k b).fxc = t.fxc := by
  unfold Slot.wp; split <;> rfl
@[simp] theorem Slot.wp_spa (t : Slot) (k : Nat) (b : Bool) : (t.wp k b).spa = t.spa := by
  unfold Slot.wp; split <;> rfl
@[simp] theorem Slot.wp_spb (t : Slot) (k : Nat) (b : Bool) : (t.wp k b).spb = t.spb := by
  unfold Slot.wp; split <;> rfl
@[simp] theorem Slot.wp_geom (t : Slot) (k : Nat) (b : Bool) : (t.wp k b).geom = t.geom := by
  unfold Slot.wp; split <;> rfl
@[simp] theorem Slot.wp_tcause (t : Slot) (k : Nat) (b : Bool) : (t.wp k b).tcause = t.tcause := by
  unfold Slot.wp; split <;> rfl
@[simp] theorem Slot.wp_ulivec (t : Slot) (k : Nat) (b : Bool) : (t.wp k b).ulivec = t.ulivec := by
  unfold Slot.wp; split <;> rfl
@[simp] theorem Slot.wp_sticky (t : Slot) (k : Nat) (b : Bool) : (t.wp k b).sticky = t.sticky := by
  unfold Slot.wp; split <;> rfl
@[simp] theorem Slot.wp_timer (t : Slot) (k : Nat) (b : Bool) : (t.wp k b).timer = t.timer := by
  unfold Slot.wp; split <;> rfl
@[simp] theorem Slot.wp_lin (t : Slot) (k : Nat) (b : Bool) : (t.wp k b).lin = t.lin := by
  unfold Slot.wp; split <;> rfl
@[simp] theorem Slot.wp_curj (t : Slot) (k : Nat) (b : Bool) : (t.wp k b).curj = t.curj := by
  unfold Slot.wp; split <;> rfl
@[simp] theorem Slot.wp_st (t : Slot) (k : Nat) (b : Bool) : (t.wp k b).st = t.st := by
  unfold Slot.wp; split <;> rfl
@[simp] theorem Slot.wp_level (t : Slot) (k : Nat) (b : Bool) : (t.wp k b).level = t.level := by
  unfold Slot.wp; split <;> rfl
@[simp] theorem Slot.wp_ue (t : Slot) (k : Nat) (b : Bool) : (t.wp k b).ue = t.ue := by
  unfold Slot.wp; split <;> rfl
@[simp] theorem Slot.wp_ua (t : Slot) (k : Nat) (b : Bool) : (t.wp k b).ua = t.ua := by
  unfold Slot.wp; split <;> rfl
@[simp] theorem Slot.wp_tul (t : Slot) (k : Nat) (b : Bool) : (t.wp k b).tul = t.tul := by
  unfold Slot.wp; split <;> rfl
@[simp] theorem Slot.wp_tpend (t : Slot) (k : Nat) (b : Bool) : (t.wp k b).tpend = t.tpend := by
  unfold Slot.wp; split <;> rfl
@[simp] theorem Slot.wp_timerInt (t : Slot) (k : Nat) (b : Bool) : (t.wp k b).timerInt = t.timerInt := by
  unfold Slot.wp; split <;> rfl
@[simp] theorem Slot.wp_imv (t : Slot) (k : Nat) (b : Bool) : (t.wp k b).imv = t.imv := by
  unfold Slot.wp; split <;> rfl
@[simp] theorem Slot.wp_mark (t : Slot) (k : Nat) (b : Bool) : (t.wp k b).mark = t.mark := by
  unfold Slot.wp; split <;> rfl
@[simp] theorem Slot.wp_mst (t : Slot) (k : Nat) (b : Bool) : (t.wp k b).mst = t.mst := by
  unfold Slot.wp; split <;> rfl
@[simp] theorem Slot.wp_chan (t : Slot) (k : Nat) (b : Bool) : (t.wp k b).chan = t.chan := by
  unfold Slot.wp; split <;> rfl
@[simp] theorem Slot.wp_trapov (t : Slot) (k : Nat) (b : Bool) : (t.wp k b).trapov = t.trapov := by
  unfold Slot.wp; split <;> rfl
@[simp] theorem Slot.wp_pub (t : Slot) (k : Nat) (b : Bool) : (t.wp k b).pub = t.pub := by
  unfold Slot.wp; split <;> rfl
@[simp] theorem Slot.wp_skew (t : Slot) (k : Nat) (b : Bool) : (t.wp k b).skew = t.skew := by
  unfold Slot.wp; split <;> rfl
@[simp] theorem Slot.wp_ending (t : Slot) (k : Nat) (b : Bool) : (t.wp k b).ending = t.ending := by
  unfold Slot.wp; split <;> rfl
@[simp] theorem Slot.wp_asked (t : Slot) (k : Nat) (b : Bool) : (t.wp k b).asked = t.asked := by
  unfold Slot.wp; split <;> rfl
@[simp] theorem Slot.wp_due (t : Slot) (k : Nat) (b : Bool) : (t.wp k b).due = t.due := by
  unfold Slot.wp; split <;> rfl
@[simp] theorem Slot.wp_members (t : Slot) (k : Nat) (b : Bool) : (t.wp k b).members = t.members := by
  unfold Slot.wp; split <;> rfl
@[simp] theorem Slot.wp_rdv (t : Slot) (k : Nat) (b : Bool) : (t.wp k b).rdv = t.rdv := by
  unfold Slot.wp; split <;> rfl
@[simp] theorem Slot.wp_late (t : Slot) (k : Nat) (b : Bool) : (t.wp k b).late = t.late := by
  unfold Slot.wp; split <;> rfl
@[simp] theorem Slot.wp_held (t : Slot) (k : Nat) (b : Bool) : (t.wp k b).held = t.held := by
  unfold Slot.wp; split <;> rfl
@[simp] theorem Slot.wp_npc (t : Slot) (k : Nat) (b : Bool) : (t.wp k b).npc = t.npc := by
  unfold Slot.wp; split <;> rfl
@[simp] theorem Slot.wp_stop (t : Slot) (k : Nat) (b : Bool) : (t.wp k b).stop = t.stop := by
  unfold Slot.wp; split <;> rfl
@[simp] theorem Slot.wp_stopped (t : Slot) (k : Nat) (b : Bool) : (t.wp k b).stopped = t.stopped := by
  unfold Slot.wp; split <;> rfl
@[simp] theorem Slot.wp_doomed (t : Slot) (k : Nat) (b : Bool) : (t.wp k b).doomed = t.doomed := by
  unfold Slot.wp; split <;> rfl
@[simp] theorem Slot.wp_last (t : Slot) (k : Nat) (b : Bool) : (t.wp k b).last = t.last := by
  unfold Slot.wp; split <;> rfl
@[simp] theorem Slot.wp_gap (t : Slot) (k : Nat) (b : Bool) : (t.wp k b).gap = t.gap := by
  unfold Slot.wp; split <;> rfl
@[simp] theorem Slot.wp_bar (t : Slot) (k : Nat) (b : Bool) : (t.wp k b).bar = t.bar := by
  unfold Slot.wp; split <;> rfl
@[simp] theorem Slot.wp_relaxed (t : Slot) (k : Nat) (b : Bool) : (t.wp k b).relaxed = t.relaxed := by
  unfold Slot.wp; split <;> rfl
@[simp] theorem Slot.wp_caddy (t : Slot) (k : Nat) (b : Bool) : (t.wp k b).caddy = t.caddy := by
  unfold Slot.wp; split <;> rfl
@[simp] theorem Slot.wp_mail (t : Slot) (k : Nat) (b : Bool) : (t.wp k b).mail = t.mail := by
  unfold Slot.wp; split <;> rfl
@[simp] theorem Slot.wp_mailHeld (t : Slot) (k : Nat) (b : Bool) : (t.wp k b).mailHeld = t.mailHeld := by
  unfold Slot.wp; split <;> rfl
@[simp] theorem Slot.wp_credits (t : Slot) (k : Nat) (b : Bool) : (t.wp k b).credits = t.credits := by
  unfold Slot.wp; split <;> rfl
@[simp] theorem Slot.wm_pc (t : Slot) (k : Nat) (x : W32) : (t.wm k x).pc = t.pc := by
  unfold Slot.wm; split <;> rfl
@[simp] theorem Slot.wm_s (t : Slot) (k : Nat) (x : W32) : (t.wm k x).s = t.s := by
  unfold Slot.wm; split <;> rfl
@[simp] theorem Slot.wm_sh (t : Slot) (k : Nat) (x : W32) : (t.wm k x).sh = t.sh := by
  unfold Slot.wm; split <;> rfl
@[simp] theorem Slot.wm_p (t : Slot) (k : Nat) (x : W32) : (t.wm k x).p = t.p := by
  unfold Slot.wm; split <;> rfl
@[simp] theorem Slot.wm_v (t : Slot) (k : Nat) (x : W32) : (t.wm k x).v = t.v := by
  unfold Slot.wm; split <;> rfl
@[simp] theorem Slot.wm_sg (t : Slot) (k : Nat) (x : W32) : (t.wm k x).sg = t.sg := by
  unfold Slot.wm; split <;> rfl
@[simp] theorem Slot.wm_fxa (t : Slot) (k : Nat) (x : W32) : (t.wm k x).fxa = t.fxa := by
  unfold Slot.wm; split <;> rfl
@[simp] theorem Slot.wm_fxb (t : Slot) (k : Nat) (x : W32) : (t.wm k x).fxb = t.fxb := by
  unfold Slot.wm; split <;> rfl
@[simp] theorem Slot.wm_fxc (t : Slot) (k : Nat) (x : W32) : (t.wm k x).fxc = t.fxc := by
  unfold Slot.wm; split <;> rfl
@[simp] theorem Slot.wm_spa (t : Slot) (k : Nat) (x : W32) : (t.wm k x).spa = t.spa := by
  unfold Slot.wm; split <;> rfl
@[simp] theorem Slot.wm_spb (t : Slot) (k : Nat) (x : W32) : (t.wm k x).spb = t.spb := by
  unfold Slot.wm; split <;> rfl
@[simp] theorem Slot.wm_geom (t : Slot) (k : Nat) (x : W32) : (t.wm k x).geom = t.geom := by
  unfold Slot.wm; split <;> rfl
@[simp] theorem Slot.wm_tcause (t : Slot) (k : Nat) (x : W32) : (t.wm k x).tcause = t.tcause := by
  unfold Slot.wm; split <;> rfl
@[simp] theorem Slot.wm_ulivec (t : Slot) (k : Nat) (x : W32) : (t.wm k x).ulivec = t.ulivec := by
  unfold Slot.wm; split <;> rfl
@[simp] theorem Slot.wm_sticky (t : Slot) (k : Nat) (x : W32) : (t.wm k x).sticky = t.sticky := by
  unfold Slot.wm; split <;> rfl
@[simp] theorem Slot.wm_timer (t : Slot) (k : Nat) (x : W32) : (t.wm k x).timer = t.timer := by
  unfold Slot.wm; split <;> rfl
@[simp] theorem Slot.wm_lin (t : Slot) (k : Nat) (x : W32) : (t.wm k x).lin = t.lin := by
  unfold Slot.wm; split <;> rfl
@[simp] theorem Slot.wm_curj (t : Slot) (k : Nat) (x : W32) : (t.wm k x).curj = t.curj := by
  unfold Slot.wm; split <;> rfl
@[simp] theorem Slot.wm_st (t : Slot) (k : Nat) (x : W32) : (t.wm k x).st = t.st := by
  unfold Slot.wm; split <;> rfl
@[simp] theorem Slot.wm_level (t : Slot) (k : Nat) (x : W32) : (t.wm k x).level = t.level := by
  unfold Slot.wm; split <;> rfl
@[simp] theorem Slot.wm_ue (t : Slot) (k : Nat) (x : W32) : (t.wm k x).ue = t.ue := by
  unfold Slot.wm; split <;> rfl
@[simp] theorem Slot.wm_ua (t : Slot) (k : Nat) (x : W32) : (t.wm k x).ua = t.ua := by
  unfold Slot.wm; split <;> rfl
@[simp] theorem Slot.wm_tul (t : Slot) (k : Nat) (x : W32) : (t.wm k x).tul = t.tul := by
  unfold Slot.wm; split <;> rfl
@[simp] theorem Slot.wm_tpend (t : Slot) (k : Nat) (x : W32) : (t.wm k x).tpend = t.tpend := by
  unfold Slot.wm; split <;> rfl
@[simp] theorem Slot.wm_timerInt (t : Slot) (k : Nat) (x : W32) : (t.wm k x).timerInt = t.timerInt := by
  unfold Slot.wm; split <;> rfl
@[simp] theorem Slot.wm_imv (t : Slot) (k : Nat) (x : W32) : (t.wm k x).imv = t.imv := by
  unfold Slot.wm; split <;> rfl
@[simp] theorem Slot.wm_mark (t : Slot) (k : Nat) (x : W32) : (t.wm k x).mark = t.mark := by
  unfold Slot.wm; split <;> rfl
@[simp] theorem Slot.wm_mst (t : Slot) (k : Nat) (x : W32) : (t.wm k x).mst = t.mst := by
  unfold Slot.wm; split <;> rfl
@[simp] theorem Slot.wm_chan (t : Slot) (k : Nat) (x : W32) : (t.wm k x).chan = t.chan := by
  unfold Slot.wm; split <;> rfl
@[simp] theorem Slot.wm_trapov (t : Slot) (k : Nat) (x : W32) : (t.wm k x).trapov = t.trapov := by
  unfold Slot.wm; split <;> rfl
@[simp] theorem Slot.wm_pub (t : Slot) (k : Nat) (x : W32) : (t.wm k x).pub = t.pub := by
  unfold Slot.wm; split <;> rfl
@[simp] theorem Slot.wm_skew (t : Slot) (k : Nat) (x : W32) : (t.wm k x).skew = t.skew := by
  unfold Slot.wm; split <;> rfl
@[simp] theorem Slot.wm_ending (t : Slot) (k : Nat) (x : W32) : (t.wm k x).ending = t.ending := by
  unfold Slot.wm; split <;> rfl
@[simp] theorem Slot.wm_asked (t : Slot) (k : Nat) (x : W32) : (t.wm k x).asked = t.asked := by
  unfold Slot.wm; split <;> rfl
@[simp] theorem Slot.wm_due (t : Slot) (k : Nat) (x : W32) : (t.wm k x).due = t.due := by
  unfold Slot.wm; split <;> rfl
@[simp] theorem Slot.wm_members (t : Slot) (k : Nat) (x : W32) : (t.wm k x).members = t.members := by
  unfold Slot.wm; split <;> rfl
@[simp] theorem Slot.wm_rdv (t : Slot) (k : Nat) (x : W32) : (t.wm k x).rdv = t.rdv := by
  unfold Slot.wm; split <;> rfl
@[simp] theorem Slot.wm_late (t : Slot) (k : Nat) (x : W32) : (t.wm k x).late = t.late := by
  unfold Slot.wm; split <;> rfl
@[simp] theorem Slot.wm_held (t : Slot) (k : Nat) (x : W32) : (t.wm k x).held = t.held := by
  unfold Slot.wm; split <;> rfl
@[simp] theorem Slot.wm_npc (t : Slot) (k : Nat) (x : W32) : (t.wm k x).npc = t.npc := by
  unfold Slot.wm; split <;> rfl
@[simp] theorem Slot.wm_stop (t : Slot) (k : Nat) (x : W32) : (t.wm k x).stop = t.stop := by
  unfold Slot.wm; split <;> rfl
@[simp] theorem Slot.wm_stopped (t : Slot) (k : Nat) (x : W32) : (t.wm k x).stopped = t.stopped := by
  unfold Slot.wm; split <;> rfl
@[simp] theorem Slot.wm_doomed (t : Slot) (k : Nat) (x : W32) : (t.wm k x).doomed = t.doomed := by
  unfold Slot.wm; split <;> rfl
@[simp] theorem Slot.wm_last (t : Slot) (k : Nat) (x : W32) : (t.wm k x).last = t.last := by
  unfold Slot.wm; split <;> rfl
@[simp] theorem Slot.wm_gap (t : Slot) (k : Nat) (x : W32) : (t.wm k x).gap = t.gap := by
  unfold Slot.wm; split <;> rfl
@[simp] theorem Slot.wm_bar (t : Slot) (k : Nat) (x : W32) : (t.wm k x).bar = t.bar := by
  unfold Slot.wm; split <;> rfl
@[simp] theorem Slot.wm_relaxed (t : Slot) (k : Nat) (x : W32) : (t.wm k x).relaxed = t.relaxed := by
  unfold Slot.wm; split <;> rfl
@[simp] theorem Slot.wm_caddy (t : Slot) (k : Nat) (x : W32) : (t.wm k x).caddy = t.caddy := by
  unfold Slot.wm; split <;> rfl
@[simp] theorem Slot.wm_mail (t : Slot) (k : Nat) (x : W32) : (t.wm k x).mail = t.mail := by
  unfold Slot.wm; split <;> rfl
@[simp] theorem Slot.wm_mailHeld (t : Slot) (k : Nat) (x : W32) : (t.wm k x).mailHeld = t.mailHeld := by
  unfold Slot.wm; split <;> rfl
@[simp] theorem Slot.wm_credits (t : Slot) (k : Nat) (x : W32) : (t.wm k x).credits = t.credits := by
  unfold Slot.wm; split <;> rfl
@[simp] theorem Core.count_mem (x : Core) (i n : Nat) : (x.count i n).mem = x.mem := by
  unfold Core.count; split <;> rfl
@[simp] theorem Core.count_fe (x : Core) (i n : Nat) : (x.count i n).fe = x.fe := by
  unfold Core.count; split <;> rfl
@[simp] theorem Core.count_err1 (x : Core) (i n : Nat) : (x.count i n).err1 = x.err1 := by
  unfold Core.count; split <;> rfl
@[simp] theorem Core.count_err2 (x : Core) (i n : Nat) : (x.count i n).err2 = x.err2 := by
  unfold Core.count; split <;> rfl
@[simp] theorem Core.count_k (x : Core) (i n : Nat) : (x.count i n).k = x.k := by
  unfold Core.count; split <;> rfl
@[simp] theorem Core.count_slots (x : Core) (i n : Nat) : (x.count i n).slots = x.slots := by
  unfold Core.count; split <;> rfl
@[simp] theorem Core.count_acc (x : Core) (i n : Nat) : (x.count i n).acc = x.acc := by
  unfold Core.count; split <;> rfl
@[simp] theorem Core.count_ring (x : Core) (i n : Nat) : (x.count i n).ring = x.ring := by
  unfold Core.count; split <;> rfl
@[simp] theorem Core.count_cx (x : Core) (i n : Nat) : (x.count i n).cx = x.cx := by
  unfold Core.count; split <;> rfl
@[simp] theorem Core.count_mx (x : Core) (i n : Nat) : (x.count i n).mx = x.mx := by
  unfold Core.count; split <;> rfl
@[simp] theorem Core.count_seqr (x : Core) (i n : Nat) : (x.count i n).seqr = x.seqr := by
  unfold Core.count; split <;> rfl
@[simp] theorem Core.count_div (x : Core) (i n : Nat) : (x.count i n).div = x.div := by
  unfold Core.count; split <;> rfl
@[simp] theorem Core.count_divEnd (x : Core) (i n : Nat) : (x.count i n).divEnd = x.divEnd := by
  unfold Core.count; split <;> rfl
@[simp] theorem Core.count_scan (x : Core) (i n : Nat) : (x.count i n).scan = x.scan := by
  unfold Core.count; split <;> rfl
@[simp] theorem Core.count_cq (x : Core) (i n : Nat) : (x.count i n).cq = x.cq := by
  unfold Core.count; split <;> rfl
@[simp] theorem Core.count_su (x : Core) (i n : Nat) : (x.count i n).su = x.su := by
  unfold Core.count; split <;> rfl
@[simp] theorem Core.count_port (x : Core) (i n : Nat) : (x.count i n).port = x.port := by
  unfold Core.count; split <;> rfl
@[simp] theorem Core.count_pipe (x : Core) (i n : Nat) : (x.count i n).pipe = x.pipe := by
  unfold Core.count; split <;> rfl
@[simp] theorem Core.count_dq (x : Core) (i n : Nat) : (x.count i n).dq = x.dq := by
  unfold Core.count; split <;> rfl
@[simp] theorem Core.count_owed (x : Core) (i n : Nat) : (x.count i n).owed = x.owed := by
  unfold Core.count; split <;> rfl
@[simp] theorem Core.count_feWait (x : Core) (i n : Nat) : (x.count i n).feWait = x.feWait := by
  unfold Core.count; split <;> rfl
@[simp] theorem Core.count_snaps (x : Core) (i n : Nat) : (x.count i n).snaps = x.snaps := by
  unfold Core.count; split <;> rfl
@[simp] theorem Core.count_ist (x : Core) (i n : Nat) : (x.count i n).ist = x.ist := by
  unfold Core.count; split <;> rfl
@[simp] theorem Core.count_istNext (x : Core) (i n : Nat) : (x.count i n).istNext = x.istNext := by
  unfold Core.count; split <;> rfl
@[simp] theorem Core.count_istBar (x : Core) (i n : Nat) : (x.count i n).istBar = x.istBar := by
  unfold Core.count; split <;> rfl
@[simp] theorem Core.count_banked (x : Core) (i n : Nat) : (x.count i n).banked = x.banked := by
  unfold Core.count; split <;> rfl
@[simp] theorem Core.count_restart (x : Core) (i n : Nat) : (x.count i n).restart = x.restart := by
  unfold Core.count; split <;> rfl
@[simp] theorem Core.count_busy (x : Core) (i n : Nat) : (x.count i n).busy = x.busy := by
  unfold Core.count; split <;> rfl
@[simp] theorem Core.count_netq (x : Core) (i n : Nat) : (x.count i n).netq = x.netq := by
  unfold Core.count; split <;> rfl
@[simp] theorem Core.count_amq (x : Core) (i n : Nat) : (x.count i n).amq = x.amq := by
  unfold Core.count; split <;> rfl
@[simp] theorem Core.count_trapq (x : Core) (i n : Nat) : (x.count i n).trapq = x.trapq := by
  unfold Core.count; split <;> rfl
@[simp] theorem Core.count_gang (x : Core) (i n : Nat) : (x.count i n).gang = x.gang := by
  unfold Core.count; split <;> rfl
@[simp] theorem Core.count_rank (x : Core) (i n : Nat) : (x.count i n).rank = x.rank := by
  unfold Core.count; split <;> rfl
@[simp] theorem Core.count_gsize (x : Core) (i n : Nat) : (x.count i n).gsize = x.gsize := by
  unfold Core.count; split <;> rfl
@[simp] theorem Core.count_psize (x : Core) (i n : Nat) : (x.count i n).psize = x.psize := by
  unfold Core.count; split <;> rfl
@[simp] theorem Core.count_stage (x : Core) (i n : Nat) : (x.count i n).stage = x.stage := by
  unfold Core.count; split <;> rfl
@[simp] theorem Core.count_pin (x : Core) (i n : Nat) : (x.count i n).pin = x.pin := by
  unfold Core.count; split <;> rfl
@[simp] theorem Core.count_hand (x : Core) (i n : Nat) : (x.count i n).hand = x.hand := by
  unfold Core.count; split <;> rfl
@[simp] theorem Core.count_preempt (x : Core) (i n : Nat) : (x.count i n).preempt = x.preempt := by
  unfold Core.count; split <;> rfl
@[simp] theorem Core.count_woken (x : Core) (i n : Nat) : (x.count i n).woken = x.woken := by
  unfold Core.count; split <;> rfl
@[simp] theorem Core.count_flags (x : Core) (i n : Nat) : (x.count i n).flags = x.flags := by
  unfold Core.count; split <;> rfl
@[simp] theorem Core.count_zeroed (x : Core) (i n : Nat) : (x.count i n).zeroed = x.zeroed := by
  unfold Core.count; split <;> rfl
@[simp] theorem Core.count_pushWait (x : Core) (i n : Nat) : (x.count i n).pushWait = x.pushWait := by
  unfold Core.count; split <;> rfl
@[simp] theorem Core.count_taken (x : Core) (i n : Nat) : (x.count i n).taken = x.taken := by
  unfold Core.count; split <;> rfl
@[simp] theorem Core.count_engaged (x : Core) (i n : Nat) : (x.count i n).engaged = x.engaged := by
  unfold Core.count; split <;> rfl
@[simp] theorem Core.count_scrub (x : Core) (i n : Nat) : (x.count i n).scrub = x.scrub := by
  unfold Core.count; split <;> rfl
@[simp] theorem Core.count_scrubAt (x : Core) (i n : Nat) : (x.count i n).scrubAt = x.scrubAt := by
  unfold Core.count; split <;> rfl
@[simp] theorem State.capture_now (s : State) (w : W32) : (s.capture w).now = s.now := by
  unfold State.capture; split <;> rfl
@[simp] theorem State.capture_turn (s : State) (w : W32) : (s.capture w).turn = s.turn := by
  unfold State.capture; split <;> rfl
@[simp] theorem State.capture_early (s : State) (w : W32) : (s.capture w).early = s.early := by
  unfold State.capture; split <;> rfl
@[simp] theorem State.capture_agenda (s : State) (w : W32) : (s.capture w).agenda = s.agenda := by
  unfold State.capture; split <;> rfl
@[simp] theorem State.capture_cur (s : State) (w : W32) : (s.capture w).cur = s.cur := by
  unfold State.capture; split <;> rfl
@[simp] theorem State.capture_nonce (s : State) (w : W32) : (s.capture w).nonce = s.nonce := by
  unfold State.capture; split <;> rfl
@[simp] theorem State.capture_dieq (s : State) (w : W32) : (s.capture w).dieq = s.dieq := by
  unfold State.capture; split <;> rfl
@[simp] theorem State.capture_hub (s : State) (w : W32) : (s.capture w).hub = s.hub := by
  unfold State.capture; split <;> rfl
@[simp] theorem State.capture_hbm (s : State) (w : W32) : (s.capture w).hbm = s.hbm := by
  unfold State.capture; split <;> rfl
@[simp] theorem State.capture_host (s : State) (w : W32) : (s.capture w).host = s.host := by
  unfold State.capture; split <;> rfl
@[simp] theorem State.capture_mg (s : State) (w : W32) : (s.capture w).mg = s.mg := by
  unfold State.capture; split <;> rfl
@[simp] theorem State.stick_now (s : State) (c i : Nat) (b : W64) : (s.stick c i b).now = s.now := by
  unfold State.stick; split <;> rfl
@[simp] theorem State.stick_turn (s : State) (c i : Nat) (b : W64) : (s.stick c i b).turn = s.turn := by
  unfold State.stick; split <;> rfl
@[simp] theorem State.stick_early (s : State) (c i : Nat) (b : W64) : (s.stick c i b).early = s.early := by
  unfold State.stick; split <;> rfl
@[simp] theorem State.stick_agenda (s : State) (c i : Nat) (b : W64) : (s.stick c i b).agenda = s.agenda := by
  unfold State.stick; split <;> rfl
@[simp] theorem State.stick_cur (s : State) (c i : Nat) (b : W64) : (s.stick c i b).cur = s.cur := by
  unfold State.stick; split <;> rfl
@[simp] theorem State.stick_nonce (s : State) (c i : Nat) (b : W64) : (s.stick c i b).nonce = s.nonce := by
  unfold State.stick; split <;> rfl
@[simp] theorem State.stick_dieq (s : State) (c i : Nat) (b : W64) : (s.stick c i b).dieq = s.dieq := by
  unfold State.stick; split <;> rfl
@[simp] theorem State.stick_hub (s : State) (c i : Nat) (b : W64) : (s.stick c i b).hub = s.hub := by
  unfold State.stick; split <;> rfl
@[simp] theorem State.stick_hbm (s : State) (c i : Nat) (b : W64) : (s.stick c i b).hbm = s.hbm := by
  unfold State.stick; split <;> rfl
@[simp] theorem State.stick_host (s : State) (c i : Nat) (b : W64) : (s.stick c i b).host = s.host := by
  unfold State.stick; split <;> rfl
@[simp] theorem State.stick_mg (s : State) (c i : Nat) (b : W64) : (s.stick c i b).mg = s.mg := by
  unfold State.stick; split <;> rfl
@[simp] theorem State.corrected_now (s : State) (n : Nat) : (s.corrected n).now = s.now := by
  unfold State.corrected; split <;> rfl
@[simp] theorem State.corrected_turn (s : State) (n : Nat) : (s.corrected n).turn = s.turn := by
  unfold State.corrected; split <;> rfl
@[simp] theorem State.corrected_early (s : State) (n : Nat) : (s.corrected n).early = s.early := by
  unfold State.corrected; split <;> rfl
@[simp] theorem State.corrected_agenda (s : State) (n : Nat) : (s.corrected n).agenda = s.agenda := by
  unfold State.corrected; split <;> rfl
@[simp] theorem State.corrected_cur (s : State) (n : Nat) : (s.corrected n).cur = s.cur := by
  unfold State.corrected; split <;> rfl
@[simp] theorem State.corrected_nonce (s : State) (n : Nat) : (s.corrected n).nonce = s.nonce := by
  unfold State.corrected; split <;> rfl
@[simp] theorem State.corrected_cores (s : State) (n : Nat) : (s.corrected n).cores = s.cores := by
  unfold State.corrected; split <;> rfl
@[simp] theorem State.corrected_dieq (s : State) (n : Nat) : (s.corrected n).dieq = s.dieq := by
  unfold State.corrected; split <;> rfl
@[simp] theorem State.corrected_hub (s : State) (n : Nat) : (s.corrected n).hub = s.hub := by
  unfold State.corrected; split <;> rfl
@[simp] theorem State.corrected_hbm (s : State) (n : Nat) : (s.corrected n).hbm = s.hbm := by
  unfold State.corrected; split <;> rfl
@[simp] theorem State.corrected_host (s : State) (n : Nat) : (s.corrected n).host = s.host := by
  unfold State.corrected; split <;> rfl

end Sys2Proof.Machine
end

