-- ==== Sys2Proof/Laws/Ops.lean ====
section
/-! SUPPORT. What a read finds after an update: tables, vectors, cores, slots and registers; and what each shared
operation can do. -/

namespace Sys2Proof.Machine

/-! ### Tables and vectors -/

theorem tget_tput_same {α : Type} (d : α) (k : Nat) (x : α) (l : List (Nat × α)) : tget d k (tput k x l) = x := by
  induction l with
  | nil => simp [tput, tget]
  | cons e l ih =>
    simp only [tput]
    split
    · simp [tget]
    · split
      · simp [tget]
      · simp [tget, *]

theorem tget_tput_other {α : Type} (d : α) {k j : Nat} (h : j ≠ k) (x : α) (l : List (Nat × α)) :
    tget d j (tput k x l) = tget d j l := by
  induction l with
  | nil => simp [tput, tget, Ne.symm h]
  | cons e l ih =>
    simp only [tput]
    split
    · next he => simp [tget, he, Ne.symm h]
    · split
      · simp [tget, Ne.symm h]
      · simp [tget, ih]

theorem tput_tput {α : Type} (k : Nat) (x y : α) (l : List (Nat × α)) : tput k x (tput k y l) = tput k x l := by
  induction l with
  | nil => simp [tput]
  | cons e l ih =>
    simp only [tput]
    split
    · simp [tput]
    · split
      · simp [tput]
      · simp [tput, *]

theorem vget_vset_same {α : Type} {n : Nat} (v : Vector α n) {i : Nat} (h : i < n) (x d : α) :
    vget (vset v i x) i d = x := by
  simp [vget, vset, List.getD_eq_getElem?_getD, h]

theorem vget_vset_other {α : Type} {n : Nat} (v : Vector α n) {i j : Nat} (h : j ≠ i) (x d : α) :
    vget (vset v i x) j d = vget v j d := by
  by_cases hj : j < n
  · simp [vget, vset, List.getD_eq_getElem?_getD, hj, Ne.symm h]
  · simp [vget, vset, List.getD_eq_getElem?_getD, hj]

theorem vset_vset {α : Type} {n : Nat} (v : Vector α n) (i : Nat) (x y : α) : vset (vset v i x) i y = vset v i y := by
  ext j hj
  simp only [vset, Vector.getElem_setIfInBounds]
  split <;> rfl

theorem vset_vset_comm {α : Type} {n : Nat} (v : Vector α n) {i j : Nat} (h : i ≠ j) (x y : α) :
    vset (vset v i x) j y = vset (vset v j y) i x := by
  ext k hk
  simp only [vset, Vector.getElem_setIfInBounds]
  split <;> split <;> simp_all

/-! ### Cores and slots -/

@[simp] theorem core_setCore_same (s : State) (c : Nat) (x : Core) : (s.setCore c x).core c = x := by
  simp [State.setCore, State.core, tget_tput_same]

theorem core_setCore_other (s : State) {c k : Nat} (h : k ≠ c) (x : Core) : (s.setCore c x).core k = s.core k := by
  simp [State.setCore, State.core, tget_tput_other _ h]

@[simp] theorem setCore_setCore (s : State) (c : Nat) (x y : Core) : (s.setCore c x).setCore c y = s.setCore c y := by
  simp [State.setCore, tput_tput]

theorem core_modCore_same (s : State) (c : Nat) (f : Core → Core) : (s.modCore c f).core c = f (s.core c) := by
  simp [State.modCore]

theorem core_modCore_other (s : State) {c k : Nat} (h : k ≠ c) (f : Core → Core) : (s.modCore c f).core k = s.core k := by
  simp [State.modCore, core_setCore_other s h]

theorem slot_setSlot_same (x : Core) {i : Nat} (h : i < 16) (t : Slot) : (x.setSlot i t).slot i = t := by
  simp [Core.setSlot, Core.slot, vget_vset_same _ h]

theorem slot_setSlot_other (x : Core) {i j : Nat} (h : j ≠ i) (t : Slot) : (x.setSlot i t).slot j = x.slot j := by
  simp [Core.setSlot, Core.slot, vget_vset_other _ h]

theorem setSlot_setSlot (x : Core) (i : Nat) (t u : Slot) : (x.setSlot i t).setSlot i u = x.setSlot i u := by
  simp [Core.setSlot, vset_vset]

theorem slot_modSlot_same (s : State) (c : Nat) {i : Nat} (h : i < 16) (f : Slot → Slot) :
    (s.modSlot c i f).slot c i = f (s.slot c i) := by
  simp [State.modSlot, State.setSlot, State.slot, slot_setSlot_same _ h]

theorem slot_modSlot_other (s : State) {c i k j : Nat} (h : (k, j) ≠ (c, i)) (f : Slot → Slot) :
    (s.modSlot c i f).slot k j = s.slot k j := by
  by_cases hk : k = c
  · subst hk
    have hj : j ≠ i := fun e => h (by rw [e])
    simp [State.modSlot, State.setSlot, State.slot, slot_setSlot_other _ hj]
  · simp [State.modSlot, State.setSlot, State.slot, core_setCore_other s hk]

theorem me_modMe (s : State) (h : s.cur.2 < 16) (f : Slot → Slot) : (s.modMe f).me = f s.me :=
  slot_modSlot_same s s.cur.1 h f

theorem my_modMy (s : State) (f : Core → Core) : (s.modMy f).my = f s.my := core_modCore_same s s.cur.1 f

/-! ### Registers (R11, R305) -/

theorem rs_zero (t : Slot) : t.rs 0 = 0 := by simp [Slot.rs]

theorem rs_ws_same (t : Slot) {a : Nat} (h : a ≠ 0) (ha : a < 64) (x : W64) : (t.ws a x).rs a = x := by
  unfold Slot.ws Slot.rs
  simp only [h, ↓reduceIte]
  by_cases hb : (t.ua && 56 ≤ a) = true
  · simp only [hb, ↓reduceIte]
    rw [vget_vset_same _ (by omega)]
  · simp only [hb]
    simp only [Bool.false_eq_true, ↓reduceIte, hb]
    rw [vget_vset_same _ ha]

theorem rs_ws_other (t : Slot) {a b : Nat} (h : b ≠ a) (x : W64) : (t.ws a x).rs b = t.rs b := by
  by_cases ha : a = 0
  · simp [Slot.ws, ha]
  by_cases hb : b = 0
  · simp [Slot.rs, hb]
  by_cases hu : (t.ua && 56 ≤ a) = true
  · simp only [Slot.ws, Slot.rs, ha, hb, hu, ↓reduceIte]
    split
    · rw [vget_vset_other _ (by simp_all; omega)]
    · rfl
  · simp only [Slot.ws, Slot.rs, ha, hb, hu, ↓reduceIte, Bool.false_eq_true]
    split
    · rfl
    · rw [vget_vset_other _ h]

theorem rm_wm_same (t : Slot) {k : Nat} (h : k ≠ 0) (hk : k < 8) (x : W32) : (t.wm k x).rm k = x := by
  simp [Slot.wm, Slot.rm, h, vget_vset_same _ hk]

theorem rm_wm_other (t : Slot) {k j : Nat} (h : j ≠ k) (x : W32) : (t.wm k x).rm j = t.rm j := by
  by_cases hk : k = 0
  · simp [Slot.wm, hk]
  · simp [Slot.wm, Slot.rm, hk, vget_vset_other _ h]

theorem rv_wv_same (t : Slot) {k : Nat} (h : k < 32) (x : VReg) : (t.wv k x).rv k = x := by
  simp [Slot.wv, Slot.rv, vget_vset_same _ h]

theorem rv_wv_other (t : Slot) {k j : Nat} (h : j ≠ k) (x : VReg) : (t.wv k x).rv j = t.rv j := by
  simp [Slot.wv, Slot.rv, vget_vset_other _ h]

theorem rp_wp_same (t : Slot) {k : Nat} (h : k ≠ 0) (hk : k < 8) (b : Bool) : (t.wp k b).rp k = b := by
  cases b <;> simp [Slot.wp, Slot.rp, h, hk]

theorem rp_wp_other (t : Slot) {k j : Nat} (h : j ≠ k) (b : Bool) : (t.wp k b).rp j = t.rp j := by
  by_cases hk : k = 0
  · simp [Slot.wp, hk]
  by_cases hj : j < 8
  · rcases Nat.lt_or_gt_of_ne h with h1 | h1
    · cases b <;> simp [Slot.wp, Slot.rp, hk, hj, h1]
    · have h2 : j - k ≠ 0 := by omega
      have h3 : ¬ j < k := by omega
      cases b <;> simp [Slot.wp, Slot.rp, hk, hj, h2, h3]
  · simp [Slot.rp, BitVec.getLsbD_of_ge _ _ (Nat.le_of_not_lt hj)]

/-- An access that meets no single-bit error corrects none (R20). -/
theorem touch_nil (s : State) (c a n : Nat) (h : (s.core c).err1 = []) : s.touch c a n = s := by
  unfold State.touch
  rw [h]

/-- No word of a core without a double-bit error is bad (R20). -/
theorem bad_nil (x : Core) (a n : Nat) (h : x.err2 = []) : x.bad a n = false := by
  unfold Core.bad
  rw [h]

end Sys2Proof.Machine
end

