-- ==== Sys2Proof/Laws/Memory.lean ====
section
/-! SUPPORT. Every memory operation keeps the canonical form, and the list of cores stays in order. -/

namespace Sys2Proof.Machine

/-- The canonical form of a memory whose first entry is known: what follows lies above it. -/
theorem Memory.wf_cons (c : Host.Cell) (m : List Host.Cell) :
    Memory.wf (c :: m) = true ↔ c.2 ≠ Memory.default ∧ (∀ e ∈ m.head?, c.1 < e.1) ∧ Memory.wf m = true := by
  cases m with
  | nil => simp [Memory.wf]
  | cons d m => simp [Memory.wf, and_assoc]

/-- What heads a memory after a byte has been written lies no lower than the byte or the old head. -/
theorem Memory.put_head (m : List Host.Cell) (a : Nat) (b : Byte) (k : Nat) (hk : k < a) (hm : Memory.wf m = true)
    (h : ∀ e ∈ m.head?, k < e.1) : ∀ e ∈ (Memory.put m a b).head?, k < e.1 := by
  cases m with
  | nil => unfold Memory.put; split <;> simp [hk]
  | cons c m =>
    have hc : k < c.1 := h c (by simp)
    have hw := (Memory.wf_cons c m).1 hm
    unfold Memory.put
    split
    · split
      · intro e he; exact lt_trans hc (hw.2.1 e he)
      · simp [hk]
    · split
      · split <;> simp [hc, hk]
      · simp [hc]

/-- Writing a byte keeps the canonical form. -/
theorem Memory.put_wf (m : List Host.Cell) (a : Nat) (b : Byte) (hm : Memory.wf m = true) : Memory.wf (Memory.put m a b) = true := by
  induction m with
  | nil => unfold Memory.put; split <;> simp_all [Memory.wf]
  | cons c m ih =>
    have hw := (Memory.wf_cons c m).1 hm
    unfold Memory.put
    split
    · rename_i h
      split
      · exact hw.2.2
      · rename_i hb; exact (Memory.wf_cons _ _).2 ⟨hb, h ▸ hw.2.1, hw.2.2⟩
    · split
      · rename_i h
        split
        · exact hm
        · rename_i hb; exact (Memory.wf_cons _ _).2 ⟨hb, by simpa using h, hm⟩
      · exact (Memory.wf_cons _ _).2 ⟨hw.1, Memory.put_head m a b c.1 (by omega) hw.2.2 hw.2.1, ih hw.2.2⟩

/-- Writing bytes keeps the canonical form. -/
theorem Memory.write_wf (m : List Host.Cell) (a n x : Nat) (hm : Memory.wf m = true) : Memory.wf (Memory.write m a n x) = true := by
  induction n generalizing m a x with
  | zero => exact hm
  | succ n ih => exact ih _ _ _ (Memory.put_wf m a _ hm)

/-- A core's write keeps its memory's canonical form. -/
theorem Core.wr_wf (x : Core) (a n v : Nat) (hm : Memory.wf x.mem = true) : Memory.wf (x.wr a n v).mem = true :=
  Memory.write_wf x.mem a n v hm

/-- An engine's write keeps it too. -/
theorem Core.engWr_wf (x : Core) (a n v : Nat) (hm : Memory.wf x.mem = true) : Memory.wf (x.engWr a n v).mem = true :=
  Memory.write_wf x.mem a n v hm

/-- What an entry of a table is after another is set: that one, or an old one. -/
theorem mem_tput {α : Type} (k : Nat) (x : α) (l : List (Nat × α)) : ∀ e ∈ tput k x l, e = (k, x) ∨ e ∈ l := by
  induction l with
  | nil => simp [tput]
  | cons c l ih =>
    intro e he
    unfold tput at he
    split at he
    · rcases List.mem_cons.1 he with h | h
      · exact .inl h
      · exact .inr (List.mem_cons_of_mem _ h)
    · split at he
      · rcases List.mem_cons.1 he with h | h
        · exact .inl h
        · exact .inr h
      · rcases List.mem_cons.1 he with h | h
        · exact .inr (h ▸ List.mem_cons_self ..)
        · exact (ih e h).imp id (List.mem_cons_of_mem _)

/-- Setting an entry keeps a table's keys in rising order. -/
theorem tput_rising {α : Type} (k : Nat) (x : α) (l : List (Nat × α)) (h : (l.map (·.1)).Pairwise (· < ·)) :
    ((tput k x l).map (·.1)).Pairwise (· < ·) := by
  induction l with
  | nil => simp [tput]
  | cons c l ih =>
    simp only [List.map_cons, List.pairwise_cons] at h
    unfold tput
    split
    · rename_i hk; simp only [List.map_cons, List.pairwise_cons]; exact ⟨hk ▸ h.1, h.2⟩
    · split
      · rename_i hk
        simp only [List.map_cons, List.pairwise_cons, List.mem_cons]
        exact ⟨fun j hj => hj.elim (fun e => e ▸ hk) (fun hj => lt_trans hk (h.1 j hj)), h.1, h.2⟩
      · rename_i h1 h2
        simp only [List.map_cons, List.pairwise_cons]
        refine ⟨fun j hj => ?_, ih h.2⟩
        obtain ⟨e, he, rfl⟩ := List.mem_map.1 hj
        rcases mem_tput k x l e he with rfl | he
        · show c.1 < k; omega
        · exact h.1 _ (List.mem_map_of_mem he)

/-- Setting a core with a canonical memory keeps the state canonical. -/
theorem canonical_setCore (s : State) (c : Nat) (x : Core) (h : s.canonical) (hx : Memory.wf x.mem = true) :
    (s.setCore c x).canonical :=
  ⟨tput_rising c x s.cores h.1, fun e he => (mem_tput c x s.cores e he).elim (fun h => h ▸ hx) (h.2.1 e), h.2.2⟩

/-- A core of a canonical state has a canonical memory. -/
theorem canonical_core (s : State) (c : Nat) (h : s.canonical) : Memory.wf (s.core c).mem = true := by
  have key : ∀ l : List (Nat × Core), (∀ e ∈ l, Memory.wf e.2.mem = true) → Memory.wf (tget Core.reset c l).mem = true := by
    intro l
    induction l with
    | nil => intro _; rfl
    | cons e l ih =>
      intro hl
      unfold tget
      split
      · exact hl e (List.mem_cons_self ..)
      · exact ih fun f hf => hl f (List.mem_cons_of_mem _ hf)
  exact key s.cores h.2.1

/-- Changing a core so that its memory stays canonical keeps the state canonical. -/
theorem canonical_modCore (s : State) (c : Nat) (f : Core → Core) (h : s.canonical)
    (hf : Memory.wf (s.core c).mem = true → Memory.wf (f (s.core c)).mem = true) : (s.modCore c f).canonical :=
  canonical_setCore s c _ h (hf (canonical_core s c h))

/-- Changing a slot keeps the state canonical. -/
theorem canonical_modSlot (s : State) (c i : Nat) (f : Slot → Slot) (h : s.canonical) : (s.modSlot c i f).canonical :=
  canonical_setCore s c _ h (canonical_core s c h)

/-- A write of HBM keeps the state canonical. -/
theorem canonical_hbm (s : State) (a n x : Nat) (h : s.canonical) :
    ({ s with hbm := Memory.write s.hbm a n x } : State).canonical := ⟨h.1, h.2.1, Memory.write_wf _ _ _ _ h.2.2.1, h.2.2.2⟩

/-- A write of host memory keeps the state canonical. -/
theorem canonical_host (s : State) (a n x : Nat) (h : s.canonical) :
    ({ s with host := Memory.write s.host a n x } : State).canonical := ⟨h.1, h.2.1, h.2.2.1, Memory.write_wf _ _ _ _ h.2.2.2⟩

end Sys2Proof.Machine
end

