-- ==== Sys2Proof/Laws/Bank.lean ====
section
/-! SUPPORT. What the account of banks and of engines changes: nothing but itself (R25, R247, R395). -/

namespace Sys2Proof.Machine

/-- A claim of banks leaves a core's memory. -/
@[simp] theorem Core.claim_mem (x : Core) (now : Nat) (l : List (Nat × Nat)) : (x.claim now l).mem = x.mem := rfl
/-- It leaves the FE bits. -/
@[simp] theorem Core.claim_fe (x : Core) (now : Nat) (l : List (Nat × Nat)) : (x.claim now l).fe = x.fe := rfl
/-- It leaves the slots. -/
@[simp] theorem Core.claim_slot (x : Core) (now : Nat) (l : List (Nat × Nat)) (i : Nat) : (x.claim now l).slot i = x.slot i := rfl

/-- A claim is of the cycle and bank of each access. -/
theorem Core.claim_taken (x : Core) (now : Nat) (l : List (Nat × Nat)) :
    (x.claim now l).taken = x.taken ++ l.map fun e => (now + e.1, e.2 % 64) := rfl

/-- With no bank taken no engine access waits. -/
theorem Core.bankBusy_nil (x : Core) (now : Nat) (ws : List Nat) (h : x.taken = []) : x.bankBusy now ws = false := by
  simp [Core.bankBusy, h]

/-- The account of a bundle is a claim at its core, with a note of the Strainer's reads. -/
theorem charge_eq (pre post : State) (c : Nat) (f : Option Nat) (is : List Instr) :
    ∃ l b, pre.charge post c f is = post.modCore c fun x => Core.claim { x with engaged := x.engaged || b } pre.now l :=
  ⟨_, _, rfl⟩

/-- The account of a bundle keeps every memory canonical. -/
theorem canonical_charge (pre post : State) (c : Nat) (f : Option Nat) (is : List Instr) (h : post.canonical) :
    (pre.charge post c f is).canonical := by
  obtain ⟨l, b, e⟩ := charge_eq pre post c f is
  rw [e]
  exact canonical_modCore post c _ h (by simp)

/-- The account of a bundle leaves every slot. -/
theorem slot_charge (pre post : State) (c k i : Nat) (f : Option Nat) (is : List Instr) :
    (pre.charge post c f is).slot k i = post.slot k i := by
  obtain ⟨l, b, e⟩ := charge_eq pre post c f is
  rw [e]
  by_cases hk : k = c
  · subst hk
    simp [State.slot, core_modCore_same, Core.claim, Core.slot]
  · simp [State.slot, core_modCore_other _ hk]

/-- Taking the banks of a slot's words keeps every memory canonical. -/
theorem canonical_takeBanks (s : State) (c : Nat) (ws : List Nat) (h : s.canonical) : (s.takeBanks c ws).canonical :=
  canonical_modCore s c _ h (by simp)

/-- It leaves every slot. -/
theorem slot_takeBanks (s : State) (c k i : Nat) (ws : List Nat) : (s.takeBanks c ws).slot k i = s.slot k i := by
  unfold State.takeBanks
  by_cases hk : k = c
  · subst hk
    simp [State.slot, core_modCore_same]
  · simp [State.slot, core_modCore_other _ hk]

/-- The note of an engine's accesses keeps every memory canonical. -/
theorem canonical_engage (s : State) (e : Event) (h : s.canonical) : (s.engage e).canonical := by
  unfold State.engage
  generalize s.engines e = l
  induction l generalizing s with
  | nil => exact h
  | cons c l ih => exact ih _ (canonical_modCore s c _ h (by simp))

/-- A step of no engine is taken in the state as it stands. -/
theorem engage_nil (s : State) (e : Event) (h : s.engines e = []) : s.engage e = s := by simp [State.engage, h]

end Sys2Proof.Machine
end

