-- ==== Sys2Proof/Laws/Bundle.lean ====
section
/-! SUPPORT. The end of a bundle: what each kind of result comes to, and that only the last word on a slot counts. -/

namespace Sys2Proof.Machine

theorem me_eq (s : State) : s.me = s.my.slot s.cur.2 := rfl

theorem modMe_eq (s : State) (f : Slot → Slot) :
    s.modMe f = s.setCore s.cur.1 (s.my.setSlot s.cur.2 (f s.me)) := rfl

theorem modMy_eq (s : State) (f : Core → Core) : s.modMy f = s.setCore s.cur.1 (f s.my) := rfl

@[simp] theorem my_setCore (s : State) (x : Core) : (s.setCore s.cur.1 x).my = x := core_setCore_same s s.cur.1 x

@[simp] theorem my_modMe (s : State) (f : Slot → Slot) : (s.modMe f).my = s.my.setSlot s.cur.2 (f s.me) := by
  simp [modMe_eq]

theorem me_setCore (s : State) (x : Core) : (s.setCore s.cur.1 x).me = x.slot s.cur.2 := by
  simp [State.me, State.slot]

theorem modMe_modMe (s : State) (h : s.Able) (f g : Slot → Slot) : (s.modMe f).modMe g = s.modMe fun t => g (f t) := by
  rw [modMe_eq (s.modMe f), me_modMe s h]
  simp [modMe_eq, setSlot_setSlot]

/-- Only the last core and slot of an issue count. -/
@[simp] theorem wentOn_setCore (s : State) (x y : Core) (u : Slot) : (s.setCore s.cur.1 x).wentOn y u = s.wentOn y u := by
  simp [State.wentOn]

@[simp] theorem wentOn_modMe (s : State) (f : Slot → Slot) (y : Core) (u : Slot) : (s.modMe f).wentOn y u = s.wentOn y u := by
  rw [modMe_eq]; simp

@[simp] theorem wentOn_modMy (s : State) (f : Core → Core) (y : Core) (u : Slot) : (s.modMy f).wentOn y u = s.wentOn y u := by
  rw [modMy_eq]; simp

@[simp] theorem wentOn_setSlot (s : State) (x : Core) (t u : Slot) : s.wentOn (x.setSlot s.cur.2 t) u = s.wentOn x u := by
  simp [State.wentOn, setSlot_setSlot]

theorem issued_eq (s : State) (h : s.Able) (u : Slot) :
    (s.modMe fun _ => u).issued = s.wentOn s.my u := by
  unfold State.issued State.wentOn
  rw [modMe_modMe s h, modMy_eq, modMe_eq]
  simp

/-- A result without a fault: the slot goes on behind its bundle. -/
theorem done_ok (s u : State) (v : Bool) (h : u.Able) : s.done v (.ok u) = .next (u.put u.me) := by
  unfold State.done State.finish State.finishBy State.put
  rw [← issued_eq u h]
  rfl

/-- A jump. -/
theorem done_jump (s u : State) (v : Bool) (pc : W64) (h : u.Able) :
    s.done v (.jump pc u) = .next (u.wentOn u.my { u.me with pc := pc }) := by
  unfold State.done State.finish State.finishBy
  rw [← issued_eq u h]
  rfl

/-- A wait after the bundle has issued. -/
theorem done_hold (s u : State) (v : Bool) (n : Option W64) (h : u.Able) :
    s.done v (.hold n u) = .next (u.wentOn u.my { u.me with npc := n.getD (u.me.pc + 8) }) := by
  unfold State.done State.finish State.finishBy
  rw [← issued_eq u h]
  rfl

/-- A trap: the bundle has had no effect. -/
theorem done_trap (s : State) (v : Bool) (c : Nat) (d : W32) : s.done v (.trap c d) = .next (s.takeTrap c d v false) := rfl

/-- A wait before the bundle has had an effect. -/
theorem done_again (s : State) (v : Bool) (h : Held) :
    s.done v (.again h) = .next ((s.await .parked h).modMe fun t => { t with npc := t.pc }) := rfl

/-- Nothing of the slot but what `f` changes is changed, and the bundle's PC is the one before. -/
@[simp] theorem put_modMe (s : State) (h : s.Able) (f : Slot → Slot) (u : Slot) (hp : (f s.me).pc = s.me.pc) :
    (s.modMe f).put u = s.put u := by
  simp [State.put, me_modMe s h, hp]

/-- A bundle that goes on after a change of its core. -/
theorem put_modMy (s : State) (f : Core → Core) :
    (s.modMy f).put (s.modMy f).me
      = s.wentOn (f s.my) (((f s.my).slot s.cur.2).next ((f s.my).slot s.cur.2).pc) := by
  simp [State.put, modMy_eq, me_setCore]

/-- A bundle that goes on after a replacement of its core. -/
theorem put_setCore (s : State) (x : Core) :
    (s.setCore s.cur.1 x).put (s.setCore s.cur.1 x).me = s.wentOn x ((x.slot s.cur.2).next (x.slot s.cur.2).pc) := by
  simp [State.put, me_setCore]

/-- A bundle that goes on after a change of its slot. -/
theorem put_me (s : State) (h : s.Able) (f : Slot → Slot) :
    (s.modMe f).put (s.modMe f).me = s.wentOn s.my ((f s.me).next (f s.me).pc) := by
  simp [State.put, me_modMe s h]

/-- A slot that is set to await an operation after a change of its core. -/
theorem await_modMy (s : State) (h : s.Able) (f : Core → Core) (st : SlotSt) (a : Held) (n : Option W64) :
    let u := (s.modMy f).await st a
    u.wentOn u.my { u.me with npc := n.getD (u.me.pc + 8) }
      = s.wentOn (f s.my) { (f s.my).slot s.cur.2 with
          st := st, held := a, npc := n.getD (((f s.my).slot s.cur.2).pc + 8) } := by
  have h' : (s.modMy f).Able := by simpa using h
  simp only [State.await, me_modMe _ h']
  simp [modMy_eq, me_setCore]

/-! ### Queued events -/

@[simp] theorem my_after (s : State) (d : Nat) (e : Event) : (s.after d e).my = s.my := rfl
@[simp] theorem me_after (s : State) (d : Nat) (e : Event) : (s.after d e).me = s.me := rfl
@[simp] theorem core_after (s : State) (d : Nat) (e : Event) (c : Nat) : (s.after d e).core c = s.core c := rfl
@[simp] theorem slot_after (s : State) (d : Nat) (e : Event) (c i : Nat) : (s.after d e).slot c i = s.slot c i := rfl
theorem after_setCore (s : State) (d : Nat) (e : Event) (c : Nat) (x : Core) :
    (s.setCore c x).after d e = (s.after d e).setCore c x := rfl
theorem after_modMe (s : State) (d : Nat) (e : Event) (f : Slot → Slot) : (s.modMe f).after d e = (s.after d e).modMe f := rfl
theorem after_modMy (s : State) (d : Nat) (e : Event) (f : Core → Core) : (s.modMy f).after d e = (s.after d e).modMy f := rfl
theorem after_modCore (s : State) (d : Nat) (e : Event) (c : Nat) (f : Core → Core) :
    (s.modCore c f).after d e = (s.after d e).modCore c f := rfl

/-! ### Capture (R158) -/

@[simp] theorem capture_able (s : State) (w : W32) : (s.capture w).Able ↔ s.Able := by simp

theorem capture_direct (s : State) (w : W32) (h : s.Direct) : s.capture w = s := by
  unfold State.capture
  rcases h with h | h
  · simp [h]
  · simp [h.1]

@[simp] theorem capture_me (s : State) (w : W32) : (s.capture w).me = s.me := by
  unfold State.capture
  split
  · simp [modMy_eq, me_eq]; rfl
  · rfl

@[simp] theorem capture_rs (s : State) (w : W32) (a : Nat) : (s.capture w).rs a = s.rs a := by
  simp [State.rs]

/-- What a V syllable comes to where no sequence takes it. -/
theorem gate_direct (s : State) (w : W32) (ill : Bool) (k : State → Res) (h : s.Direct) : s.gate w ill k = k s := by
  unfold State.gate State.seqFault
  rcases h with h | ⟨h1, h2, h3⟩
  · simp [h, capture_direct s w (Or.inl h)]
  · simp only [h1, h2, h3]
    split
    · rw [capture_direct s w (Or.inr ⟨h1, h2, h3⟩)]
    · simp

/-- An S syllable alone that comes to a result without a fault. -/
theorem aloneS_ok (s u : State) (k : State → Res) (hk : k (s.capture 0) = .ok u) (h : u.Able) :
    s.aloneS k = .next (u.put u.me) := by
  unfold State.aloneS
  rw [hk, done_ok _ _ _ h]

/-- A V syllable alone that comes to a result without a fault. -/
theorem aloneV_ok (s u : State) (i : Instr) (ill : Bool) (k : State → Res) (hd : s.Direct) (hk : k s = .ok u) (h : u.Able) :
    s.aloneV i ill k = .next (u.put u.me) := by
  unfold State.aloneV
  rw [gate_direct s _ _ _ hd, hk, done_ok _ _ _ h]

/-- An S syllable alone whose slot then waits. -/
theorem aloneS_hold (s u : State) (k : State → Res) (n : Option W64) (hk : k (s.capture 0) = .hold n u) (h : u.Able) :
    s.aloneS k = .next (u.wentOn u.my { u.me with npc := n.getD (u.me.pc + 8) }) := by
  unfold State.aloneS
  rw [hk, done_hold _ _ _ _ h]

/-- A slot that is set to await an operation behind its bundle. -/
theorem await_wentOn (s : State) (h : s.Able) (st : SlotSt) (a : Held) (n : Option W64) :
    (s.await st a).wentOn (s.await st a).my { (s.await st a).me with npc := n.getD ((s.await st a).me.pc + 8) }
      = s.wentOn s.my { s.me with st := st, held := a, npc := n.getD (s.me.pc + 8) } := by
  simp [State.await, me_modMe s h]

/-- An S syllable that jumps. -/
theorem aloneS_jump (s u : State) (k : State → Res) (pc : W64) (hk : k (s.capture 0) = .jump pc u) (h : u.Able) :
    s.aloneS k = .next (u.wentOn u.my { u.me with pc := pc }) := by
  unfold State.aloneS
  rw [hk, done_jump _ _ _ _ h]

/-- An S syllable that traps. -/
theorem aloneS_trap (s : State) (k : State → Res) (c : Nat) (d : W32) (hk : k (s.capture 0) = .trap c d) :
    s.aloneS k = .next (s.takeTrap c d false false) := by
  unfold State.aloneS
  rw [hk, done_trap]

/-! ### The ends of a bundle -/

/-- A bundle that changes its core and goes on. -/
theorem done_okMy (s : State) (f : Core → Core) (v : Bool) (h : s.Able) :
    s.done v (.ok (s.modMy f)) = .next (s.wentOn (f s.my) (((f s.my).slot s.cur.2).next ((f s.my).slot s.cur.2).pc)) := by
  rw [done_ok _ _ _ (by simpa [State.Able] using h), put_modMy]

/-- A bundle that replaces its core and goes on. -/
theorem done_okSet (s : State) (x : Core) (v : Bool) (h : s.Able) :
    s.done v (.ok (s.setCore s.cur.1 x)) = .next (s.wentOn x ((x.slot s.cur.2).next (x.slot s.cur.2).pc)) := by
  rw [done_ok _ _ _ (by simpa [State.Able] using h), put_setCore]

/-- A bundle that changes its slot and goes on. -/
theorem done_okMe (s : State) (f : Slot → Slot) (v : Bool) (h : s.Able) :
    s.done v (.ok (s.modMe f)) = .next (s.wentOn s.my ((f s.me).next (f s.me).pc)) := by
  rw [done_ok _ _ _ (by simpa [State.Able] using h), put_me _ h]

/-- A bundle whose slot then waits. -/
theorem done_await (s : State) (st : SlotSt) (a : Held) (v : Bool) (n : Option W64) (h : s.Able) :
    s.done v (.hold n (s.await st a))
      = .next (s.wentOn s.my { s.me with st := st, held := a, npc := n.getD (s.me.pc + 8) }) := by
  rw [done_hold _ _ _ _ (by simpa [State.await, State.Able] using h), await_wentOn _ h]

/-- A bundle that changes its core, and whose slot then waits. -/
theorem done_awaitMy (s : State) (f : Core → Core) (st : SlotSt) (a : Held) (v : Bool) (n : Option W64) (h : s.Able) :
    s.done v (.hold n ((s.modMy f).await st a))
      = .next (s.wentOn (f s.my) { (f s.my).slot s.cur.2 with
          st := st, held := a, npc := n.getD (((f s.my).slot s.cur.2).pc + 8) }) := by
  rw [done_hold _ _ _ _ (by simpa [State.await, State.Able] using h), await_modMy _ h]

/-- A scalar register, a mask register, a predicate and a vector register are written in the slot alone. -/
theorem ws_eq (s : State) (d : Nat) (x : W64) : s.ws d x = s.modMe fun t => t.ws d x := rfl
theorem wm_eq (s : State) (d : Nat) (x : W32) : s.wm d x = s.modMe fun t => t.wm d x := rfl
theorem wp_eq (s : State) (d : Nat) (x : Bool) : s.wp d x = s.modMe fun t => t.wp d x := rfl
theorem wv_eq (s : State) (d : Nat) (x : VReg) : s.wv d x = s.modMe fun t => t.wv d x := rfl

end Sys2Proof.Machine
end

