-- ==== Sys2Proof/Laws/Segment.lean ====
section
/-! SUPPORT. What Seg answers (R17, R397), said once for each outcome. -/

namespace Sys2Proof.Machine

/-- Seg answers the local address of an access that it allows. -/
theorem segIn_ok (d : W128) (off : Int) (size : Nat) (k : AccKind) (h0 : 0 ≤ off) (h1 : off + size - 1 ≤ sgLimit d)
    (h2 : sgBase d + off + size ≤ 0x100000) (h3 : sgRights d k = true) :
    segIn d off size k = .at (sgBase d + off).toNat := by
  unfold segIn
  rw [if_neg (by simp only [Bool.or_eq_true, decide_eq_true_eq]; omega), if_neg (by omega), if_neg (by simp [h3])]

/-- A LOCAL-only access that is aligned, in its limit and allowed. -/
theorem seg0_ok (s : State) (off : Int) (size align : Nat) (k : AccKind) (h : s.segOk 0 off size align k) :
    s.seg0 off size align k = .at (s.la 0 off) := by
  obtain ⟨h1, h2, h3, h4, h5, h6⟩ := h
  unfold State.seg0 segLocal State.la
  rw [if_neg (by simp [h2]), if_neg (by simp [h1])]
  exact segIn_ok _ _ _ _ h3 h4 h5 h6

/-- A LOCAL-only access of a misaligned offset is an alignment fault. -/
theorem segLocal_align (d : W128) (off : Int) (size align : Nat) (k : AccKind) (h : off % align ≠ 0) :
    segLocal d off size align k = .bad cALIGN := by
  unfold segLocal
  rw [if_pos (by simpa using h)]

/-- An aligned LOCAL-only access through a descriptor of another space is a space fault. -/
theorem segLocal_space (d : W128) (off : Int) (size align : Nat) (k : AccKind) (h : off % align = 0) (h1 : sgSpace d ≠ 1) :
    segLocal d off size align k = .bad cSPACE := by
  unfold segLocal
  rw [if_neg (by simp [h]), if_pos (by simpa using h1)]

/-- An access past its limit is a limit fault. -/
theorem segIn_limit (d : W128) (off : Int) (size : Nat) (k : AccKind) (h : off < 0 ∨ sgLimit d < off + size - 1) :
    segIn d off size k = .bad cSEGLIMIT := by
  unfold segIn
  rw [if_pos (by simp only [Bool.or_eq_true, decide_eq_true_eq]; omega)]

end Sys2Proof.Machine
end

