-- ==== Sys2Proof/Laws/Wait.lean ====
section
/-! SUPPORT. What an arrival at a core, the end of a slot's wait and a reply of the hub come to. -/

namespace Sys2Proof.Machine

/-- What arrives at a core that is neither banked nor restarting acts at once. -/
theorem arrive_live (s : State) (c : Nat) (e : Event) (k : State → State) (h : s.live c) : s.arrive c e k = k (s.busied c) := by
  unfold State.arrive
  dsimp only
  rw [if_neg (by rw [h.1]; decide)]
  split
  · rename_i t ht
    rw [if_neg (Nat.not_lt.mpr (h.2 t ht))]; rfl
  · rfl

/-- The wait of a slot with no MMA in the unit ends: it goes on behind its bundle. -/
theorem wake_eq (s : State) (c i : Nat) (h : (s.core c).directMma i = false) :
    s.wake c i = s.woken c i (s.core c) (s.slot c i) := by
  unfold State.wake
  rw [if_neg (by rw [h]; decide)]
  simp [State.modSlot, State.setSlot, State.modCore, State.woken]

/-- The end of a slot's wait after its core and the slot have changed. -/
theorem wake_setSlot (s : State) (c i : Nat) (x : Core) (t : Slot) (hi : i < 16) (h : x.directMma i = false) :
    (s.setCore c (x.setSlot i t)).wake c i = s.woken c i x t := by
  rw [wake_eq _ _ _ (by simp only [core_setCore_same]; exact h)]
  simp [State.woken, State.slot, slot_setSlot_same x hi, setSlot_setSlot]

/-- A slot that awaits anything is one of the sixteen. -/
theorem slot_lt (s : State) (c i : Nat) (h : (s.slot c i).held ≠ .none) : i < 16 := by
  by_contra hh
  have : s.slot c i = Slot.reset := by simp [State.slot, Core.slot, vget, Nat.le_of_not_lt hh]
  rw [this] at h; exact h rfl

/-- A core that something has come about at differs in that alone. -/
theorem core_busied (s : State) (c : Nat) : (s.busied c).core c = { s.core c with busy := true } := by simp [State.busied]

theorem slot_busied (s : State) (c i : Nat) : (s.busied c).slot c i = s.slot c i := by
  unfold State.slot; rw [core_busied]; rfl

/-- The hub's reply to a block: its status in s[d], and the slot goes on. -/
theorem hubReply_busied (s : State) (c i d a st : Nat) (h : (s.slot c i).held = .hubcmd d a)
    (hm : (s.core c).directMma i = false) :
    (s.busied c).hubReply c i st
      = s.woken c i { s.core c with busy := true } ((s.slot c i).ws d (BitVec.ofNat 64 st)) := by
  have hi := slot_lt s c i (by rw [h]; exact fun h => by cases h)
  unfold State.hubReply
  rw [slot_busied, h]
  dsimp only
  unfold State.modSlot State.setSlot
  rw [slot_busied, core_busied]
  unfold State.busied
  simp only [setCore_setCore]
  exact wake_setSlot s c i _ _ hi hm

end Sys2Proof.Machine
end

