-- ==== Sys2Proof/Tests/Slice0.lean ====
section
/-! SUPPORT. The model's own tests: ill-formed terms that WellFormed refuses; words written out from the spec's encodings
and the instructions they decode to; single steps whose results come from the spec; and for each obligation with
hypotheses, states and operands that meet them. A theorem `witness_X` takes the obligation and applies each of its clauses
to a concrete state and operands, meeting every hypothesis of the clause on the way. -/

namespace Sys2Proof.Tests

open Sys2Proof Sys2Proof.Machine

-- One theorem at a time: an evaluation by the kernel keeps a thread of its own otherwise.
set_option Elab.async false

/-! ### A small machine -/

/-- A LOCAL segment over the whole local store with every right (R15, R16). -/
def sgAll : W128 := BitVec.ofNat 128 (0x100000 * 2 ^ 80 + 2 ^ 10 + 7)

/-- The core of `w`: brought up, in gang 0 of four ranks; its slot 0 is READY at supervisor level, with sg0 over the local
store, and all other slots as after reset. -/
def wc : Core :=
  { Core.reset with
    banked := false, gang := some 0, gsize := 4, psize := 8
    slots := Core.reset.slots.set 0 { Slot.reset with st := .ready, level := true, sg := Slot.reset.sg.set 0 sgAll } }

/-- Gang 0 of `w`: four ranks on cores 0 to 3, running (R352, R378). -/
def wGang : Gang where
  ctx := 1
  queue := 0
  seq := 0
  cls := 0
  st := .running
  desc := 0
  size := 4
  ranks := [⟨0, 0, false⟩, ⟨1, 1, false⟩, ⟨2, 2, false⟩, ⟨3, 3, false⟩]
  psize := 8
  caddy := Vector.replicate 8 ⟨10, 4, 0⟩
  since := 0
  waiter := false
  base := 0
  done := []
  askers := []
  kept := []
  reserved := []

/-- A machine whose core 0 executes a bundle of its slot 0. -/
def w : State := { State.reset with now := 100, agenda := [], cores := [(0, wc)], hub := { Hub.reset with gangs := [(0, wGang)] } }

/-- `w` with its core 0 changed. -/
def wC (f : Core → Core) : State := w.modCore 0 f

/-- `w` with its slot 0 changed. -/
def wS (f : Slot → Slot) : State := w.modSlot 0 0 f

/-- `w` with its hub changed. -/
def wH (f : Hub → Hub) : State := { w with hub := f w.hub }

/-- What stands behind four clauses of a statement. -/
theorem past4 {a b c d e : Prop} (h : a ∧ b ∧ c ∧ d ∧ e) : e := h.2.2.2.2
/-- What stands behind eight. -/
theorem past8 {a b c d e f g k r : Prop} (h : a ∧ b ∧ c ∧ d ∧ e ∧ f ∧ g ∧ k ∧ r) : r := past4 (past4 h)

theorem plain_of {s : State} {rs : List Nat} (h : (rs.all fun r => (s.bound s.cur.1 s.cur.2 r).isNone) = true) : s.plain rs :=
  fun r hr => by simpa using List.all_eq_true.mp h r hr

theorem live_of {s : State} {c : Nat} (h : (s.core c).banked = false) (h' : (s.core c).restart = none) : s.live c :=
  ⟨h, fun t ht => by simp [h'] at ht⟩

/-- A clause about an S syllable applies to a state that meets its hypotheses. -/
theorem goS {i ok post} {s : State} (h : SGoes i ok post) (hok : ok s) (hi : i.wf = true := by decide)
    (ha : s.Able := by decide +kernel) : Goes (exec i s) := ⟨_, h hi s ha hok⟩

/-- A clause about a V syllable applies to a state that meets its hypotheses. -/
theorem goV {i ok post} {s : State} (h : VGoes i ok post) (hok : ok s) (hi : i.wf = true := by decide)
    (ha : s.Able := by decide +kernel) (hd : s.Direct := by unfold State.Direct; decide +kernel) : Goes (exec i s) :=
  ⟨_, h hi s ha hd hok⟩

/-- A clause about a step of a unit applies to a state that meets its hypotheses. -/
theorem goE {i ok post} {s : State} (h : EGoes i ok post) (hok : ok s) : Goes (exec i s) := ⟨_, h s hok⟩

/-- What a computation that succeeds comes to. -/
def okOr {E A : Type} (d : A) : Except E A → A
  | .ok a => a
  | .error _ => d

theorem okOr_of {E A : Type} {d : A} {e : Except E A} (h : e.toBool = true) : e = .ok (okOr d e) := by
  cases e <;> simp_all [okOr, Except.toBool]

theorem ok_of {E A : Type} {a : A} {e : Except E A} (h : e.toOption = some a) : e = .ok a := by
  cases e <;> simp_all [Except.toOption]

/-! ### Witnesses: scalar and vector instructions -/

theorem witness_ScalarArithmetic (h : Obligations.ScalarArithmetic) :
    Goes (exec (.sext 63 63 63) w) ∧ Goes (exec (.rotr 4 5 63) w) ∧ Goes (exec (.brev 4 5) w) := by
  obtain ⟨-, -, -, h1, -⟩ := past4 (h.1 63 63 0 63 0 0 0)
  obtain ⟨h2, -⟩ := past4 (past8 (h.2.1 4 5 63 0))
  obtain ⟨-, -, -, _, h3, -⟩ := h.2.2 4 5 w (by decide +kernel)
  exact ⟨goS h1 trivial, goS h2 trivial, _, h3⟩

theorem witness_BitGatherAndScatter (h : Obligations.BitGatherAndScatter) : Goes (exec (.bdep 4 5 6) w) :=
  let ⟨_, hr, _⟩ := (h 4 5 6 w (by decide +kernel)).2
  ⟨_, hr⟩

/-- A core whose divide unit is in the last cycle of an operation of slot 0, with one more waiting or without. -/
def wDiv (l : List DivOp) (e : Option Nat) : State :=
  (wS fun t => { t with st := .parked, held := .divide }).modCore 0 fun x => { x with div := l, divEnd := e }

theorem witness_Divide (h : Obligations.Divide) : Goes (exec (.rem 4 5 6) w) ∧ Goes (exec (.divideStart 0) (wDiv [⟨0, 4, 7⟩] none))
    ∧ Goes (exec (.divideComplete 0) (wDiv [⟨0, 63, 7⟩, ⟨15, 4, 7⟩] (some 100))) := by
  obtain ⟨-, -, h1, -⟩ := h.1 4 5 6
  exact ⟨goS h1 trivial, ⟨_, (h.2 0 _).1 (by decide +kernel) (by decide +kernel)⟩,
    ⟨_, (h.2 0 (wDiv [⟨0, 63, 7⟩, ⟨15, 4, 7⟩] (some 100))).2 ⟨0, 63, 7⟩ [⟨15, 4, 7⟩] (by decide) (by decide +kernel)
      (by decide +kernel) (by decide +kernel) (by decide +kernel)⟩⟩

theorem witness_ComparesPredicatesAndMoves (h : Obligations.ComparesPredicatesAndMoves) :
    Goes (exec (.cmp 5 7 0 63) w) ∧ Goes (exec (.movk 4 191) w) ∧ Goes (exec (.vmovs 4 31 6) w)
      ∧ Goes (exec (.smovv 31 5 6) w) := by
  obtain ⟨h1, -⟩ := h.1 5 7 0 0 0 63 0 (by decide)
  obtain ⟨-, -, -, h2, -, h3, h4, -⟩ := h.2 4 5 6 0 31 191 (by decide)
  obtain ⟨_, hx, -⟩ := h4 w (by decide +kernel) (by decide +kernel)
  exact ⟨goS h1 trivial, goS h2 trivial, goS h3 (by decide +kernel), _, hx⟩

theorem witness_VectorFloat (h : Obligations.VectorFloat) :
    Goes (exec (.vadd 31 0 1 7 5) w) ∧ Goes (exec (.vmulScalar 31 0 63 7 1) w) ∧ Goes (exec (.vfnma 31 0 1 2 7 2) w)
      ∧ Goes (exec (.vmax 31 0 1 7 4) w) ∧ Goes (exec (.vsig 31 0 7 5) w) := by
  obtain ⟨h1, -⟩ := h.1 31 0 1 2 63 7 5 2
  obtain ⟨-, -, -, -, -, h2, -, -, h3⟩ := h.1 31 0 1 2 63 7 1 2
  obtain ⟨-, h4, -⟩ := h.2 31 0 1 7 4
  obtain ⟨-, -, -, h5⟩ := past8 (h.2 31 0 1 7 5)
  exact ⟨goV h1 (plain_of (by decide +kernel)), goV h2 (plain_of (by decide +kernel)), goV h3 (plain_of (by decide +kernel)),
    goV h4 (plain_of (by decide +kernel)), goV h5 (plain_of (by decide +kernel))⟩

/-- A trap says that the step goes on. -/
theorem goes_of_traps {o s c d v} (h : Traps o s c d v) : Goes o := ⟨_, h⟩

theorem witness_VectorConversionsAndCompares (h : Obligations.VectorConversionsAndCompares) :
    Goes (exec (.vcvtF16F32 31 0 1 7 3) w) ∧ Goes (exec (.vcvtF32I32 31 0 7 3) w) ∧ Goes (exec (.vcvtF32F16 31 0 7 7) w)
      ∧ Goes (exec (.vcmpOr 7 0 31 7 5) w) ∧ Goes (exec (.vcmpiLe 7 0 31 7 7) w) := by
  obtain ⟨h1, -, -, -, -, -, h2, -⟩ := h.1 31 0 1 7 3
  have h3 := past8 (h.1 31 0 1 7 7)
  obtain ⟨-, -, -, -, -, h4, -⟩ := h.2 7 0 31 7 5
  obtain ⟨-, h5⟩ := past8 (h.2 7 0 31 7 7)
  exact ⟨goV h1 (plain_of (by decide +kernel)), goV h2 (plain_of (by decide +kernel)),
    goes_of_traps (h3 (by decide) w (by decide +kernel) (by unfold State.Direct; decide +kernel) (plain_of (by decide +kernel))).1,
    goV h4 (plain_of (by decide +kernel)), goV h5 (plain_of (by decide +kernel))⟩

theorem witness_VectorIntegerArithmetic (h : Obligations.VectorIntegerArithmetic) :
    Goes (exec (.vmulhi 31 0 1 7 5) w) ∧ Goes (exec (.vnot 31 0 7 7) w) ∧ Goes (exec (.vmaxiScalar 31 0 63 7 7) w)
      ∧ Goes (exec (.vsraImm 31 0 63 7 7) w) := by
  obtain ⟨-, -, -, h1, -⟩ := h 31 0 1 63 63 7 5
  obtain ⟨-, -, h2, z6_1⟩ := past8 (h 31 0 1 63 63 7 7)
  obtain ⟨-, -, h3, -, -, h4, -⟩ := past8 z6_1
  exact ⟨goV h1 (plain_of (by decide +kernel)), goV h2 (plain_of (by decide +kernel)), goV h3 (plain_of (by decide +kernel)),
    goV h4 (plain_of (by decide +kernel))⟩

theorem witness_VectorSumsAndWidths (h : Obligations.VectorSumsAndWidths) :
    Goes (exec (.vmac2Sat 31 0 1 7 3) w) ∧ Goes (exec (.vdot4 31 0 1 7 5) w) ∧ Goes (exec (.vmac2 31 0 1 7 5) w)
      ∧ Goes (exec (.vdot4Sat 31 0 1 7 3) w) ∧ Goes (exec (.vsatn 31 0 1 7 5) w) ∧ Goes (exec (.vwidenHi 31 0 7 5) w)
      ∧ Goes (exec (.vprepop 31 0 7 1) w) := by
  obtain ⟨h1, -, h2, -⟩ := h 31 0 1 7 3
  obtain ⟨-, h3, h4, h5, -, h6, -⟩ := h 31 0 1 7 5
  have h7 := past8 (h 31 0 1 7 1)
  have ha : w.Able := by decide +kernel
  have hd : w.Direct := by unfold State.Direct; decide +kernel
  have hp : w.plain [31, 0, 1] := plain_of (by decide +kernel)
  exact ⟨goV (h1 (by decide)).2 hp, goV (h3 (by decide)).1 hp, goes_of_traps ((h4 w ha hd hp).1 (by decide)).1,
    goes_of_traps ((h2 w ha hd hp).2 (by decide)).2, goV h5 hp, goV h6 (plain_of (by decide +kernel)),
    goV h7 (plain_of (by decide +kernel))⟩

theorem witness_VectorLaneMovesAndTopK (h : Obligations.VectorLaneMovesAndTopK) :
    Goes (exec (.vslideUp 31 0 31 7) w) ∧ Goes (exec (.vexpnd 31 0 7) w) ∧ Goes (exec (.vperm 31 0 1 7) w)
      ∧ Goes (exec (.vbcast 31 63 7) w) ∧ Goes (exec (.viota 31 7) w) ∧ Goes (exec (.vselv 31 0 1 7) w)
      ∧ Goes (exec (.vcmprs 31 0 7) w) ∧ Goes (exec (.vtopk 30 0 1 7 2) w) := by
  obtain ⟨h1, -, -, h2, h3, h4, h5, h6, h7⟩ := h.1 31 0 1 31 63 7
  obtain ⟨h8, -⟩ := h.2 30 0 1 7 2
  exact ⟨goV h1 (plain_of (by decide +kernel)), goV h2 (plain_of (by decide +kernel)), goV h3 (plain_of (by decide +kernel)),
    goV h4 (plain_of (by decide +kernel)), goV h5 (plain_of (by decide +kernel)), goV h6 (plain_of (by decide +kernel)),
    goV h7 (plain_of (by decide +kernel)), goV h8 (plain_of (by decide +kernel))⟩

theorem witness_VectorReductionsScansAndMasks (h : Obligations.VectorReductionsScansAndMasks) :
    Goes (exec (.vredAddFloat 31 0 7 3) w) ∧ Goes (exec (.vscaniMaxInt 31 0 7 1) w) ∧ Goes (exec (.mset 7 32) w)
      ∧ Goes (exec .vnop w) := by
  obtain ⟨-, -, -, h1, -⟩ := h.1 31 0 7 3
  obtain ⟨-, -, -, h2, -⟩ := past4 (h.1 31 0 7 1)
  obtain ⟨-, -, -, -, h3, h4⟩ := h.2 7 0 1 32
  exact ⟨goV h1 (plain_of (by decide +kernel)), goV h2 (plain_of (by decide +kernel)), goV h3 trivial, goS h4 trivial⟩

/-- A slot whose A elements' scales lie one per column group, from byte 64 on, with the bitmap from byte 128 (R127). -/
def wQnt : State :=
  wS fun t => { t with fxa := 2 * 2 ^ 6, spa := BitVec.ofNat 64 (64 + 8 * 2 ^ 20 + 128 * 2 ^ 40) }

theorem witness_VectorQuantiseAndDequantise (h : Obligations.VectorQuantiseAndDequantise) :
    Goes (exec (.vqnt 31 0 1 7 1) wQnt) ∧ Goes (exec (.vqnt 31 0 1 7 1) (wS fun t => { t with m := Vector.replicate 8 0 }))
      ∧ Goes (exec (.vdqnt 31 0 1 7 1) w) := by
  have hp : wQnt.plain [31, 0, 1] := plain_of (by decide +kernel)
  exact ⟨goV (h.1 31 0 1 7 1).1 ⟨hp, by decide +kernel, by decide +kernel, by decide +kernel, by decide +kernel,
      by decide +kernel, by decide +kernel, by decide +kernel, fun _ => by decide +kernel⟩,
    goV (h.1 31 0 1 7 1).2 ⟨plain_of (by decide +kernel), by decide +kernel⟩,
    goV (h.2 31 0 1 7 1) (plain_of (by decide +kernel))⟩

/-- A slot whose open capture still lacks one bundle (R158). -/
def wCap : State := wC fun x => { x with seqr := { x.seqr with owner := some 0, want := 1 } }

theorem witness_CaptureRecords (h : Obligations.CaptureRecords) : Goes (exec (.vqnt 31 0 1 7 1) wCap)
    ∧ Goes (exec (.mma 7 0 1 0 1 0 0) wCap) ∧ Goes (exec (.vtopkNz 30 0 1 7 1) wCap)
    ∧ Goes (exec (.mma 7 0 1 0 1 0 0) (wCap.modSlot 0 0 fun t => { t with fxc := 2 })) := by
  have h1 := h wCap (by decide +kernel) (by decide +kernel) (by decide +kernel) (by decide +kernel)
  have h2 := h (wCap.modSlot 0 0 fun t => { t with fxc := 2 }) (by decide +kernel) (by decide +kernel) (by decide +kernel)
    (by decide +kernel)
  refine ⟨⟨_, (h1 (.vqnt 31 0 1 7 1) rfl (by decide)).1 ?_ ?_⟩,
    ⟨_, (h1 (.mma 7 0 1 0 1 0 0) rfl (by decide)).1 ?_ fun e => ?_⟩,
    goes_of_traps ((h1 (.vtopkNz 30 0 1 7 1) rfl (by decide)).2 (.inl ⟨30, 0, 1, 7, 1, .inr rfl⟩)),
    goes_of_traps ((h2 (.mma 7 0 1 0 1 0 0) rfl (by decide)).2
      (.inr ⟨⟨7, 0, 1, 0, 1, 0, 0, rfl⟩, by decide +kernel⟩))⟩
  · rintro ⟨_, _, _, _, _, e | e⟩ <;> exact Instr.noConfusion e
  · rintro ⟨⟨_, _, _, _, _, _, _, e⟩, -⟩; exact Instr.noConfusion e
  · rintro ⟨_, _, _, _, _, e | e⟩ <;> exact Instr.noConfusion e
  · exact absurd e.2 (by decide +kernel)

/-! ### Witnesses: memory instructions -/

/-- Decides what a clause asks of a state, but for the registers bound to no stream. -/
theorem segOk_of {s : State} {sg : Nat} {off : Int} {size align : Nat} {k : AccKind}
    (h : decide (sgSpace (s.me.rsg sg) = 1 ∧ off % align = 0 ∧ 0 ≤ off ∧ off + size - 1 ≤ sgLimit (s.me.rsg sg)
      ∧ sgBase (s.me.rsg sg) + off + size ≤ 0x100000 ∧ sgRights (s.me.rsg sg) k = true) = true) : s.segOk sg off size align k :=
  have := of_decide_eq_true h
  this

/-- `w` with the last doubleword of the local store named by s5, whose first word is full, and with atomics allowed
through sg0. -/
def wM : State :=
  { wS fun t => { t with s := t.s.set 5 0xFFFF8, sg := t.sg.set 0 (sgAll ||| 8) } with
    cores := [(0, { (wS fun t => { t with s := t.s.set 5 0xFFFF8, sg := t.sg.set 0 (sgAll ||| 8) }).core 0 with
      fe := [0xFFFF8 / 4] })] }

/-- `wM` with the word emptied. -/
def wE : State := wM.modCore 0 fun x => { x with fe := [] }

/-- `w` with a segment of another space, or without rights, in sg0. -/
def wG (g : W128) : State := wS fun t => { t with s := t.s.set 5 0x100000, sg := t.sg.set 0 g }

/-- `w` with an odd offset in s5. -/
def wO : State := wS fun t => { t with s := t.s.set 5 1 }

theorem witness_LoadsAndStores (h : Obligations.LoadsAndStores) :
    Goes (exec (.ldbs 4 5 0 1 7) wM) ∧ Goes (exec (.ldd 4 5 0 0 0) wM) ∧ Goes (exec (.sth 4 5 0 0 3) wM)
      ∧ Goes (exec (.std 4 5 0 0 0) wM) ∧ Goes (exec (.sth 4 5 0 0 (-128)) wO) ∧ Goes (exec (.ldd 4 5 0 0 0) (wG 0))
      ∧ Goes (exec (.stb 4 5 0 0 0) (wG sgAll)) ∧ Goes (exec (.stb 4 5 0 0 (-1)) (wG (sgAll - 2))) := by
  obtain ⟨-, h1, -⟩ := h.1 4 5 0 1 7
  obtain ⟨-, -, -, -, -, -, h2, -⟩ := h.1 4 5 0 0 0
  obtain ⟨h3, -⟩ := past8 (h.1 4 5 0 0 3)
  obtain ⟨-, -, h4⟩ := past8 (h.1 4 5 0 0 0)
  refine ⟨goS h1 ⟨segOk_of (by decide +kernel), by decide +kernel⟩, goS h2 ⟨segOk_of (by decide +kernel), by decide +kernel⟩,
    goS h3 ⟨segOk_of (by decide +kernel), fun _ => by decide +kernel⟩,
    goS h4 ⟨segOk_of (by decide +kernel), fun _ => by decide +kernel⟩, ?_, ?_, ?_, ?_⟩
  · exact goes_of_traps ((h.2 4 5 0 0 (-128) wO (.sth 4 5 0 0 (-128), 2, .store) (by decide)).1 (by decide +kernel))
  · exact goes_of_traps ((h.2 4 5 0 0 0 (wG 0) (.ldd 4 5 0 0 0, 8, .load) (by decide)).2.1 (by decide +kernel)
      (by decide +kernel))
  · exact goes_of_traps ((h.2 4 5 0 0 0 (wG sgAll) (.stb 4 5 0 0 0, 1, .store) (by decide)).2.2 (by decide +kernel)
      (by decide +kernel) |>.1 (by decide +kernel))
  · exact goes_of_traps ((h.2 4 5 0 0 (-1) (wG (sgAll - 2)) (.stb 4 5 0 0 (-1), 1, .store) (by decide)).2.2 (by decide +kernel)
      (by decide +kernel) |>.2 (by decide +kernel) (by decide +kernel) (by decide +kernel) (by decide +kernel))

/-- A pattern block of one strip, valid or not (R289). -/
def wPat (valid : Bool) : Nat := 0x0001000100010001 * (1 + if valid then 2 ^ 192 * 2 ^ 192 else 0) + 2 ^ 240 * 2 ^ 240

/-- A configured pipe of four strips, full. -/
def wFull : Pipe := ⟨true, 0, 4, 0, 0, 4, some 0, some 0, []⟩

/-- A bound unit of slot 0. -/
def wSu (k : SuKind) (write : Bool) : Stream := { Stream.reset with owner := some 0, kind := k, write := write, num := 7 }

/-- The unit 7 of `wStr`: a pattern of one valid strip over the local store (R290, R307). -/
def wStrip : Stream := { wSu .pattern false with blk := BitVec.ofNat 512 (wPat true), seg := sgAll }

/-- A block of one padded strip (R289). -/
def wPad : BitVec 512 := BitVec.ofNat 512 (wPat false)

/-- `wStrip` bound for writing. -/
def wWr : Stream := { wStrip with write := true }

/-- `w` with a unit 7 of slot 0, and pipe 7 full. -/
def wStr (y : Stream) : State := wC fun x => { x with su := x.su.set 7 y, pipe := x.pipe.set 7 wFull }

theorem direct_wStr (y : Stream) : (wStr y).Direct := .inl (by show Core.reset.seqr.owner ≠ some 0; decide +kernel)

/-- A thread that does not own the core's open capture issues its V syllables itself. -/
theorem direct_of {s : State} (h : (s.my.seqr.owner != some s.cur.2) = true) : s.Direct := .inl (by simpa using h)

theorem witness_VectorAccess (h : Obligations.VectorAccess) :
    Goes (exec (.vld 31 5 0 0 (-1)) (wG sgAll)) ∧ Goes (exec (.vldb 31 5 0 (-1)) (wG sgAll))
      ∧ Goes (exec (.vst 31 5 0 1 (-1)) (wG sgAll)) ∧ Goes (exec (.vldx 31 5 0 0 1 7) wM) ∧ Goes (exec (.vstx 31 5 0 0 1 7) wM)
      ∧ Goes (exec (.vst 31 5 0 1 (-1)) (wStr wWr)) := by
  obtain ⟨h1, h2, -⟩ := h.1 31 5 0 0 (-1)
  obtain ⟨-, -, h3, h6⟩ := h.1 31 5 0 1 (-1)
  obtain ⟨h4, h5⟩ := h.2 31 1 5 0 7
  exact ⟨goS h1 ⟨segOk_of (by decide +kernel), by decide +kernel, plain_of (by decide +kernel)⟩,
    goS h2 ⟨segOk_of (by decide +kernel), by decide +kernel, plain_of (by decide +kernel)⟩,
    goS h3 ⟨segOk_of (by decide +kernel), fun u y e => absurd e (by
      rw [show (wG sgAll).bound (wG sgAll).cur.1 (wG sgAll).cur.2 (31 : BitVec 5).toNat = none by decide +kernel]; simp)⟩,
    goS h4 ⟨plain_of (by decide +kernel), by decide +kernel, by decide +kernel, by simp only [State.segOk]; decide +kernel⟩,
    goS h5 ⟨plain_of (by decide +kernel), by decide +kernel, by decide +kernel, by simp only [State.segOk]; decide +kernel⟩,
    goes_of_traps (h6 (wStr wWr) 7 wWr (by decide +kernel) rfl)⟩

/-- `wM` with a relaxed access of its slot outstanding at its own core. -/
def wR : State := wM.modSlot 0 0 fun t => { t with relaxed := [⟨1, 0, none, 0, 0⟩] }

/-- `wM` with a copy command of its slot under way (R275). -/
def wB : State := wM.modCore 0 fun x => { x with su := x.su.set 0 { Stream.reset with owner := some 0, flight := true } }

theorem witness_FullEmptyAndFences (h : Obligations.FullEmptyAndFences) :
    Goes (exec (.ldwsync 4 5 0 0) wM) ∧ Goes (exec (.ldwsync 4 5 0 0) wE) ∧ Goes (exec (.ldwtake 4 5 0 0) wM)
      ∧ Goes (exec (.ldwtake 4 5 0 0) wE) ∧ Goes (exec (.stwfill 4 5 0 1 0) wE) ∧ Goes (exec (.feset 5 0 0) wE)
      ∧ Goes (exec (.feclr 5 0 0) wM) ∧ Goes (exec (.fetest 7 5 0 0) wM) ∧ Goes (exec (.fence 4) w)
      ∧ Goes (exec (.fencee 4) w) ∧ Goes (exec (.fence 4) wR) ∧ Goes (exec (.fencee 0) wR) ∧ Goes (exec (.fencee 0) wB)
      ∧ Goes (exec (.fenceComplete 0 0) (wS fun t => { t with st := .parked, held := .fence 4 true })) := by
  obtain ⟨h1, h2, h3, h4, h5, h6, h7, h8⟩ := h.1 4 5 7 0 1 0
  obtain ⟨f1, f2, f3, -⟩ := h.2 4 0 0
  obtain ⟨-, -, -, f4, f5⟩ := h.2 0 0 0
  exact ⟨goS h1 ⟨segOk_of (by decide +kernel), by decide +kernel, by decide +kernel⟩,
    goS h2 ⟨segOk_of (by decide +kernel), by decide +kernel⟩,
    goS h3 ⟨segOk_of (by decide +kernel), by decide +kernel, by decide +kernel, by decide +kernel⟩,
    goS h4 ⟨segOk_of (by decide +kernel), by decide +kernel, by decide +kernel⟩, goS h5 (segOk_of (by decide +kernel)),
    goS h6 (segOk_of (by decide +kernel)), goS h7 (segOk_of (by decide +kernel)), goS h8 (segOk_of (by decide +kernel)),
    goS f1 (by decide +kernel), goS f2 ⟨by decide +kernel, by decide +kernel⟩, goS f3 (by decide +kernel),
    goS f4 (.inl (by decide +kernel)), goS f4 (.inr (by decide +kernel)),
    goE (f5 4 true) ⟨by decide +kernel, by decide +kernel, fun _ => by decide +kernel, by decide +kernel⟩⟩

theorem witness_Atomics (h : Obligations.Atomics) :
    Goes (exec (.amoadd 4 5 6 0 4 3 1 1 0) wM) ∧ Goes (exec (.amocas 4 5 6 0 7 0 0 0 0 1) wR)
      ∧ Goes (exec (.amoadd 4 5 6 0 4 3 0 0 1) (wM.modSlot 0 0 fun t => { t with imv := true, mark := 0xFFFFF })) := by
  obtain ⟨h1, -⟩ := h 4 5 6 7 0 4 3 1 1 0
  obtain ⟨-, h2, -⟩ := past8 (h 4 5 6 7 0 0 0 0 0 1)
  obtain ⟨-, -, h3⟩ := past8 (h 4 5 6 7 0 4 3 0 0 1)
  exact ⟨goS h1 ⟨⟨segOk_of (by decide +kernel), by decide +kernel, by decide +kernel, by decide +kernel, .inr (by decide +kernel)⟩,
      by decide +kernel⟩,
    goS h2 ⟨⟨segOk_of (by decide +kernel), by decide +kernel, by decide +kernel, by decide +kernel, .inl (by decide +kernel)⟩,
      trivial⟩,
    goes_of_traps (h3 _ (by decide +kernel) (segOk_of (by decide +kernel)) (by decide +kernel) (by decide +kernel))⟩

/-- A segment over the store of rank 3 with every right (R15, R263). -/
def sgFar : W128 := BitVec.ofNat 128 (0x100000 * 2 ^ 80 + 3 * 2 ^ 16 + 2 * 2 ^ 10 + 15)

/-- A segment over the gang's pool with every right (R264). -/
def sgPool : W128 := BitVec.ofNat 128 (0x100000 * 2 ^ 80 + 3 * 2 ^ 10 + 15)

/-- A state whose slot has eight relaxed accesses outstanding. -/
def wEight (s : State) : State := s.modSlot 0 0 fun t => { t with relaxed := List.replicate 8 ⟨1, 3, none, 0, 0⟩ }

/-- The item of a list that stands at a place. -/
theorem nth {A : Type} {l : List A} {a : A} (k : Nat) (h : l[k]? = some a) : a ∈ l := List.mem_of_getElem? h

theorem witness_RemoteRequests (h : Obligations.RemoteRequests) :
    Goes (exec (.ldd 4 0 0 0 8) (wG sgFar)) ∧ Goes (exec (.std 4 0 0 1 8) (wG sgFar)) ∧ Goes (exec (.ldw 4 0 0 1 8) (wEight (wG sgFar)))
      ∧ Goes (exec (.ldb 4 0 0 0 12) (wG sgPool)) := by
  have g := fun (imm : BitVec 8) (y : Nat) (s : State) (ha : s.Able) => h 4 0 6 7 31 7 0 0 0 0 imm 0 3 y s ha
  obtain ⟨a, -⟩ := g 8 64 (wG sgFar) (by decide +kernel)
  obtain ⟨b, -⟩ := g 8 32 (wEight (wG sgFar)) (by decide +kernel)
  obtain ⟨c, -⟩ := g 12 0xFFFF8 (wG sgPool) (by decide +kernel)
  exact ⟨⟨_, (a _ (nth 6 rfl) (by decide +kernel) (by simp)).1⟩,
    ⟨_, (a _ (nth 10 rfl) (by decide +kernel) (by simp)).2.1 (by decide +kernel)⟩,
    ⟨_, (b _ (nth 4 rfl) (by decide +kernel) (by simp)).2.2 (by decide +kernel)⟩,
    ⟨_, (c _ (nth 0 rfl) (by decide +kernel) (by simp)).1⟩⟩

/-- A segment over the last bytes of a vector at the end of rank 3's store. -/
def sgLast : W128 := sgFar + BitVec.ofNat 128 (0x80 * 2 ^ 32)

theorem witness_RemoteRequests_sync (h : Obligations.RemoteRequests) :
    Goes (exec (.vst 31 0 0 0 1) (wG sgLast)) ∧ Goes (exec (.ldwtake 4 0 0 8) (wG sgFar)) ∧ Goes (exec (.fetest 7 0 0 3) (wG sgPool))
      ∧ Goes (exec (.vldb 31 0 0 8) (wG sgFar)) := by
  have g := fun (imm : BitVec 8) (y : Nat) (s : State) (ha : s.Able) => h 4 0 6 7 31 7 0 0 0 0 imm 0 3 y s ha
  obtain ⟨a, -⟩ := g 1 0x100 (wG sgLast) (by decide +kernel)
  obtain ⟨-, b, c, -⟩ := g 8 32 (wG sgFar) (by decide +kernel)
  obtain ⟨-, d, -⟩ := g 3 0xFFFF8 (wG sgPool) (by decide +kernel)
  exact ⟨⟨_, (a _ (nth 13 rfl) (by decide +kernel) fun _ => plain_of (by decide +kernel)).1⟩,
    ⟨_, b _ (nth 1 rfl) (by decide +kernel) (by decide +kernel)⟩,
    ⟨_, d _ (nth 4 rfl) (by decide +kernel) trivial⟩,
    ⟨_, c (by decide +kernel) (plain_of (by decide +kernel))⟩⟩

theorem witness_RemoteRequests_atomics (h : Obligations.RemoteRequests) :
    Goes (exec (.amoadd 4 0 6 0 4 3 0 1 8) (wG sgFar)) ∧ Goes (exec (.amocas 4 0 6 0 7 4 1 1 0 3) (wG sgPool))
      ∧ Goes (exec (.amoor 4 0 6 0 0 1 1 0 8) (wG sgFar)) ∧ Goes (exec (.amoor 4 0 6 0 4 1 1 0 8) (wEight (wG sgFar))) := by
  have g := fun (scope : BitVec 3) (order : BitVec 2) (wide : BitVec 1) (far : BitVec 19) (y : Nat) (s : State) (ha : s.Able) =>
    h 4 0 6 7 31 7 0 scope order wide 0 far 3 y s ha
  obtain ⟨-, -, -, a⟩ := g 4 3 1 8 64 (wG sgFar) (by decide +kernel)
  obtain ⟨-, -, -, b⟩ := g 4 1 0 3 0xFFFF8 (wG sgPool) (by decide +kernel)
  obtain ⟨-, -, -, c⟩ := g 0 1 0 8 32 (wG sgFar) (by decide +kernel)
  obtain ⟨-, -, -, d⟩ := g 4 1 0 8 32 (wEight (wG sgFar)) (by decide +kernel)
  exact ⟨⟨_, (a _ (nth 0 rfl) (by decide +kernel)
      (by decide +kernel) (by decide +kernel) (by decide +kernel) (by decide +kernel)).1⟩,
    ⟨_, ((b _ (nth 9 rfl) (by decide +kernel)
      (by decide +kernel) (by decide +kernel) (by decide +kernel) (by decide +kernel)).2.1 (by decide +kernel)).2 (by decide +kernel)
      (by decide)⟩,
    ⟨_, ((c _ (nth 2 rfl) (by decide +kernel)
      (by decide +kernel) (by decide +kernel) (by decide +kernel) (by decide +kernel)).2.1 (by decide +kernel)).1
      (.inl (by decide +kernel))⟩,
    ⟨_, (d _ (nth 2 rfl) (by decide +kernel)
      (by decide +kernel) (by decide +kernel) (by decide +kernel) (by decide +kernel)).2.2 (by decide +kernel)⟩⟩

/-- A request of slot 2 of core 1 for the last word of core 0. -/
def wReq (op : ReqOp) : Req := ⟨1, 2, false, 0, op, 0xFFFF8, 0xFFFF8, 4, 7, 0⟩

/-- `wM` with a request at its handler port. -/
def wN (op : ReqOp) : State := wM.modCore 0 fun x => { x with netq := [wReq op] }

/-- `wN` where that slot withdraws its sync load (R276). -/
def wN' : State := (wN (.sync true)).modSlot 1 2 fun t =>
  { t with st := .parked, held := .remote 0 true, stop := some ⟨cTIMER, 0, false, false, false⟩ }

/-- A slot that awaits the reply of a load (R265). -/
def wLoad : State := wS fun t => { t with st := .parked, held := .remote 3 false }

theorem live_w : w.live 0 := live_of (by decide +kernel) (by decide +kernel)

/-- A message for handler 15. -/
def wMsg : ActMsg := ⟨1, 2, false, 0, 15, 1, 2, 3, 4⟩

theorem witness_RequestsAndReplies (h : Obligations.RequestsAndReplies) :
    Goes (exec (.builtinRequestPerform 0) ((wN (.load 8 true)).modCore 0 fun x => { x with err2 := [0x3FFFE] }))
      ∧ Goes (exec (.builtinRequestPerform 0) (wN (.store 8))) ∧ Goes (exec (.builtinRequestPerform 0) (wN (.sync true)))
      ∧ Goes (exec (.builtinRequestPerform 0) ((wN (.sync false)).modCore 0 fun x => { x with fe := [] }))
      ∧ Goes (exec (.builtinRequestPerform 0) (wN .joinSub))
      ∧ Goes (exec (.remoteRequestArrive 0 (.builtin (wReq .feSet))) w) ∧ Goes (exec (.remoteRequestArrive 0 (.active wMsg)) w)
      ∧ Goes (exec (.remoteReply 0 ⟨0, false, 0, .load 8 true, 63, 7, false, 0, 3⟩) wLoad)
      ∧ Goes (exec (.feWithdrawalArrive 0 1 2) wN')
      ∧ Goes (exec (.handlerStart 0) (wC fun x => { x with amq := [wMsg] })) := by
  have c1 : Goes (exec (.builtinRequestPerform 0) (wN (.sync true))) := by
    have c := (h.1 0 (wReq (.sync true)) [] (wN (.sync true)) (by decide +kernel)).2 (by decide +kernel) (by decide +kernel)
    dsimp only [wReq] at c
    rw [if_pos (by decide +kernel)] at c
    exact ⟨_, c⟩
  have c2 : Goes (exec (.builtinRequestPerform 0) ((wN (.sync false)).modCore 0 fun x => { x with fe := [] })) := by
    have c := (h.1 0 (wReq (.sync false)) [] ((wN (.sync false)).modCore 0 fun x => { x with fe := [] })
      (by decide +kernel)).2 (by decide +kernel) (by decide +kernel)
    dsimp only [wReq] at c
    rw [if_neg (by decide +kernel)] at c
    exact ⟨_, c⟩
  obtain ⟨a1, a2, a3, a4, a5⟩ := h.2 0 (wReq .feSet) wMsg ⟨0, false, 0, .load 8 true, 63, 7, false, 0, 3⟩ 1 2 []
  obtain ⟨-, -, -, b4, -⟩ := h.2 0 (wReq (.sync true)) wMsg ⟨0, false, 0, .load 8 true, 63, 7, false, 0, 3⟩ 1 2 []
  refine ⟨⟨_, (h.1 0 (wReq (.load 8 true)) [] _ (by decide +kernel)).1 (by decide) (by decide +kernel)⟩,
    ⟨_, (h.1 0 (wReq (.store 8)) [] _ (by decide +kernel)).2 (by decide +kernel) (by decide +kernel)⟩,
    c1, c2,
    ⟨_, (h.1 0 (wReq .joinSub) [] _ (by decide +kernel)).2 (by decide +kernel) (by decide +kernel)⟩,
    goE a1 live_w, goE a2 live_w,
    goE (a3 8 true 3 false rfl rfl rfl rfl (by decide)) ⟨live_of (by decide +kernel) (by decide +kernel), by decide +kernel, by decide +kernel⟩,
    goE b4 ⟨live_of (by decide +kernel) (by decide +kernel), rfl, rfl, rfl, .inl rfl, by decide +kernel, by decide +kernel, by decide +kernel⟩,
    goE a5 ⟨by decide +kernel, by decide +kernel⟩⟩
/-! ### Witnesses: control, waiting, traps and the system -/

/-- `w` with s5 set. -/
def w5 (x : W64) : State := wS fun t => { t with s := t.s.set 5 x }

theorem witness_Branches (h : Obligations.Branches) :
    Goes (exec (.br 0x80000) w) ∧ Goes (exec (.bnc 0 0x80000) w) ∧ Goes (exec (.jr 5) (w5 0xFFFF8)) ∧ Goes (exec (.callr 5) (w5 0))
      ∧ Goes (exec (.jr 5) (w5 4)) := by
  obtain ⟨h1, -, h2, -, -, -, h3, h4, h5⟩ := h 0x80000 0 0 5
  exact ⟨goS h1 trivial, goS h2 trivial, goS h3 (by decide +kernel), goS h4 (by decide +kernel),
    goes_of_traps (h5 (w5 4) (by decide +kernel)).1⟩

theorem witness_StatusIdentityAndCounters (h : Obligations.StatusIdentityAndCounters) :
    Goes (exec (.mfs 4 31) w) ∧ Goes (exec (.mts 12 4) w) ∧ Goes (exec (.mts 13 4) w) ∧ Goes (exec (.getid 4 6) w)
      ∧ Goes (exec (.evcrd 4 15) w) ∧ (w.bundle 0 (halves (encode (.mts 63 4))).1 (halves (encode (.mts 63 4))).2).1 = false
      ∧ (w.bundle 0 (halves (encode (.getid 4 7))).1 (halves (encode (.getid 4 7))).2).1 = false
      ∧ (w.bundle 0 (halves (encode (.evcclr 16))).1 (halves (encode (.evcclr 16))).2).1 = false := by
  obtain ⟨-, -, -, h1, z⟩ := past8 (h.1 4 4 13)
  obtain ⟨-, -, h2, h3, -⟩ := past4 z
  have h4 := past8 (past4 (past8 (h.1 4 4 63)))
  obtain ⟨-, -, z'⟩ := h.2 4 15
  obtain ⟨-, -, h5, h6, -⟩ := past4 z'
  exact ⟨goS (h1 7).2 trivial, goS h2 trivial, goes_of_traps (h3 (by decide) (by decide) w), goS h5 trivial, goS h6 trivial,
    congrArg Prod.fst ((h4 (.inr (by decide))).1 w), congrArg Prod.fst ((h.2 4 7).1 (by decide) w),
    congrArg Prod.fst (((h.2 4 16).2.1 (by decide)).2 w)⟩

/-- A message of a mailbox. -/
def wMail : Msg := ⟨1, 2, none⟩

/-- Core 0 of `w` executes a bundle of slot 15, at supervisor level and with sg0 over the store. -/
def w15 : State :=
  { w with cur := (0, 15) }.modSlot 0 15 fun t => { t with st := .ready, held := .none, sg := t.sg.set 0 sgAll }

/-- The youngest record of a trap queue. -/
def wRec : TrapRec := ⟨3, 18, 8, 99⟩

theorem witness_WaitsAndMailbox (h : Obligations.WaitsAndMailbox) :
    Goes (exec (.sleep 4 5) (wS fun t => { t with mail := [wMail] }))
      ∧ Goes (exec (.sleep 4 5) (w15.modCore 0 fun x => { x with trapq := [wRec] }))
      ∧ Goes (exec (.sleep 4 5) w) ∧ Goes (exec (.waitmsg 0) (wS fun t => { t with mail := [wMail] }))
      ∧ Goes (exec (.waitmsg 1) (wS fun t => { t with credits := 1 })) ∧ Goes (exec (.waitmsg 0) w)
      ∧ Goes (exec (.waitmsg 1) w15) ∧ Goes (exec .halt w)
      ∧ Goes (exec (.sleepTimeout 0 0) (wS fun t => { t with st := .waiting, held := .sleep 4 (some 100) }))
      ∧ Goes (exec (.haltDrainComplete 0 0) (wS fun t => { t with st := .parked, held := .haltDrain }))
      ∧ Goes (exec (.haltDrainComplete 0 14) (w.modSlot 0 14 fun t => { t with st := .parked, held := .haltDrain }))
      ∧ Goes (exec (.haltDrainComplete 0 0) ((wS fun t => { t with st := .parked, held := .haltDrain }).modCore 0 fun x =>
          { x with su := x.su.set 7 { Stream.reset with owner := some 0, kind := .pipe, write := true, num := 7 }
                   pipe := x.pipe.set 7 ⟨true, 0, 4, 0, 0, 3, none, none, []⟩ }))
      ∧ Goes (exec (.mbpop 62) w) ∧ Goes (exec (.mbcnt 63 2) w) := by
  obtain ⟨-, h1, h2, h3, h4, h5, h6, h7, h8⟩ := h.1 4 5
  obtain ⟨k1, k2, k3, k4⟩ := h.2.1 0 0 4 100 7 (by decide)
  obtain ⟨-, m1, -⟩ := h.2.2 62
  obtain ⟨-, -, -, -, m2⟩ := h.2.2 63
  exact ⟨goS h1 (by decide +kernel), goS h2 ⟨by decide +kernel, by decide +kernel⟩, goS h3 ⟨by decide +kernel, by decide +kernel⟩,
    goS h4 (.inl (by decide +kernel)), goS h5 (.inl (by decide +kernel)), goS h6 ⟨by decide +kernel, by decide +kernel⟩,
    goS h7 ⟨by decide +kernel, by decide +kernel⟩, goS h8 (.inl (by decide +kernel)),
    goE k1 ⟨by decide +kernel, by decide, live_of (by decide +kernel) (by decide +kernel), by decide +kernel⟩,
    goE k2 (by decide +kernel), goE k3 (by decide +kernel), goE k4 (by decide +kernel), goS m1 trivial, goS m2 trivial⟩

theorem calm_w : w.calm := by unfold State.calm; decide +kernel

theorem witness_TrapsTaken (h : Obligations.TrapsTaken) :
    (∃ t, w.takeTrap 18 63 true true = t) ∧ Goes (exec (.trap 63) w)
      ∧ Goes (exec (.eret 55) (wS fun t => { t with level := false })) ∧ Goes (exec (.unassignedEncoding true) w) :=
  ⟨⟨_, h.1 18 63 true true w calm_w (by decide) (by decide) (by decide)⟩,
    ⟨_, h.2.1 63 w (by decide +kernel) (by unfold State.calm; decide +kernel)⟩,
    goes_of_traps (h.2.2.1 4 55 6 0 0 (wS fun t => { t with level := false }) (by decide +kernel) (.eret 55) (by simp)),
    goes_of_traps (h.2.2.2 true w)⟩

theorem witness_SystemPoints (h : Obligations.SystemPoints) :
    Goes (exec (.eret 5) (w5 0xFFFF8)) ∧ Goes (exec .ulion { w with cur := (0, 13) }) ∧ Goes (exec .ulioff w)
      ∧ Goes (exec .ulion { w with cur := (0, 14) }) ∧ Goes (exec .ulioff w15)
      ∧ Goes (exec .uliret (wS fun t => { t with ua := true })) ∧ Goes (exec (.timerset 5 1) w)
      ∧ Goes (exec .idem w) ∧ Goes (exec .idemEnd w) := by
  obtain ⟨h1, h2, h3, h4, h5, h6, h7, h8, h9⟩ := h 5 1
  exact ⟨goS h1 (by decide +kernel), goS h2 (by decide +kernel), goS h3 (by decide +kernel), goS h4 (by decide +kernel),
    goS h5 (by decide +kernel), goS h6 (by decide +kernel), goS h7 trivial, goS h8 trivial, goS h9 trivial⟩

theorem witness_SegmentsTablesAndStarts (h : Obligations.SegmentsTablesAndStarts) :
    Goes (exec (.segld 7 5) (w5 0xFFFF0)) ∧ Goes (exec (.segst 7 5) (w5 0xFFFF0))
      ∧ Goes (exec (.istset 5) ((w5 0xFFFE0).modCore 0 fun x => x.wr 0xFFFE0 16 0x8F8E8D8C8B8A89888786858483828180
          |>.wr 0xFFFF0 16 0x8F8E8D8C8B8A89888786858483828180))
      ∧ Goes (exec (.slotstart 5 6) (w5 (13 + 0xFFFF8 * 2 ^ 32))) := by
  obtain ⟨h1, h2, h3, h4⟩ := h 7 5 6
  exact ⟨goS h1 ⟨by decide +kernel, segOk_of (by decide +kernel), by decide +kernel⟩,
    goS h2 ⟨by decide +kernel, segOk_of (by decide +kernel)⟩,
    goS h3 ⟨by decide +kernel, segOk_of (by decide +kernel), by decide +kernel, by decide +kernel⟩,
    goS h4 (by decide +kernel)⟩

/-- `w` with slot 14 in a state, and named by s5. -/
def w14 (st : SlotSt) : State := (w5 14).modSlot 0 14 fun t => { t with st := st }

/-- Core 0 of `w15` with every other slot still and s5 over the last unit area of the store. -/
def wStill : State :=
  (w15.modSlot 0 0 fun t => { t with st := .stopped }).modSlot 0 15 fun t => { t with s := t.s.set 5 0xFA000 }

/-- `wStill` with slot 15 awaiting the end of a dump or load (R343). -/
def wArea (i : Instr) : State :=
  wStill.modSlot 0 15 fun t => { t with st := .parked, held := .unit i (BitVec.ofNat 256 (0xFA000 + 2 ^ 20 * 100)) }

theorem witness_SlotStopsAndTransfers (h : Obligations.SlotStopsAndTransfers) :
    (Goes (exec (.slotstopStop 4 5) (w14 .idle)) ∧ Goes (exec (.slotstopStop 4 5) (w14 .stopped))
      ∧ Goes (exec (.slotstopStop 4 5) (w14 .ready)) ∧ Goes (exec (.slotstopResume 4 5) (w14 .stopped))
      ∧ Goes (exec (.slotstopResume 4 5) ((w14 .stopped).modSlot 0 14 fun t => { t with imv := true, mark := 8 })) ∧ Goes (exec (.slotstopResume 4 5) (w14 .ready)) ∧ Goes (exec (.slotstopIdle 4 5) (w14 .stopped))
      ∧ Goes (exec (.slotstopIdle 4 5) (w14 .ready)))
    ∧ Goes (exec (.slotxferRd 4 5) (w5 (14 + 127 * 256))) ∧ Goes (exec (.slotxferWr 4 5) (w5 (14 + 127 * 256)))
    ∧ Goes (exec (.slotxferVrd 31 5) (w5 (14 + 31 * 256))) ∧ Goes (exec (.slotxferVwr 31 5) (w5 (14 + 31 * 256)))
    ∧ Goes (exec (.slotxferTq 4) w) ∧ Goes (exec (.slotxferTq 4) (wC fun x => { x with trapq := [wRec] }))
    ∧ Goes (exec (.slotxferDump 5) wStill) ∧ Goes (exec (.slotxferLoad 5) wStill)
    ∧ Goes (exec (.unitWaitEnd 0 15) (wArea (.slotxferDump 5))) ∧ Goes (exec (.unitWaitEnd 0 15) (wArea (.slotxferLoad 5))) := by
  obtain ⟨h1, h2, h3, h4, h4', h5, h6, h7⟩ := h.1 4 5
  obtain ⟨k1, k2, k3, k4, k5, k6, k7, k8, k9⟩ := h.2 4 5 31
  obtain ⟨k9, k10⟩ := k9 0 15 (BitVec.ofNat 256 (0xFA000 + 2 ^ 20 * 100))
  exact ⟨⟨goS h1 (by decide +kernel), goS h2 (by decide +kernel), goS h3 (by decide +kernel), goS h4 (by decide +kernel),
    goS h4' (by decide +kernel), goS h5 (by decide +kernel), goS h6 (by decide +kernel), goS h7 (by decide +kernel)⟩,
    goS k1 (by decide +kernel), goS k2 (by decide +kernel), goS k3 (by decide +kernel), goS k4 (by decide +kernel),
    goS k5 (by decide +kernel), goS (k6 wRec []) (by decide +kernel),
    goS k7 ⟨by decide +kernel, segOk_of (by decide +kernel)⟩,
    goS k8 ⟨by decide +kernel, segOk_of (by decide +kernel), by decide +kernel⟩, goE k9 (by decide +kernel),
    goE k10 (by decide +kernel)⟩

/-! ### Witnesses: the matrix unit and the sequencer -/

/-- `w` with a ring 7 of slot 0: 16 slots of 2 KiB from byte 0 on, `n` of them full. -/
def wRing (n : Nat) : State := wC fun x => x.setRing 7 ⟨some 0, 0, 0, 2048, 15, 0, 0, 15, 0, n⟩

/-- `w` with a step of the sequencer waiting, that names ring 7 and accumulator 7 (R139, R153). -/
def wHand (x : Core) : Core :=
  { x with mx := { x.mx with queue := [.step ⟨true, 0, 7, 7, 7, false, false, false, false, 0, 0, 0, 0, 0, 0, 0, 0, 0, 0, [], [], [], [], 0, 0⟩] } }

theorem witness_RingsAndGeometry (h : Obligations.RingsAndGeometry) :
    Goes (exec (.ringcfg 7 5) ((w5 0xFFFF0).modCore 0 fun x => x.wr 0xFFFF0 8 (15 + 0x80000 * 2 ^ 20 + 0x800 * 2 ^ 44)))
      ∧ Goes (exec (.ringcfgRel 7) (wRing 0)) ∧ Goes (exec (.ringcfgRel 7) ((wRing 0).modCore 0 wHand))
      ∧ Goes (exec (.ringadv 7) (wRing 15)) ∧ Goes (exec (.ringadv 7) (wRing 16)) ∧ Goes (exec (.ringadvPop 7) (wRing 1))
      ∧ Goes (exec (.ringadvPop 7) (wRing 0)) ∧ Goes (exec (.ringstat 4 7 0) (wRing 3)) ∧ Goes (exec (.ringstat 4 7 2) w)
      ∧ Goes (exec (.geommask 7 1) w) := by
  obtain ⟨h1, h2, h3, h4, h5, h6, h7, h8, -, h9, -, h10⟩ := h 7 5 0 4 1
  exact ⟨goS h1 ⟨by decide +kernel, segOk_of (by decide +kernel), by decide +kernel, by decide +kernel, by decide +kernel,
      segOk_of (by decide +kernel)⟩,
    goS h2 (by decide +kernel), goS h3 (by decide +kernel), goS h4 (by decide +kernel), goS h5 (by decide +kernel),
    goS h6 (by decide +kernel), goS h7 (by decide +kernel), goS h8 (.inl (by decide +kernel)), goS h9 (.inr (by decide +kernel)),
    goS h10 trivial⟩

/-- `w` with accumulator 7 owned by slot 0. -/
def wAcc : State := wC fun x => x.setAcc 7 ⟨Vector.replicate 32 0, false, some 0⟩

/-- `wAcc` with ring 7 of slot 0, which holds two tiles. -/
def wMma : State := (wRing 2).modCore 0 fun x => x.setAcc 7 ⟨Vector.replicate 32 0, false, some 0⟩

theorem witness_AccumulatorInstructions (h : Obligations.AccumulatorInstructions) :
    Goes (exec (.mzero 7) w) ∧ Goes (exec (.mzeroRel 7) wAcc) ∧ Goes (exec (.mzeroRel 7) (wAcc.modCore 0 wHand))
      ∧ Goes (exec (.mload 2 7 5 6) w) ∧ Goes (exec (.mdrain 2 7 5 6) wAcc) ∧ Goes (exec (.mma 7 7 7 0 1 1 1) wMma) := by
  obtain ⟨h1, h2, h3, h4, h5, h6⟩ := h 7 7 7 5 6 2 0 1 1 1
  exact ⟨goS h1 ⟨.inl (by decide +kernel), by decide +kernel⟩, goS h2 (by decide +kernel), goS h3 (by decide +kernel),
    goS h4 ⟨.inl (by decide +kernel), by decide +kernel, by decide +kernel, by simp only [State.segOk]; decide +kernel⟩,
    goS h5 ⟨.inl (by decide +kernel), by decide +kernel, by simp only [State.segOk]; decide +kernel⟩,
    goV h6 ⟨by decide +kernel, by decide +kernel⟩⟩

/-- A step of `wMma`, as it was handed. -/
def wStep : MStep := wMma.my.mmaStep true 0 0 7 7 7 false false true true 0 0

/-- `wMma` with its unit at an operation, or with one queued. -/
def wMx (run : Option (MxOp × Nat)) (l : List MxOp) : State :=
  wMma.modCore 0 fun x => { x with mx := ⟨run, l, 100, 0, 0⟩ }

/-- The step as the unit starts it. -/
def wTaken : MStep := match wMma.my.takeTiles wStep with
  | .ok u => u
  | .error _ => wStep

theorem wTaken_of : (wMx none [.step wStep]).my.takeTiles wStep = .ok wTaken := ok_of (by decide +kernel)

/-- A move of two rows of slot 0. -/
def wMove (load : Bool) : MMove := ⟨load, 0, 7, 2, [0, 2048], 0, 2048, 32⟩

/-- `wMma` with slot 0 awaiting something of the unit. -/
def wHeld (h : Held) : State := wMma.modSlot 0 0 fun t => { t with st := .parked, held := h }

theorem witness_MatrixUnit (h : Obligations.MatrixUnit) :
    Goes (exec (.accumulatorClear 0) (wMx none [.clear 7])) ∧ Goes (exec (.mmaStepStart 0) (wMx none [.step wStep]))
      ∧ Goes (exec (.mmaStepStart 0) (wMx none [.move (wMove true)]))
      ∧ Goes (exec (.mmaStepRetire 0) (wMx (some (.step wTaken, 100)) []))
      ∧ Goes (exec (.matrixOpComplete 0) (wMx (some (.move (wMove true), 100)) []))
      ∧ Goes (exec (.matrixOpComplete 0) (wMx (some (.move (wMove false), 100)) []))
      ∧ Goes (exec (.ringWaitEnd 0 0) (wHeld (.ring (.ringadv 7)))) ∧ Goes (exec (.ringWaitEnd 0 0) (wHeld (.ring (.ringadvPop 7))))
      ∧ Goes (exec (.unitWaitEnd 0 0) (wHeld (.unit (.ringcfg 7 4) 15))) ∧ Goes (exec (.unitWaitEnd 0 0) (wHeld (.unit (.mzeroRel 7) 0)))
      ∧ Goes (exec (.unitWaitEnd 0 0) (wHeld (.unit (.repwait 4) 0))) := by
  obtain ⟨h1, h2, h3, h4, h5, -, h7, h8, h9, h10, h11⟩ := h 0 0 7 wStep wTaken (wMove true) [] 100 15 7 4 (by decide)
  obtain ⟨-, -, -, -, -, h6, -⟩ := h 0 0 7 wStep wTaken (wMove false) [] 100 0 7 4 (by decide)
  obtain ⟨-, -, -, h4, -⟩ := h 0 0 7 wTaken wTaken (wMove true) [] 100 0 7 4 (by decide)
  obtain ⟨-, h10, h11⟩ := past8 (h 0 0 7 wStep wTaken (wMove true) [] 100 0 7 4 (by decide))
  exact ⟨goE h1 (by decide +kernel),
    goE h2 ⟨by decide +kernel, by decide +kernel, .inl (by decide +kernel), by decide +kernel, by decide +kernel, by decide +kernel, wTaken_of⟩,
    goE h3 (by decide +kernel), goE h4 (by decide +kernel), goE h5 (by decide +kernel), goE h6 (by decide +kernel),
    goE h7 (by decide +kernel), goE h8 (by decide +kernel), goE h9 (by decide +kernel), goE h10 (by decide +kernel),
    goE h11 (by decide +kernel)⟩

/-- `wMma` with a repetition buffer of slot 0 that holds a syllable. -/
def wSeq (run : Bool) (l : List Instr) : State :=
  wMma.modCore 0 fun x => { x with seqr := { x.seqr with
    owner := some 0, run := run, count := 2, t := 1, next := 100, syl := l.map fun i => BitVec.ofNat 32 (encode i) } }

theorem witness_RepetitionSequencer (h : Obligations.RepetitionSequencer) :
    (Goes (exec (.repcap 16) w) ∧ Goes (exec (.repcap 1) (wSeq true [.vnop])) ∧ Goes (exec .repcapRel (wSeq false [.vnop]))
      ∧ Goes (exec .repcapRel (wSeq true [.vnop])) ∧ Goes (exec (.repgo 5 6) (wSeq false [.vnop]))
      ∧ Goes (exec (.repgo 5 6) (wSeq true [.vnop])) ∧ Goes (exec (.repwait 4) (wSeq false []))
      ∧ Goes (exec (.repwait 4) (wSeq true [.vnop])))
    ∧ Goes (exec (.sequencerIssue 0) (wSeq true [.mma 7 7 7 0 0 1 1])) ∧ Goes (exec (.sequencerIssue 0) (wSeq true [.mset 7 32]))
    ∧ Goes (exec (.sequenceEnd 0) ((wSeq true [.vnop]).modCore 0 fun x => { x with seqr := { x.seqr with t := 2 } })) := by
  obtain ⟨h1, -, h3, h4, h5, h6, h7, h8, h9, -, h11⟩ := h 16 4 5 6 0 7 7 7 0 0 1 1 w
  obtain ⟨-, h2, -⟩ := h 1 4 5 6 0 7 7 7 0 0 1 1 w
  obtain ⟨-, h10, -⟩ := past8 (h 16 4 5 6 0 7 7 7 0 0 1 1 ((wSeq true [.mset 7 32]).wm 7 0xFFFFFFFF#32))
  have hs : ((wSeq true [.mset 7 32]).core 0).seqr.syllable = .mset 7 32 := by decide +kernel
  have hm : ∀ s : State, s = { wSeq true [.mset 7 32] with
      cur := (0, ((wSeq true [.mset 7 32]).core 0).seqr.owner.getD 0) } →
      semV ((wSeq true [.mset 7 32]).core 0).seqr.syllable s s = .ok ((wSeq true [.mset 7 32]).wm 7 0xFFFFFFFF#32) := by
    intro s e
    rw [hs, e]
    rfl
  exact ⟨⟨goS h1 ⟨.inr (by decide +kernel), by decide +kernel⟩, goS h2 (by decide +kernel), goS h3 (by decide +kernel),
      goS h4 (by decide +kernel), goS h5 (by decide +kernel), goS h6 (by decide +kernel), goS h7 (by decide +kernel),
      goS h8 (by decide +kernel)⟩,
    goE h9 (by decide +kernel), goE h10 ⟨by decide +kernel, by decide +kernel, hm _ rfl⟩, goE h11 (by decide +kernel)⟩
/-! ### Witnesses: the Strainer and the scan engine -/

/-- A bitmap of 32 words of zeros at byte 0 (R167). -/
def wBmap : Side := { Side.reset with valid := true, len := 32 }

/-- A list of 64 coordinates at byte 0. -/
def wList : Side := { Side.reset with valid := true, enc := 1, len := 64 }

/-- `w` with s5 set and with cursor 3 of slot 0, between 0 and 1024. -/
def wCx (x : W64) (a b : Side) (op : Nat) (st : CxSt) : State :=
  (w5 x).modCore 0 fun y => y.setCx 3 ⟨a, b, op, 0, 1024, st, some 0⟩

/-- The descriptor of a list of 64 coordinates at byte 0x1000 with f32 values at byte 0x2000, at the end of the store. -/
def wDesc : State := (w5 0xFFFF0).modCore 0 fun y => y.wr 0xFFFF0 16 (64 * 2 ^ 32 + 2 ^ 28 + 0x1000 + (2 ^ 20 + 0x2000) * 2 ^ 64)

/-- The side that `wDesc` describes, placed. -/
def wSide : Side := okOr Side.reset ((Side.ofDesc (64 * 2 ^ 32 + 2 ^ 28 + 0x1000) (2 ^ 20 + 0x2000)).place sgAll)

/-- A walk that has not begun. -/
def wWalk0 : Walk := ⟨wBmap, wBmap, 0, 0, [], [], 0, false⟩

/-- The walk of a window of `wCx 0 wBmap wBmap 1 .run`. -/
def wWalk : Walk := okOr wWalk0 ((wCx 0 wBmap wBmap 1 .run).my.walk ⟨1, 0, 1024, 128, 128, false⟩ wWalk0 68)

/-- The words of that window, and where its sides come to stand. -/
def wLanes : List (Nat × Nat) := okOr [] ((wCx 0 wBmap wBmap 1 .run).my.wordLanes wBmap wBmap 0 32)
def wMoved : Side := okOr Side.reset ((wCx 0 wBmap wBmap 1 .run).my.wordMove wBmap 1024)

/-- A cursor that can be split at coordinate 5. -/
def wSplit : State := (wCx 0 wList wList 1 .run).modCore 0 fun y => y.wr 128 4 5

/-- The image of a cursor that is not open, at the end of the store. -/
def wImage : State := wS fun t => { t with level := false, s := t.s.set 5 0xFFFC0 }

theorem wWalk_of : (wCx 0 wBmap wBmap 1 .run).my.walk ⟨1, 0, 1024, 128, 128, false⟩ wWalk0 68 = .ok wWalk :=
  okOr_of (by decide +kernel)

theorem witness_StrainerInstructions (h : Obligations.StrainerInstructions) :
    (Goes (exec (.cxopen 3 5 1) wDesc) ∧ Goes (exec (.cxopenRel 3) (wCx 0 wBmap wBmap 1 .run))
      ∧ Goes (exec (.cxand 3 5 6) (wCx 0 wBmap wBmap 0 .opened)) ∧ Goes (exec (.cxdiff 3 5 6) (wCx 0xFFFFFFFF wList wBmap 3 .ended))
      ∧ Goes (exec (.cxnext 29 3 7 7) (wCx 0 wBmap wBmap 1 .ended)) ∧ Goes (exec (.cxnext 29 3 7 7) (wCx 0 wBmap wBmap 1 .run))
      ∧ Goes (exec (.cxnextW 29 3 7 7) (wCx 0 wBmap wBmap 1 .ended)) ∧ Goes (exec (.cxnextW 29 3 7 7) (wCx 0 wBmap wBmap 1 .run)))
    ∧ Goes (exec (.cxsplit 0 3 7) (wCx 0 wList wList 1 .ended)) ∧ Goes (exec (.cxsplit 0 3 7) wSplit)
    ∧ Goes (exec (.cxsave 3 5) (wCx 0xFFFC0 wBmap wList 2 .run)) ∧ Goes (exec (.cxrest 3 5) wImage)
    ∧ Goes (exec (.cxstat 5 3 0) (wCx 0 wBmap wBmap 1 .run)) ∧ Goes (exec (.cxstat 5 3 5) (wCx 0 wBmap wBmap 1 .run)) := by
  obtain ⟨h1, h2, h3, -, h5, h6, h7, h8, h9, h10, -, h12, h13, h14, -, -, h15⟩ :=
    h 3 0 5 6 29 7 7 1 wSide wMoved wMoved wWalk 0 0 0 wLanes
  obtain ⟨-, -, h11, -⟩ := past8 (h 3 0 5 6 29 7 7 1 wSide wMoved wMoved wWalk 32 5 0 wLanes)
  obtain ⟨h13, -⟩ := past4 (past8 (h 3 0 5 6 29 7 7 1 wSide (Side.ofImage 0 0 0 0) (Side.ofImage 0 0 0 0) wWalk 0 0 0 wLanes))
  exact ⟨⟨goS h1 ⟨.inl (by decide +kernel), segOk_of (by decide +kernel), by decide +kernel, by decide +kernel, by decide +kernel,
        by decide +kernel, by decide +kernel, by decide +kernel, ok_of (by decide +kernel)⟩,
      goS h2 (by decide +kernel), goS h3 (by decide +kernel), goS h5 (by decide +kernel),
      goS h6 ⟨⟨by decide +kernel, plain_of (by decide +kernel), by decide +kernel⟩, by decide +kernel⟩,
      goS h7 ⟨⟨by decide +kernel, plain_of (by decide +kernel), by decide +kernel⟩, by decide +kernel, wWalk_of⟩,
      goS h8 ⟨⟨by decide +kernel, plain_of (by decide +kernel), by decide +kernel⟩, .inl (by decide +kernel), by decide +kernel,
        .inl (by decide +kernel)⟩,
      goS h9 ⟨⟨by decide +kernel, plain_of (by decide +kernel), by decide +kernel⟩, by decide +kernel, by decide +kernel,
        by decide +kernel, okOr_of (by decide +kernel), okOr_of (by decide +kernel), okOr_of (by decide +kernel)⟩⟩,
    goS h10 ⟨by decide +kernel, .inl (by decide +kernel), by decide +kernel⟩,
    goS h11 ⟨by decide +kernel, .inl (by decide +kernel), by decide +kernel, by decide +kernel, by decide +kernel,
      ok_of (by decide +kernel), ok_of (by decide +kernel), by decide +kernel⟩,
    goS h12 ⟨.inl (by decide +kernel), segOk_of (by decide +kernel)⟩,
    goS h13 ⟨.inl (by decide +kernel), by decide +kernel, segOk_of (by decide +kernel), by decide +kernel, by decide +kernel,
      by decide +kernel, by decide +kernel, ok_of (by decide +kernel), ok_of (by decide +kernel)⟩,
    goS h14 (by decide +kernel), goS h15 (by decide +kernel)⟩
/-! ### Witnesses: the scan engine and the Flue -/

/-- The scan engine of slot 0 over all four ranks, with an operator. -/
def wScanE (op : Nat) : Scan := { Scan.reset with owner := some 0, opv := true, gv := true, count := 4, op := op }

/-- `w` with s5 over the descriptor of a tile of 4096 rows from byte 0 to byte 0x70000, and with its engine as `f` makes it
(R245). -/
def wScan (op : Nat) (f : Scan → Scan) : State :=
  (w5 0xFFFE0).modCore 0 fun y => { y.wr 0xFFFE0 32 ((if op = 7 then 0x70000 * 2 ^ 96 else 0) + 0x70000 * 2 ^ 64 + 4095 * 2 ^ 128)
    with scan := f (wScanE op) }

/-- A tile of `rows` rows that stands at a row. -/
def wTile (row rows : Nat) : Tile := ⟨0, 0x70000, 0, 0, rows, row, 100, false, none⟩

/-- `w` with s5, s6 set and with its engine as `f` makes it. -/
def wGrp (x y : W64) (f : Scan → Scan) : State :=
  (wS fun t => { t with s := (t.s.set 5 x).set 6 y }).modCore 0 fun z => { z with scan := f Scan.reset }

theorem witness_ScanInstructions (h : Obligations.ScanInstructions) :
    (Goes (exec (.scngrp 1 5 6) (wGrp 0 1 id)) ∧ Goes (exec (.scngrp 1 5 6) (wGrp 0 4 fun e => { e with owner := some 0, tiles := [wTile 0 1] }))
      ∧ Goes (exec .scngrpRel (wScan 0 id)) ∧ Goes (exec (.scnop 6) (wScan 0 id)) ∧ Goes (exec (.scntile 5) (wScan 7 id))
      ∧ Goes (exec (.scnfix 5) (wScan 0 id)))
    ∧ Goes (exec (.scnfixSt 5) ((w5 0xFFCC0).modCore 0 fun z => { z with scan := wScanE 0 }))
    ∧ Goes (exec (.scnxch 4 0) (wScan 6 id)) ∧ Goes (exec (.scnxch 4 1) (wScan 6 id))
    ∧ Goes (exec (.fbar 4) (wScan 0 fun e => { e with opv := false }))
    ∧ Goes (exec (.fcomb 5 1) ((w5 0xFFFC0).modCore 0 fun z => { z with scan := wScanE 0 })) := by
  obtain ⟨h1, h2, h3, -, h5, h6, h7, h8, h9, h10, h11⟩ := h 5 6 4 1 1
  obtain ⟨-, -, -, h4, -⟩ := h 6 6 4 1 1
  exact ⟨⟨goS h1 ⟨⟨by decide +kernel, .inl (by decide +kernel), by decide +kernel⟩, by decide +kernel⟩,
      goS h2 ⟨⟨by decide +kernel, .inr (by decide +kernel), by decide +kernel⟩, by decide +kernel⟩, goS h3 (by decide +kernel),
      goS h4 (by decide +kernel),
      goS h5 ⟨⟨⟨by decide +kernel, by decide +kernel, segOk_of (by decide +kernel), by decide +kernel, by decide +kernel⟩,
        ⟨by decide +kernel, segOk_of (by decide +kernel)⟩, ⟨by decide +kernel, segOk_of (by decide +kernel)⟩,
        fun _ => ⟨⟨by decide +kernel, segOk_of (by decide +kernel)⟩, by decide +kernel, segOk_of (by decide +kernel)⟩⟩,
        by decide +kernel⟩,
      goS h6 ⟨⟨by decide +kernel, by decide +kernel, segOk_of (by decide +kernel), by decide +kernel, by decide +kernel⟩,
        ⟨by decide +kernel, segOk_of (by decide +kernel)⟩, ⟨by decide +kernel, segOk_of (by decide +kernel)⟩,
        fun _ => ⟨by decide +kernel, segOk_of (by decide +kernel)⟩⟩⟩,
    goS h7 ⟨by decide +kernel, segOk_of (by decide +kernel)⟩, goS h8 (by decide +kernel), goS h9 (by decide +kernel),
    goS h10 (by decide +kernel), goS h11 ⟨by decide +kernel, by decide +kernel, segOk_of (by decide +kernel)⟩⟩

/-- A message of a barrier of gang 0. -/
def wFlue (p : FluePart) : FlueMsg := ⟨0, 0, 4, 0, .bar, 0, p, 0, 0, LaneVal.identity, 0⟩

/-- An operation of slot 0 that has taken part. -/
def wFlueOp (sent told : Bool) : FlueOp := ⟨.bar, 0, 4, some 100, LaneVal.identity, 0, sent, told⟩

/-- `w` with slot 0 waiting for the Flue and with its engine as `f` makes it. -/
def wF (f : Scan → Scan) : State :=
  (wS fun t => { t with st := .parked, held := .flue }).modCore 0 fun z => { z with scan := f (wScanE 0) }

theorem witness_ScanEngineAndFlue (h : Obligations.ScanEngineAndFlue) :
    Goes (exec (.scanTileRow 0) (wF fun e => { e with tiles := [wTile 0 2] }))
      ∧ Goes (exec (.scanTileRow 0) (wF fun e => { e with tiles := [wTile 0 1, wTile 0 4] }))
      ∧ Goes (exec (.scanTileRow 0) (wF fun e => { e with op := 7, tiles := [wTile 0 1] }))
      ∧ Goes (exec (.scnfixRow 0) (wF fun e => { e with fix := some (wTile 0 2) }))
      ∧ Goes (exec (.scanImageStripWrite 0) (wF fun e => { e with image := some (0xFFCC0, 5, 100) }))
      ∧ Goes (exec (.flueMessageArrive 0 (wFlue .carryL)) (wF id))
      ∧ Goes (exec (.flueDeferredSend 0) (wF fun e => { e with sends := [⟨1, wFlue .carryL⟩] }))
      ∧ Goes (exec (.flueOperationComplete 0) (wF fun e => { e with flue := some (wFlueOp false false) }))
      ∧ Goes (exec (.flueOperationComplete 0) (wF fun e =>
          { e with flue := some (wFlueOp true true), held := [wFlue .total] })) := by
  obtain ⟨h1, -, -, h4, h5, h6, h7, h8, -⟩ := h 0 (wTile 0 2) (wTile 0 4) [] (wFlue .carryL) (wFlue .total) ⟨1, wFlue .carryL⟩ []
    (wFlueOp false false) (LaneVal.identity, 0) (LaneVal.identity, 0) 0xFFCC0 5 100
  obtain ⟨-, h2, -, -, -, -, -, -, h9⟩ := h 0 (wTile 0 1) (wTile 0 4) [wTile 0 4] (wFlue .carryL) (wFlue .total) ⟨1, wFlue .carryL⟩ []
    (wFlueOp true true) (LaneVal.identity, 0) (LaneVal.identity, 0) 0 0 0
  obtain ⟨-, -, h3, -⟩ := h 0 (wTile 0 1) (wTile 0 4) [] (wFlue .carryL) (wFlue .total) ⟨1, wFlue .carryL⟩ []
    (wFlueOp true true) (LaneVal.identity, 0) (LaneVal.identity, 0) 0 0 0
  exact ⟨goE h1 ⟨⟨by decide +kernel, by decide +kernel, by decide +kernel⟩, by decide +kernel⟩, goE h2 (by decide +kernel),
    goE h3 (by decide +kernel), goE h4 (by decide +kernel), goE h5 (by decide +kernel),
    goE h6 ⟨by decide +kernel, by decide +kernel, live_of (by decide +kernel) (by decide +kernel), by decide +kernel⟩,
    goE h7 (by decide +kernel), goE h8 (by decide +kernel), goE h9 (by decide +kernel)⟩
/-! ### Witnesses: the copy engine -/

/-- A segment over HBM or host memory with every right (R15). -/
def sgGlob (sp : Nat) : W128 := BitVec.ofNat 128 ((2 ^ 48 - 1) * 2 ^ 80 + sp * 2 ^ 10 + 7)

/-- `w` with a command in s4 to s7 and a word in s8; sg0 is over the local store, sg1 over that of rank 3, sg2 over HBM; a
pattern block of a strip is at byte 0x400, and ring 7 is the slot's. -/
def wCpy (w0 w1 w2 w3 w4 : W64) : State :=
  ((wRing 0).modSlot 0 0 fun t => { t with
    s := ((((t.s.set 4 w0).set 5 w1).set 6 w2).set 7 w3).set 8 w4
    sg := ((t.sg.set 0 (sgAll ||| 8)).set 1 sgFar).set 2 (sgGlob 4) }).modCore 0 fun x => x.wr 0x400 64 (wPat true)

/-- `w` with a registered multicast of its slot. -/
def wBuf (left : List Nat) : State := { w5 0x90000 with hub := { w.hub with bufs := [⟨0, 0, 9, left, 0⟩] } }

/-- A command of slot 0 as it is queued, from byte 0 of the local store to the segment's byte 0x1000. -/
def wCmd (kind : CopyKind) (dst : W128) (f : Cmd → Cmd) : Cmd :=
  f { id := 5, kind := kind, queue := 3, slot := 0, tag := 1, dest := 0, rv := false, ring := 7, uli := false, padskip := false
      nomsg := false, bf := false, fem := false, esz := 0, opc := 0, src := sgAll, dst := dst, soff := 0, doff := 0x1000
      len := 64, pat := none, cnt := 0, idx := 0, ranks := [], left := [], region := false, started := true, due := 100
      got := [], unread := none, todo := none, fid := none, detached := false, pushes := false, written := false, complete := false, posted := false
      status := 0, badpos := none, words := 0 }

/-- `wCmd` while it still has a word to read for a target (R278). -/
def wRead (kind : CopyKind) (dst : W128) (r : Nat) : Cmd :=
  wCmd kind dst fun k => { k with
    ranks := if kind = .mcast then [0, 3] else [], left := if kind = .mcast then [0, 3] else []
    got := [⟨0, 3, 0x1000, 0, 7, 0x1000⟩]
    unread := some (r, [(⟨0, 3, 0x1004, 0x1004⟩, some ⟨0, 0, 4, 4⟩)]) }

/-- `wRing` with commands in queue 3 and slot 0 awaiting something. -/
def wQ (l : List Cmd) (h : Held) : State :=
  ((wRing 0).modSlot 0 0 fun t => { t with held := h, st := if h = .none then .ready else .parked }).modCore 0 fun x =>
    { x with cq := x.cq.set 3 l }

theorem witness_CopyInstructions (h : Obligations.CopyInstructions) :
    (Goes (exec (.cpy 4) (wCpy 0 0 4 64 0)) ∧ Goes (exec (.cpyg 4) (wCpy 0x30200 0x4000000000000000 0 (0x400 + 2 ^ 32) 0))
      ∧ Goes (exec (.cpys 4) (wCpy 1 0 0x100 (0x400 + 2 ^ 32) 0)) ∧ Goes (exec (.cpyt 4) (wCpy 0x1000 0 0x2000000000000000 0x400 0))
      ∧ Goes (exec (.mcast 4 8) (wCpy 0x800 0x1000 0x2000000000002000 64 (0x500 + 3 * 2 ^ 32)))
      ∧ Goes (exec (.cpyw 4) (wCpy (0x400 + 0xF000000) 0 0x4000000000000000 128 0)))
    ∧ Goes (exec (.buffree 5) w) ∧ Goes (exec (.buffree 5) (wBuf [0, 3])) ∧ Goes (exec (.buffree 5) (wBuf [0]))
    ∧ Goes (exec (.cpyqstat 4 3) w) ∧ Goes (exec (.cpyqstat 4 3) (wQ [wCmd .cpy sgAll id] .none)) := by
  obtain ⟨h1, h2, h3, h4, h5, h6, h7, h8, h9, h10, h11⟩ := h 4 8 4 3 ⟨0, 0, 9, [0, 3], 0⟩
  obtain ⟨-, -, -, -, -, -, h7, h8, -⟩ := h 4 5 4 3 ⟨0, 0, 9, [0, 3], 0⟩
  obtain ⟨h9, -⟩ := past8 (h 4 5 4 3 ⟨0, 0, 9, [0], 0⟩)
  exact ⟨⟨goS h1 (by simp only [State.segOk]; and_intros <;> decide +kernel), goS h2 (by simp only [State.segOk]; and_intros <;> decide +kernel),
      goS h3 (by simp only [State.segOk]; and_intros <;> decide +kernel), goS h4 (by simp only [State.segOk]; and_intros <;> decide +kernel),
      goS h5 (by simp only [State.segOk]; and_intros <;> decide +kernel), goS h6 (by simp only [State.segOk]; and_intros <;> decide +kernel)⟩,
    goS h7 (by decide +kernel), goS h8 (by decide +kernel), goS h9 (by decide +kernel), goS h10 (by decide +kernel),
    goS (h11 (wCmd .cpy sgAll id) []) (by decide +kernel)⟩

theorem witness_CopyEngine (h : Obligations.CopyEngine) :
    Goes (exec (.copyCommandStart 0 3) (wQ [wCmd .cpy sgAll fun k => { k with started := false }] .none))
      ∧ Goes (exec (.copyCommandComplete 0 3) (wQ [wCmd .cpy sgAll id] .none))
      ∧ Goes (exec (.copyCommandComplete 0 3) (wQ [wRead .cpy sgAll 0] .none))
      ∧ Goes (exec (.copyCommandComplete 0 3) (wQ [wCmd .cpy sgAll fun k => { k with todo := some [⟨0, 3, 0x1000, 0, 7, 0x1000⟩] }] .none))
      ∧ Goes (exec (.copyCommandComplete 0 3)
        (wQ [wCmd .cpyw sgAll fun k => { k with written := true, complete := true }] (.cpyw 5)))
      ∧ Goes (exec (.copyRingPushDeferred 0 3)
        (wQ [wCmd .cpy sgAll fun k => { k with rv := true, written := true, pushes := true }] .none))
      ∧ Goes (exec (.copyRingPushDeferred 0 0) ((wQ [] .none).modCore 0 fun x => { x with pushWait := [7] }))
      ∧ Goes (exec (.mcastTargetComplete 0 3 3)
        ((wQ [wCmd .mcast sgFar fun k => { k with ranks := [0, 3], left := [0, 3] }] .none).modCore 3 fun x => { x with banked := false }))
      ∧ Goes (exec (.mcastTargetComplete 0 3 3) (wQ [wRead .mcast sgFar 3] .none))
      ∧ Goes (exec (.copyQueuePlaceFree 0 0) (wQ [wCmd .cpy sgAll id] (.copyPlace 3)))
      ∧ Goes (exec (.buffreeCredit 0 0 9) (wBuf [])) := by
  have g := fun (r : Nat) (k : Cmd) (l : List WrOp) (ps : List (Place × Place)) => h 0 3 0 9 r k l ps (by decide)
  obtain ⟨h1, -⟩ := g 0 (wCmd .cpy sgAll fun k => { k with started := false }) [] []
  obtain ⟨-, h2, -⟩ := g 0 (wCmd .cpy sgAll id) [] []
  obtain ⟨-, -, h3, -⟩ := g 0 (wRead .cpy sgAll 0) [] [(⟨0, 3, 0x1004, 0x1004⟩, ⟨0, 0, 4, 4⟩)]
  obtain ⟨-, -, -, h4, -⟩ := g 0 (wCmd .cpy sgAll fun k => { k with todo := some [⟨0, 3, 0x1000, 0, 7, 0x1000⟩] })
    [⟨0, 3, 0x1000, 0, 7, 0x1000⟩] []
  obtain ⟨h5, -⟩ := past4 (g 0 (wCmd .cpyw sgAll fun k => { k with written := true, complete := true }) [] [])
  obtain ⟨-, h6, -⟩ := past4 (g 0 (wCmd .cpy sgAll fun k => { k with rv := true, written := true, pushes := true }) [] [])
  obtain ⟨-, -, h7, -⟩ := past4 (g 7 (wCmd .cpy sgAll id) [] [])
  obtain ⟨-, -, -, h8, -⟩ := past4 (g 3 (wCmd .mcast sgFar fun k => { k with ranks := [0, 3], left := [0, 3] }) [] [])
  obtain ⟨h9, h10, h11⟩ := past8 (g 3 (wRead .mcast sgFar 3) [] [(⟨0, 3, 0x1004, 0x1004⟩, ⟨0, 0, 4, 4⟩)])
  have l3 : ((wQ [wCmd .mcast sgFar fun k => { k with ranks := [0, 3], left := [0, 3] }] .none).modCore 3
      fun x => { x with banked := false }).rankCore 0 3 = 3 := by decide +kernel
  exact ⟨goE h1 (by decide +kernel),
    goE h2 ⟨by decide +kernel, by decide +kernel, by decide +kernel, by decide +kernel, by decide +kernel, by decide +kernel,
      by decide +kernel, by decide +kernel, live_of (by decide +kernel) (by decide +kernel)⟩,
    goE h3 (by decide +kernel), goE h4 (by decide +kernel), goE h5 (by decide +kernel),
    goE h6 ⟨by decide +kernel, live_of (by decide +kernel) (by decide +kernel), by decide +kernel, by decide +kernel⟩,
    goE h7 ⟨by decide +kernel, by decide +kernel, live_of (by decide +kernel) (by decide +kernel), by decide +kernel, by decide +kernel⟩,
    goE h8 ⟨by decide +kernel, by decide +kernel, by decide +kernel, by decide +kernel, by decide +kernel, by decide +kernel,
      by decide +kernel, by decide +kernel, by decide +kernel, live_of (by decide +kernel) (by decide +kernel),
      l3 ▸ live_of (by decide +kernel) (by decide +kernel), by decide +kernel⟩,
    goE h9 (by decide +kernel), goE h10 (by decide +kernel),
    goE h11 ⟨live_of (by decide +kernel) (by decide +kernel), by decide +kernel, by decide +kernel, ⟨0, 0, 9, [], 0⟩, by decide +kernel⟩⟩

/-! ### Witnesses: streams, ports, pipes and the Caddy -/

/-- `w` with pipe 7 and unit 7. -/
def wPipe (p : Pipe) (y : Stream) : State := wC fun x => { x with pipe := x.pipe.set 7 p, su := x.su.set 7 y }

/-- `w` at user level, with s5 over the image of a binding of port 3 (R314). -/
def wImg : State :=
  ((w5 0xFFF80).modSlot 0 0 fun t => { t with level := false }).modCore 0 fun x => x.wr (0xFFF80 + 80) 8 (3 + 3 * 256)

theorem witness_StreamInstructions (h : Obligations.StreamInstructions) :
    (Goes (exec (.scfg 4 7 0 7) (wCpy 0 0x400 0 0 0)) ∧ Goes (exec (.scfg 4 0 1 7) (wCpy 0x4000000000000000 0x400 0xFF000 0 0))
      ∧ Goes (exec (.sbind 3 7 0 0 7) w) ∧ Goes (exec (.sbind 7 0 1 1 7) (wPipe wFull Stream.reset))
      ∧ Goes (exec (.psend 4) (wCpy 0xFFF80 3 3 0 0)) ∧ Goes (exec (.psende 4) (wCpy 0 3 3 0 0))
      ∧ Goes (exec (.sclose 31) (wPipe wFull (wSu .pattern true))) ∧ Goes (exec (.sclose 31) (wPipe wFull (wSu .pipe true))))
    ∧ Goes (exec (.ssave 31 5) (w5 0xFFF80)) ∧ Goes (exec (.srest 31 5) wImg) ∧ Goes (exec (.pipebind 7 5 1) (wPipe wFull Stream.reset))
    ∧ Goes (exec (.pipebind 7 5 0) (w5 (0xFF800 + 15 * 2 ^ 32)))
    ∧ Goes (exec (.pipebindRel 7) (wPipe { wFull with cons := some 1 } Stream.reset))
    ∧ Goes (exec (.pipebindRel 7) (wPipe wFull Stream.reset)) ∧ Goes (exec (.wdq 5 7) (w5 0xFFFFC)) := by
  obtain ⟨h1, -, h3, -, h5, h6, h7, h8, h9, h10, h11, -, h13, h14, h15⟩ := h 4 5 31 7 7 3 0 1 0
  obtain ⟨-, h2, -⟩ := h 4 5 31 0 7 3 1 1 0xFF000
  obtain ⟨-, -, -, h4, -⟩ := h 4 5 31 0 7 7 1 1 0
  obtain ⟨-, -, h11, -, h13, h14, -⟩ := past8 (h 4 5 31 7 7 7 0 1 0)
  obtain ⟨-, -, -, h12, -⟩ := past8 (h 4 5 31 7 7 7 0 0 0)
  exact ⟨⟨goS h1 (by simp only [State.segOk]; and_intros <;> decide +kernel),
      goS h2 (by simp only [State.segOk]; and_intros <;> decide +kernel),
      goS h3 (by decide +kernel), goS h4 (by decide +kernel),
      goS h5 (by simp only [State.segOk]; and_intros <;> decide +kernel), goS h6 (by decide +kernel), goS h7 (by decide +kernel),
      goS h8 (by decide +kernel)⟩,
    goS h9 (by simp only [State.segOk]; and_intros <;> decide +kernel),
    goS h10 (by simp only [State.segOk]; and_intros <;> decide +kernel),
    goS h11 ⟨.inr (by decide +kernel), by decide +kernel⟩,
    goS h12 ⟨.inl (by decide +kernel), by decide +kernel, segOk_of (by decide +kernel), by decide +kernel⟩,
    goS h13 (by decide +kernel), goS h14 (by decide +kernel),
    goS h15 ⟨segOk_of (by decide +kernel), by decide +kernel⟩⟩

/-- `w` with unit 7 a stream of host memory, one strip from byte 0 on (R307). -/
def wUnit (f : Stream → Stream) : State :=
  wC fun x => { x with su := x.su.set 7 (f { wSu .global false with blk := BitVec.ofNat 512 (wPat true), seg := sgGlob 5 }) }

/-- A read unit whose strip comes in this cycle, and a write unit whose strip leaves. -/
def wIn : State := wUnit fun y => { y with ticket := some 5, flight := true, due := 100 }
def wOut : State :=
  wUnit fun y => { y with write := true, flight := true, due := 100, staged := [(⟨7, false, false⟩, 0x80000001#32)] }

/-- The places that `wIn` reads. -/
def wPlaces : List Place := okOr [] (wIn.placesR 0 (sgGlob 5) (stripOffs 0))

/-- What the write of `wOut` leaves. -/
def wOutR :=
  let y := (wOut.core 0).suOf 7
  wOut.drainWords 0 (y.owner.getD 0) y 7 (patSrc y.blk y.base y.moved) ((steps 0 1 32).filter fun j => (0x80000001#32).getLsbD j)

theorem triple_of {A B C : Type} {x : A × B × C} {a b} (h : x.1 = a) (h' : x.2.1 = b) : x = (a, b, x.2.2) := by
  obtain ⟨_, _, _⟩ := x
  simp_all

/-- A host address without tables is in no cache (R363, R365). -/
theorem wIn_cache (l : List Int) : wIn = l.foldl (fun s o => s.cacheAt 0 ((s.core 0).suOf 7).seg o) wIn := by
  have h : ∀ o, wIn.cacheAt 0 ((wIn.core 0).suOf 7).seg o = wIn := by
    intro o
    have e : rootOf (tget 0#64 (wIn.ctxOf 0) wIn.hub.hostroot) = none := by decide +kernel
    have e5 : sgSpace ((wIn.core 0).suOf 7).seg = 5 := by decide +kernel
    have e0 : wIn.hub.tlb = [] := by decide +kernel
    simp [State.cacheAt, State.cache, e5, e, e0]
  induction l with
  | nil => rfl
  | cons o l ih => simpa [h o] using ih

theorem witness_StreamEngineAndCaddy (h : Obligations.StreamEngineAndCaddy) :
    Goes (exec (.streamRefill 0 7) (wUnit id)) ∧ Goes (exec (.streamRefill 0 7) (wUnit fun y => { y with ticket := some 5 }))
      ∧ Goes (exec (.streamRefill 0 7) (wUnit fun y => { y with
          ticket := some 5, flight := true, due := 100, blk := BitVec.ofNat 512 (wPat false) }))
      ∧ Goes (exec (.streamRefill 0 7) wIn)
      ∧ Goes (exec (.streamDrain 0 7) (wUnit fun y => { y with write := true, staged := [(⟨7, false, false⟩, 1)] }))
      ∧ Goes (exec (.streamDrain 0 7) wOut) ∧ Goes (exec (.portStripArrive 0 3 7 true 1 2 5) w)
      ∧ Goes (exec (.portStripArrive 0 3 7 true 1 2 5)
          (wC fun x => { x with port := x.port.set 3 ⟨some 0, List.replicate 16 ⟨7, false, false⟩, []⟩ }))
      ∧ Goes (exec (.stripReady 0 0) ((wUnit fun y => { y with kind := .pattern, seg := sgAll }).modSlot 0 0 fun t =>
          { t with held := .strip [31] [] }))
      ∧ Goes (exec (.caddyQuery 0 0 7 0x400) w) ∧ Goes (exec (.caddyAnswer 0 0 0x400 7) (wS fun t => { t with caddy := 1 }))
      ∧ Goes (exec (.caddyAnswer 0 0 0x400 7) (wH fun b => { b with gangs := [(0, { wGang with ranks := [⟨0, 0, true⟩] })] })) := by
  have g := fun (last : Bool) (l : List Place) (t : State) => h 0 7 0 3 1 2 5 0x400 0 [31] [] 7 7 last 0x80000001#32 l t 7 wGang 7 (by decide)
  obtain ⟨h1, h2, h3, -⟩ := g true [] w
  obtain ⟨-, -, -, h4, h5, -⟩ := g false wPlaces wIn
  obtain ⟨-, h6, -⟩ := past4 (g false [] wOutR.2.2)
  obtain ⟨-, -, h7, h8, z⟩ := past4 (g true [] w)
  obtain ⟨h9, h10, h11, h12⟩ := z
  have hp : wIn.placesR 0 ((wIn.core 0).suOf 7).seg (stripOffs (patSrc ((wIn.core 0).suOf 7).blk ((wIn.core 0).suOf 7).base
    ((wIn.core 0).suOf 7).moved)) = .ok wPlaces := ok_of (by decide +kernel)
  have hd : wOutR = (none, false, wOutR.2.2) := triple_of (by decide +kernel) (by decide +kernel)
  exact ⟨goE h1 (by decide +kernel), goE h2 (by decide +kernel), goE h3 (by decide +kernel),
    goE h4 ⟨by decide +kernel, by decide +kernel, by decide +kernel, hp, wIn_cache _, by decide +kernel⟩,
    goE h5 (by decide +kernel),
    goE h6 ⟨by decide +kernel, by decide +kernel, by decide +kernel, by decide +kernel, hd,
      fun j _ => bad_nil _ _ _ (by decide +kernel)⟩,
    goE h7 ⟨live_w, by decide +kernel, by decide +kernel⟩,
    goE h8 ⟨live_of (by decide +kernel) (by decide +kernel), by decide +kernel, by decide +kernel⟩, goE h9 (by decide +kernel),
    goE h10 (by decide +kernel), goE h11 ⟨by decide +kernel, live_of (by decide +kernel) (by decide +kernel), by decide +kernel⟩,
    goE h12 (by decide +kernel)⟩

/-! ### Witnesses: channels -/

/-- `w` with slot 0 a member of the channel of slot 0 of rank 1. -/
def wMem (m : Mst) (f : Slot → Slot) : State := wS fun t => f { t with mst := m, chan := 16, s := t.s.set 5 16 }

/-- `w` with slot 0 the publisher of a channel. -/
def wPub (l : List Member) (f : Slot → Slot) : State := wS fun t => f { t with pub := true, members := l }

/-- A membership of slot 1 of rank 3. -/
def wMember : Member := ⟨49, 2, .joined⟩

/-- A published RDV that is due. -/
def wDue : Due := ⟨90, ⟨16, 0x3428B007, 0x100, 0x108, 2⟩⟩

theorem witness_ChannelInstructions (h : Obligations.ChannelInstructions) :
    (Goes (exec (.pubon 4) { w with cur := (0, 13) }) ∧ Goes (exec .puboff (wPub [wMember] id)) ∧ Goes (exec .puboff (wMem .joined id))
      ∧ Goes (exec .puboff w) ∧ Goes (exec (.subscr 4 5 1) (w5 61))
      ∧ Goes (exec .unsub (wMem .joined fun t => { t with due := [wDue] })) ∧ Goes (exec .unsub (wMem .away id))
      ∧ Goes (exec (.unsubp 0) (wMem .joined id)) ∧ Goes (exec (.unsubp 7) (wMem .joined id)))
    ∧ (Goes (exec (.unsubm 7) (wMem .joined id)) ∧ Goes (exec (.unsubm 7) (wMem .pending id)) ∧ Goes (exec .leave (wMem .pending id))
      ∧ Goes (exec .leave w) ∧ Goes (exec (.resub 4 5) (wMem .joined id))
      ∧ Goes (exec (.resub 4 5) (wMem .away fun t => { t with asked := 2 })))
    ∧ Goes (exec (.rdv 4 5) (wPub [] id)) ∧ Goes (exec (.rdv 4 5) (wPub [wMember] id)) ∧ Goes (exec (.rdv 4 5) (wMem .joined id))
    ∧ Goes (exec (.rdv 4 5) (wMem .away id)) := by
  obtain ⟨h1, h2, h3, h4, h5, ⟨h6, h7⟩, ⟨h8, -⟩, ⟨h10, h11⟩, h12, h13, h14, h15, h16, h17, h18, h19⟩ := h 4 5 1 0 7
  obtain ⟨-, -, -, -, -, -, ⟨-, h9⟩, -⟩ := h 4 5 1 7 7
  exact ⟨⟨goS h1 (by decide +kernel), goS h2 (by decide +kernel), goS h3 (by decide +kernel), goS h4 (by decide +kernel),
      goS h5 (by decide +kernel), goS h6 (by decide +kernel), goS h7 (by decide +kernel), goS h8 (by decide +kernel),
      goS h9 (by decide +kernel)⟩,
    ⟨goS h10 (by decide +kernel), goS h11 (by decide +kernel), goS h12 (by decide +kernel), goS h13 (by decide +kernel),
      goS h14 (by decide +kernel), goS h15 (by decide +kernel)⟩,
    goS h16 (by decide +kernel), goS h17 (by decide +kernel), goS h18 (by decide +kernel), goS h19 (by decide +kernel)⟩

/-- A rendezvous that waits for two memberships. -/
def wRdv : Rdv := ⟨7, [49, 33], []⟩

theorem witness_ChannelEvents (h : Obligations.ChannelEvents) :
    (Goes (exec (.publishedBundleArrive 0 0 wDue.bun) (wMem .joined fun t => { t with due := List.replicate 63 wDue }))
      ∧ Goes (exec (.publishedBundleArrive 0 0 wDue.bun) (wMem .joined fun t => { t with due := List.replicate 64 wDue }))
      ∧ Goes (exec (.joinRequestArrive 0 0 49) (wPub [wMember] id)) ∧ Goes (exec (.joinRequestArrive 0 0 49) w)
      ∧ Goes (exec (.subscrRefusalArrive 0 0) (wMem .pending fun t => { t with held := .subscr 4 }))
      ∧ Goes (exec (.rdvReportArrive 0 0 49) (wPub [wMember] fun t => { t with rdv := some wRdv }))
      ∧ Goes (exec (.rdvReportArrive 0 0 49) (wPub [wMember] fun t => { t with rdv := some wRdv, late := [49] }))
      ∧ Goes (exec (.rdvReportArrive 0 0 49) (wPub [wMember] fun t => { t with rdv := some ⟨7, [49], []⟩, held := .rdv 4 7 })))
    ∧ Goes (exec (.rdvCompletionArrive 0 0 ⟨16, 7, 0x80⟩ 160) (wMem .pending fun t => { t with held := .subscr 4 }))
    ∧ Goes (exec (.rdvCompletionArrive 0 0 ⟨16, 7, 0x80⟩ 160) (wMem .away fun t => { t with held := .resub 4 7 }))
    ∧ Goes (exec (.membershipNoticeArrive 0 0 49 .away) (wPub [wMember] id))
    ∧ Goes (exec (.membershipNoticeArrive 0 0 49 .leave) (wPub [wMember] id))
    ∧ Goes (exec (.publishEndArrive 0 0 16) (wMem .joined fun t => { t with due := [wDue] }))
    ∧ Goes (exec (.publishEndArrive 0 0 16) (wMem .pending fun t => { t with held := .subscr 4 })) := by
  obtain ⟨h1, h2, h3, h4, h5, h6, h13, h7, h8, h9, h10, h11, h12⟩ :=
    h 0 0 49 16 4 7 160 wDue.bun wDue (List.replicate 63 wDue) wRdv wMember ⟨16, 7, 0x80⟩ (by decide)
  obtain ⟨-, -, -, h7, -⟩ := past4 (h 0 0 49 16 4 7 160 wDue.bun wDue [] ⟨7, [49], []⟩ wMember ⟨16, 7, 0x80⟩ (by decide))
  exact ⟨⟨goE h1 (by decide +kernel), goE h2 (by decide +kernel), goE h3 (by decide +kernel), goE h4 (by decide +kernel),
      goE h5 (by decide +kernel), goE h6 (by decide +kernel), goE h13 ⟨by decide +kernel, .inr ⟨rfl, by decide⟩⟩, goE h7 (by decide +kernel)⟩,
    goE h8 (by decide +kernel), goE h8 (by decide +kernel), goE h9 trivial, goE h10 (by decide +kernel),
    goE h11 (by decide +kernel), goE h12 (by decide +kernel)⟩
/-! ### Witnesses: tasks -/

/-- `w` with stage 7 bound, and a quad in s4 to s7 (R219, R221). -/
def wQuad (w1 w2 w3 : W64) : State :=
  (wS fun t => { t with s := (((t.s.set 5 w1).set 6 w2).set 7 w3).set 8 3 }).modCore 0 fun x =>
    { x with stage := x.stage.set 7 0x80000000000FFFF8#64 }

/-- A record of gang 0 at stage 7, over a range or not. -/
def wTask (range : Bool) : TaskRec := ⟨1, 3 * 2 ^ 32 + 1, if range then 0x27 else 7, 0, 0⟩

/-- `wQuad` with records in the deque's highest band. -/
def wDq (l : List TaskRec) : State := (wQuad 0 7 0).modCore 0 fun x => { x with dq := x.dq.set 0 l }

/-- What the take of `wDq [wTask false]` leaves of its core. -/
def wTook : Core := (((wDq [wTask false]).capture 0).my.localTake 0 0).elim wc (·.2)

/-- A slot that runs a task whose counter is `j`. -/
def wRun (j : W64) : State := (wQuad (3 * 2 ^ 32 + 1) 0x27 0).modSlot 0 0 fun t => { t with curj := j, lin := 7 }

theorem some_of {A B : Type} {x : Option (A × B)} {a : A} {b : B} (h : x.map (·.1) = some a) : x = some (a, x.elim b (·.2)) := by
  match x, h with
  | some (_, _), rfl => rfl

theorem witness_TaskInstructions (h : Obligations.TaskInstructions) :
    (Goes (exec (.fork 4 7) (wQuad 0 7 (0x8000000000000000 + 0xFFFFC))) ∧ Goes (exec (.fork 4 7) (wQuad 0 0xF0000000007 0))
      ∧ Goes (exec (.fork 4 7) (wDq (List.replicate 64 (wTask false)))) ∧ Goes (exec (.forkd 4 7) (wQuad 0 7 0))
      ∧ Goes (exec (.dqpushr 4 8 7) (wQuad 0 7 0)) ∧ Goes (exec (.split 4 7) (wRun 0 |>.modSlot 0 0 fun t => { t with s := t.s.set 5 (2 ^ 32) }))
      ∧ Goes (exec (.split 4 7) (wRun 0)))
    ∧ (Goes (exec (.dqpop 4 0 2 0 7) (wDq [wTask false])) ∧ Goes (exec (.dqpop 4 1 0 1 7) (wDq [wTask false]))
      ∧ Goes (exec (.dqpop 4 0 0 1 7) w) ∧ Goes (exec (.dqpop 4 0 2 1 7) w) ∧ Goes (exec (.steal 4 8 7) (wQuad 0 7 0)))
    ∧ Goes (exec (.join 5) (w5 0xFFFFC)) ∧ Goes (exec (.join 5) ((w5 0xFFFFC).modCore 0 fun x => x.wr 0xFFFFC 4 1))
    ∧ Goes (exec .taskend w) ∧ Goes (exec (.cancell 4 5) (w5 0x10000)) ∧ Goes (exec (.cancell 4 5) (w5 0xFFFF)) := by
  obtain ⟨h1, h2, h3, h4, h5, h6, h7, h8, -, h10, -, h12, -, -, h15, -⟩ := h 4 8 4 7 0 1 0 (wTask false) wTook
  obtain ⟨-, -, -, h8, -, -, h11, -, -, -, -, -⟩ := past4 (h 4 8 4 7 0 1 2 (wTask false) wTook)
  obtain ⟨-, -, -, h8, h9, -, -, -, h13, h14, -, h16, h17⟩ := past4 (h 4 5 4 7 0 1 0 (wTask false) wTook)
  obtain ⟨-, -, -, h8, -⟩ := past4 (h 4 8 4 7 0 0 2 (wTask false) wTook)
  have ht : ∀ s : State, s = wDq [wTask false] → s.my.localTake (s.gangNo s.cur.1) s.cur.2 = some (wTask false, wTook)
      ∧ s.hub.cancels = [] := by
    rintro _ rfl
    refine ⟨?_, by decide +kernel⟩
    have e : ((wDq [wTask false]).my.localTake 0 0).map (·.1) = some (wTask false) := by decide +kernel
    have e' : (wDq [wTask false]).gangNo (wDq [wTask false]).cur.1 = 0 := by decide +kernel
    rw [e']
    exact some_of (b := wc) e
  exact ⟨⟨goS h1 (by simp only [State.segOk]; and_intros <;> decide +kernel),
      goS h2 (by simp only [State.segOk]; and_intros <;> decide +kernel),
      goS h3 (by simp only [State.segOk]; and_intros <;> decide +kernel),
      goS h4 (by simp only [State.segOk]; and_intros <;> decide +kernel),
      goS h5 (by simp only [State.segOk]; and_intros <;> decide +kernel), goS h6 (by decide +kernel), goS h7 (by decide +kernel)⟩,
    ⟨goS h8 (ht _ rfl), goS h9 (ht _ rfl), goS h10 (by decide +kernel), goS h11 (by decide +kernel), goS h12 (by decide +kernel)⟩,
    goS h13 ⟨segOk_of (by decide +kernel), by decide +kernel, by decide +kernel⟩,
    goS h14 ⟨segOk_of (by decide +kernel), by decide +kernel, by decide +kernel⟩, goS h15 trivial, goS h16 (by decide +kernel),
    goS h17 (by decide +kernel)⟩

/-- A push of slot 0 of core 0 to a die queue, or to core 3. -/
def wPush (toQueue : Bool) : Push := ⟨wTask false, 0, 0, 7, false, toQueue, if toQueue then 7 else 3⟩

/-- A steal request of slot 2 of core 1. -/
def wSteal : StealReq := ⟨1, 2, 0, none, 0, .steal, 5, 150⟩

/-- The search of a waiting DQPOP. -/
def wSearch : Search := ⟨4, 7, 2, false, false, 0, [], false, 100, 100, 100⟩

/-- A cancellation that slot 0 of core 0 has begun. -/
def wCancel : CancelRun := ⟨0, 7, 0, 0, none, 0, [], [], 0⟩

/-- `w` with slot 0 awaiting something, and a cancellation. -/
def wAw (h : Held) (l : List CancelRun) : State :=
  { wS fun t => { t with st := .parked, held := h } with hub := { w.hub with cancels := l } }

/-- `w` with core 3 up, and with records in its deque's highest band. -/
def w3 (l : List TaskRec) : State := w.modCore 3 fun x => { x with banked := false, dq := x.dq.set 0 l }

/-- A slot whose counter has been zero in this cycle and is no longer (R235). -/
def wJoin : State := (wAw (.join 0xFFFFC) []).modCore 0 fun x => { x.wr 0xFFFFC 4 1 with zeroed := [0xFFFFC] }

/-- A take from the top of `wDq`'s deque, or of die queue 7. -/
def wTop (range : Bool) : Vector (List TaskRec) 4 :=
  (bandsTakeTop (wDq [wTask range]).my.dq (eligible 0 none false)).elim (Vector.replicate 4 []) (·.2)
def wDie : State := { w with dieq := w.dieq.set 7 ((Vector.replicate 4 []).set 0 [wTask false]) }
def wDieTop : Vector (List TaskRec) 4 :=
  (bandsTakeTop (wDie.dieQueue 7) (eligible 0 none true)).elim (Vector.replicate 4 []) (·.2)

theorem witness_TaskEvents (h : Obligations.TaskEvents) :
    (Goes (exec (.pushArrive (wPush true)) w) ∧ Goes (exec (.pushArrive (wPush false)) (w3 []))
      ∧ Goes (exec (.pushArrive (wPush false)) (w3 (List.replicate 64 (wTask false))))
      ∧ Goes (exec (.pushAckArrive (wPush true)) (wAw (.push none) [])) ∧ Goes (exec (.pushRefusalArrive (wPush true)) (wAw (.push none) [])))
    ∧ (Goes (exec (.stealRequestArrive 0 wSteal) w) ∧ Goes (exec (.stealRequestArrive 0 wSteal) (wDq [wTask false]))
      ∧ Goes (exec (.stealRequestArrive 0 wSteal) (wDq [wTask true]))
      ∧ Goes (exec (.stealAnswerArrive 0 0 .steal ⟨5, 3, some (wTask true)⟩) (wAw (.steal 4 7 5) []))
      ∧ Goes (exec (.stealAnswerArrive 0 0 .steal ⟨5, 3, none⟩) (wAw (.steal 4 7 5) []))
      ∧ Goes (exec (.stealAnswerArrive 0 0 .steal ⟨5, 3, none⟩) (wAw (.steal 4 7 6) [])) ∧ Goes (exec (.dieQueueRequest 7 wSteal) wDie))
    ∧ Goes (exec (.dqpopPass 0 0) { wAw (.dqpop wSearch) [] with
        hub := { w.hub with gangs := [(0, { wGang with size := 1, ranks := [⟨0, 0, false⟩] })] } })
    ∧ Goes (exec (.joinCounterUpdate 0 0xFFFFC true) (wC fun x => x.wr 0xFFFFC 4 0xFFFFFFFF))
    ∧ Goes (exec (.joinCounterUpdate 0 0xFFFFC false) ((wAw (.join 0xFFFFC) []).modCore 0 fun x => x.wr 0xFFFFC 4 1))
    ∧ wJoin.serveJoins 0 = wJoin
    ∧ Goes (exec (.cancelArrive 0 0 0) { wDq [wTask false] with hub := { w.hub with cancels := [{ wCancel with tag := 0 }] } })
    ∧ Goes (exec (.cancellComplete 0 0) (wAw (.cancell 4 7) [wCancel])) ∧ Goes (exec (.taskendComplete 0 0) (wAw (.taskend false) [])) := by
  have g := fun (d tag v : Nat) (p : Push) (r : TaskRec) (rest : Vector (List TaskRec) 4) (run : CancelRun) (z : State) =>
    h 0 0 4 7 d tag 0 0xFFFFC v 5 3 p wSteal r rest wSearch run wCancel z (by decide)
  obtain ⟨h1, -, -, h4, h5, h6, -⟩ := g 0 0 0 (wPush true) (wTask false) (wTop false) wCancel w
  obtain ⟨-, h2, h3, -, -, -, h7, -⟩ := g 0 7 0 (wPush false) (wTask false) (wTop false) wCancel w
  obtain ⟨-, -, -, h8, z⟩ := past4 (g 0 7 6 (wPush false) (wTask true) (wTop true) wCancel w)
  obtain ⟨h9, h10, h11, -, h13, -⟩ := z
  obtain ⟨-, -, -, h12, -⟩ := past8 (g 7 7 0 (wPush false) (wTask false) wDieTop wCancel w)
  obtain ⟨-, h14, h15, h16, z⟩ := past4 (past8 (g 0 0 0xFFFFFFFF (wPush false) (wTask false) (wTop false) { wCancel with tag := 0 } w))
  obtain ⟨h17, -, h19⟩ := z
  obtain ⟨-, h18, -⟩ := past8 (past8 (g 4 7 0 (wPush false) (wTask false) wDieTop wCancel ((wAw (.cancell 4 7) [wCancel]).cancelSweep wCancel)))
  have l0 : ∀ x l, (wAw x l).live 0 := fun _ _ => live_of rfl rfl
  exact ⟨⟨goE h1 (by decide +kernel), goE h2 (by decide +kernel), goE h3 (by decide +kernel),
      goE h4 ⟨by decide +kernel, by decide +kernel, l0 _ _, by decide +kernel⟩,
      goE h5 ⟨by decide +kernel, by decide +kernel, l0 _ _, by decide +kernel⟩⟩,
    ⟨goE h6 (by decide +kernel), goE h7 ⟨some_of (by decide +kernel), by decide +kernel⟩,
      goE h8 ⟨some_of (by decide +kernel), by decide +kernel⟩, goE h9 ⟨by decide +kernel, l0 _ _, by decide +kernel⟩,
      goE h10 ⟨by decide +kernel, l0 _ _, by decide +kernel⟩, goE h11 (by decide +kernel), goE h12 (some_of (by decide +kernel))⟩,
    goE h13 (by decide +kernel), goE h14 (by decide +kernel),
    goE h15 ⟨by decide +kernel, live_of (by decide +kernel) (by decide +kernel), by decide +kernel⟩,
    (h16 _ (by decide +kernel) (by decide +kernel) (by decide +kernel)).trans (if_neg (by decide +kernel)),
    goE h17 ⟨live_of (by decide +kernel) (by decide +kernel), by decide +kernel⟩,
    goE h18 ⟨by decide +kernel, by decide +kernel, rfl, by decide +kernel, by decide +kernel,
      live_of (by decide +kernel) (by decide +kernel), by decide +kernel, by decide +kernel⟩,
    goE h19 (by decide +kernel)⟩
/-! ### Witnesses: messages, the events of a core, and pages -/

/-- `w` with handler 15 and a message for rank 3 in s4 to s6 and s8 (R268). -/
def wSend (n : Nat) : State :=
  (wS fun t => { t with s := t.s.set 8 3, relaxed := List.replicate n ⟨1, 3, none, 0, 0⟩ }).modCore 0 fun x =>
    { x with hand := x.hand.set 15 0x80000000#32 }

/-- A message that interrupts. -/
def wUli : Msg := ⟨0x100, 7, none⟩

/-- Core 0 of `w` with its slot idle, in the last cycle of a table's period. -/
def wIdle (f : Core → Core) : State := { wS fun t => { t with st := .idle } with now := 96 }.modCore 0 f

/-- What slot 0 held at the mark of its open region. -/
def wSnap : Snap := ⟨0, [], wc.scan, []⟩
def wMarked : State := wC fun x => { x with snaps := [wSnap] }

theorem witness_MessagesAndCoreEvents (h : Obligations.MessagesAndCoreEvents) :
    (Goes (exec (.send 4 8 0 15) (wSend 0)) ∧ Goes (exec (.send 4 8 1 15) (wSend 7))
      ∧ Goes (exec (.messageArrive 0 0 wMail) (wS fun t => { t with mail := List.replicate 15 wMail }))
      ∧ Goes (exec (.messageArrive 0 0 wMail) (wS fun t => { t with st := .waiting, held := .waitmsg false }))
      ∧ Goes (exec (.messageArrive 0 0 wUli) (wS fun t => { t with ue := true }))
      ∧ Goes (exec (.messageArrive 0 0 wUli) (wS fun t => { t with ue := true, st := .waiting, held := .waitmsg false }))
      ∧ Goes (exec (.messageArrive 0 0 wUli) (wS fun t => { t with ue := true, timerInt := true }))
      ∧ Goes (exec (.messageArrive 0 0 wMail) (wS fun t => { t with mail := List.replicate 16 wMail }))
      ∧ Goes (exec (.mailboxHeldEntry 0 0) (wS fun t => { t with mailHeld := [wMail] })))
    ∧ (Goes (exec (.uliDeliver 0 0) (wS fun t => { t with ue := true, timerInt := true }))
      ∧ Goes (exec (.uliDeliver 0 0) (wS fun t => { t with ue := true, mail := [wMail, wUli] }))
      ∧ Goes (exec (.timerExpiry 0 0) (wS fun t => { t with ue := true, tul := true, timer := 0x8000000000000000#64 }))
      ∧ Goes (exec (.timerExpiry 0 0) (wS fun t => { t with timer := 0x8000000000000000#64 }))
      ∧ Goes (exec (.timerExpiry 0 0) (wS fun t => { t with st := .stopped, timer := 0x8000000000000000#64 }))
      ∧ Goes (exec (.istSwitch 0) (wIdle fun x => { x with istNext := some istDefault, istBar := true }))
      ∧ Goes (exec (.coreBank 0) (wIdle id)) ∧ Goes (exec (.restartEnd 0) (wC fun x => { x with restart := some 100 })))
    ∧ (Goes (exec (.preemptArrive 0) w) ∧ Goes (exec (.preemptArrive 0) (wS fun t => { t with imv := true }))
      ∧ ∃ x, ((wMarked.rollback 0 0).slot 0 0).pc = x)
    ∧ Goes (exec (.slot15Restart 0) (w.modSlot 0 15 fun t => { t with st := .stopped }))
    ∧ Goes (exec (.engineEccError 0 100 3 49 0x1000) w) ∧ Goes (exec (.scrub 0 0xFFFFF) (wC fun x => { x with err1 := [0x3FFFF] }))
    ∧ Goes (exec (.scrub 0 0xFFFFF) (wC fun x => { x with err1 := [0x3FFFF], scrub := 0x3FFFF })) := by
  have g := fun (d : Nat) (m : Msg) => h 4 8 15 0 0 d 3 49 0x1000 m [] istDefault wSnap (by decide)
  obtain ⟨h1, h2, h3, h4, -⟩ := g 0 wMail
  obtain ⟨h5, h6, h7, -⟩ := past4 (g 0 wUli)
  obtain ⟨-, -, -, h8, h9, h10, -⟩ := past4 (g 0 wMail)
  obtain ⟨-, -, h11, h12, h13, h14, z⟩ := past8 (g 100 wUli)
  obtain ⟨h15, h16, h17, h18, h19, h20, h21, h22, -⟩ := z
  obtain ⟨-, -, -, -, -, -, h23, h24⟩ := past8 (past8 (g 0xFFFFF wMail))
  have k20 := h20 wMarked (by decide +kernel)
  have l0 : ∀ f, (wS f).live 0 := fun _ => live_of rfl rfl
  exact ⟨⟨goS h1 (by decide +kernel), goS h2 (by decide +kernel), goE h3 ⟨⟨by decide +kernel, l0 _⟩, by decide +kernel, by decide +kernel⟩,
      goE h4 ⟨⟨by decide +kernel, l0 _⟩, by decide +kernel, by decide +kernel, by decide +kernel⟩,
      goE h5 ⟨⟨by decide +kernel, l0 _⟩, by decide +kernel, by decide +kernel, by decide +kernel, by decide +kernel, by decide +kernel⟩,
      goE h6 ⟨⟨by decide +kernel, l0 _⟩, by decide +kernel, by decide +kernel, by decide +kernel, by decide +kernel, by decide +kernel⟩,
      goE h7 ⟨⟨by decide +kernel, l0 _⟩, by decide +kernel⟩,
      goE h8 ⟨⟨by decide +kernel, l0 _⟩, by decide +kernel⟩, goE h9 (by decide +kernel)⟩,
    ⟨goE h10 (by decide +kernel), goE h11 (by decide +kernel),
      goE h12 ⟨by decide +kernel, by decide +kernel, ⟨by decide +kernel, l0 _⟩, by decide +kernel⟩,
      goE h13 ⟨⟨by decide +kernel, l0 _⟩, by decide +kernel⟩,
      goE h14 ⟨by decide +kernel, by decide +kernel, by decide +kernel, by decide +kernel, l0 _⟩,
      goE h15 (by decide +kernel), goE h16 (by decide +kernel), goE h17 (by decide +kernel)⟩,
    ⟨goE h18 ⟨live_w, by decide +kernel⟩, goE h19 ⟨l0 _, by decide +kernel⟩, _, k20.1⟩,
    goE h21 (by decide +kernel), goE h22 trivial, goE h23 (by decide +kernel), goE h24 (by decide +kernel)⟩

/-- `w` with context 1's tables, which map the first 64 KiB to frame 2 as copy on write, with frames 5 and 6 in the pool
(R364, R368, R369). -/
def wPt (n : Nat) (cows : List Cow) : State :=
  let h := Memory.write [] 0x10000 8 (2 ^ 63 + 0x11000)
  let h := Memory.write h 0x11000 8 (2 ^ 63 + 0x12000)
  let h := Memory.write h 0x12000 8 (2 ^ 63 + 0x13000)
  let h := Memory.write h 0x13000 8 (2 ^ 63 + 2 ^ 62 + 2 ^ 61 + 2 ^ 60 + 0x20000)
  { w with
    hbm := h
    hub := { w.hub with ctxroot := [(1, 0x8000000000010000)], shares := [(2, n)], pool := [5, 6], dying := [7], cows := cows } }

/-- The leaf of byte 0xFFFF. -/
def wLeaf : Leaf := ⟨0x2FFFF, 0x13000, true, false⟩

theorem vget_true {l : Vector Bool 4} (h : l = Vector.replicate 4 true) (k : Nat) : vget l k true = true := by
  subst h
  match k with
  | 0 | 1 | 2 | 3 => rfl
  | k + 4 => rfl

/-- A page of a walk that succeeds is translated where every memory link works (R363, R364). -/
theorem xlate_of {s : State} {ctx root va : Nat} {r : Option Bool} {f : Leaf} (h : s.ctxTable ctx = some root)
    (hw : walkTables s.hbm root va r = .ok f) (hp : f.phys < hbmSize) (hm : s.hub.memlink = Vector.replicate 4 true) :
    s.xlate ctx false va r = .ok f := by
  simp [State.xlate, State.stackLost, h, hw, vget_true hm, Nat.not_le.mpr hp]

theorem wPt_xlate {n : Nat} {l : List Cow} {va : Nat} {r : Option Bool} {f : Leaf} (hw : walkTables (wPt 0 []).hbm 0x10000 va r = .ok f)
    (hp : f.phys < hbmSize) : (wPt n l).xlate 1 false va r = .ok f :=
  have hr : rootOf (tget 0#64 1 [(1, 0x8000000000010000#64)]) = some 0x10000 := by decide +kernel
  xlate_of hr hw hp rfl

/-- A fault that holds command 5 of core 0. -/
def wPend : Pending := ⟨⟨9, 1, 0, true, 0, 3, true, 1, 0x1000, 0, 0⟩, false⟩

/-- `wQ` with a fault that holds its command. -/
def wHeldBy (p : Pending) (x : Held) : State :=
  { wQ [wCmd .cpy sgAll fun k => { k with fid := some 9 }] x with hub := { w.hub with faults := [p], dying := [7] } }

theorem witness_PagesAndFaultRecords (h : Obligations.PagesAndFaultRecords) :
    Goes (exec (.pageFault 0 0 3 0x1000 true 1) (wQ [wCmd .cpy sgAll id] .none))
      ∧ Goes (exec (.pageFault 0 1 7 0x1000 true 1) (wUnit id))
      ∧ Goes (exec (.wakeArrive 9 0) (wHeldBy wPend .none)) ∧ Goes (exec (.wakeArrive 9 0) (wHeldBy wPend (.copyPlace 3)))
      ∧ (wHeldBy wPend (.remote 3 false)).my.wakes 0 = false
      ∧ Goes (exec (.cowCopy 1 0xFFFF) (wPt 2 [])) ∧ Goes (exec (.cowCopyComplete 1 0xFFFF) (wPt 2 [⟨1, 0xFFFF, 5⟩]))
      ∧ Goes (exec (.frameReturn 7) (wPt 2 []))
      ∧ Goes (exec (.frameReturn 7) (wHeldBy { wPend with info := { wPend.info with reason := 6 } } .none)) := by
  have g := fun (eng u va f : Nat) (p : Pending) =>
    h 0 eng u va 1 0 9 0 1 f true (wCmd .cpy sgAll id) p [6] wLeaf ⟨1, 0xFFFF, 5⟩
  obtain ⟨h1, -⟩ := g 0 3 0x1000 5 wPend
  obtain ⟨-, h2, h3, h4, h5, -⟩ := g 1 7 0x1000 5 wPend
  obtain ⟨-, h6, h7, -⟩ := past4 (g 1 7 0xFFFF 5 wPend)
  obtain ⟨-, -, -, h8, -⟩ := past4 (g 1 7 0xFFFF 7 wPend)
  have h9 := past8 (g 1 7 0xFFFF 7 { wPend with info := { wPend.info with reason := 6 } })
  exact ⟨goE h1 (by decide +kernel), goE h2 (by decide +kernel),
    goE h3 ⟨⟨by decide +kernel, by decide +kernel, by decide +kernel, live_of rfl rfl⟩, by decide +kernel⟩,
    goE h4 ⟨⟨by decide +kernel, by decide +kernel, by decide +kernel, live_of rfl rfl⟩, by decide +kernel⟩,
    h5 (wHeldBy wPend (.remote 3 false)).my (by decide +kernel),
    goE h6 ⟨by decide +kernel, wPt_xlate (ok_of (by decide +kernel)) (by decide), by decide +kernel, by decide +kernel, by decide +kernel⟩,
    goE h7 ⟨by decide +kernel, by decide +kernel, by decide +kernel, wPt_xlate (ok_of (by decide +kernel)) (by decide), by decide +kernel, by decide +kernel⟩,
    goE h8 (by decide +kernel), goE h9 (by decide +kernel)⟩
/-! ### Witnesses: links and Cord -/

/-- What a write of a range leaves. -/
def vaDone (d : State) : VaWrite → State
  | .done s => s
  | _ => d
def vaIsDone : VaWrite → Bool
  | .done _ => true
  | _ => false

theorem vaDone_of {d : State} {v : VaWrite} (h : vaIsDone v = true) : v = .done (vaDone d v) := by
  cases v <;> simp_all [vaDone, vaIsDone]

/-- Gang 0 with rank 3 in transit or not. -/
def wMoveGang (tr : Bool) : Gang := { wGang with ranks := [⟨0, 0, false⟩, ⟨1, 1, false⟩, ⟨2, 2, false⟩, ⟨3, 3, tr⟩] }

/-- `w` with rank 3 in transit, its core stopped or not. -/
def wTransit (stopped : Bool) : State :=
  { w with hub := { w.hub with gangs := [(0, wMoveGang true)] } }.modCore 3 fun x =>
    { x with banked := false, gang := some 0, rank := 3, gsize := 4, preempt := stopped }

/-- An atomic of package 3, on Cord link 15. -/
def wAtom (retry : Bool) : CordAtomic := ⟨3, 15, 7, retry, 0, true, 0xFFFF8, 1, 0⟩

/-- A transfer whose end posts a notice. -/
def wXfer : CordXfer := ⟨5, true, 0, 0, 9, true, 0, 0, 64, 3, [], false, 1, false, false⟩

/-- A generation of a barrier that one package has come to. -/
def wBar : Bar := ⟨7, 2, [1], [(0, 0, 9)]⟩

/-- A transfer of another package's into this one's memory, and what its end leaves (R383). -/
def wXferIn : CordXfer := ⟨5, false, 0, 0, 0, true, 0, 0xFFC0, 64, 3, List.replicate 64 7, false, 1, true, false⟩
def wFar : State := wH fun y => { y with xfers := [wXferIn], tlb := [⟨1, false, 0, 0x13000, 2 ^ 63 + 2 ^ 62 + 2 ^ 61 + 0x20000, false, 0⟩] }
def wLanded : VaWrite :=
  State.writeVa { wFar with nonce := wFar.nonce + 1 } 1 false 0xFFC0 64 (packN 8 (fun k => (wXferIn.data.getD k 0).toNat) 64)

/-- A write to a page in the caches that is not copy on write goes there (R363, R365). -/
theorem xlateW_of {s : State} {ctx va : Nat} {t : Tlb} {l : Leaf} (hc : s.cached ctx false va = some t)
    (hm : pteMaps t.e t.entry va (if t.big then 2 ^ 21 else 65536) (some true) = .ok l) (hk : l.cow = false)
    (hl : s.hub.memlink = Vector.replicate 4 true) (hb : ∀ t ∈ s.hub.tlb, t.err = 0) : s.xlateW ctx false va = .at_ l.phys s := by
  have hs : s.stackLost l.phys = false := by simp [State.stackLost, vget_true hl]
  have hn : (s.hub.tlb.any fun t => t.ctx = ctx && t.host = false && t.page = va / 65536 && t.err = 1) = false := by
    simp only [List.any_eq_false]; intro t ht; simp [hb t ht]
  have e : s.xlateC ctx false va (some true) = .ok l := by
    unfold State.xlateC; rw [hc]; dsimp only; rw [hm]; simp [hs]
  have c : s.cache ctx false va = s := by unfold State.cache; rw [hn]; simp [hc]
  unfold State.xlateW; rw [e]; simp [c, hk]

theorem wLanded_done : vaIsDone wLanded = true := by
  have e : State.xlateW { wFar with nonce := wFar.nonce + 1 } 1 false 0xFFC0 = .at_ 0x2FFC0 { wFar with nonce := wFar.nonce + 1 } :=
    xlateW_of (l := ⟨0x2FFC0, 0x13000, false, false⟩) (by rfl) (by decide +kernel) rfl rfl (by decide +kernel)
  have p : piecesOf 0xFFC0 64 = [(0xFFC0, 64)] := by decide +kernel
  simp [wLanded, State.writeVa, p, State.readyPieces, State.writePieces, e, vaIsDone]

theorem witness_LinksAndCord (h : Obligations.LinksAndCord) :
    (Goes (exec (.rankMove 0 3 15) w) ∧ Goes (exec (.rankMove 0 3 15) (wTransit false)) ∧ Goes (exec (.rankMove 0 3 15) (wTransit true))
      ∧ Goes (exec (.laneSpare 7) w) ∧ Goes (exec (.retrainingEnd 7) w) ∧ Goes (exec (.flitRetry 3 7) w) ∧ Goes (exec (.linkFail 7) w)
      ∧ Goes (exec (.changeoverEnd 7) w)
      ∧ Goes (exec (.linkHeal 7) (wH fun y => { y with links := y.links.set 7 { y.links[7] with via := some 0 } })))
    ∧ (Goes (exec (.memoryLinkFail 3) w) ∧ Goes (exec (.cordLinkDrop 15) w)
      ∧ Goes (exec (.cordAtomicArrive (wAtom true)) (wH fun y => { y with replies := [⟨15, 3, 7, 0, 0⟩] }))
      ∧ Goes (exec (.cordAtomicArrive (wAtom false)) w)
      ∧ Goes (exec (.replyCacheEntryAge 15) (wH fun y => { y with atomics := [wAtom false] }))
      ∧ Goes (exec (.cordAtomicTimeout 7) { wS fun t => { t with st := .parked, held := .hubcmd 4 0x400 } with
          hub := { w.hub with catoms := [⟨0, 0, 7, 0x400⟩] } }))
    ∧ Goes (exec (.cordTransferComplete 5) (wH fun y => { y with xfers := [wXfer] })) ∧ Goes (exec (.cordTransferComplete 5) wFar)
    ∧ Goes (exec (.cbarArrive 7 2 3) (wH fun y => { y with bars := [wBar] }))
    ∧ Goes (exec (.cbarArrive 7 2 2) (wH fun y => { y with bars := [wBar] })) := by
  have g := fun (die v link count : Nat) (x : Gang) (r : RankEnt) (q : CordAtomic) (y : CordXfer) =>
    h 0 3 15 die v 3 link 7 2 count 7 5 x r q wBar ⟨0, 0, 7, 0x400⟩ y 4 0x400
  obtain ⟨h1, -⟩ := g 7 0 15 3 wGang ⟨3, 3, false⟩ (wAtom true) wXfer
  obtain ⟨-, h2, h3, h4, h5, -, h7, -⟩ := g 7 0 15 3 (wMoveGang true) ⟨3, 3, true⟩ (wAtom true) wXfer
  obtain ⟨h9, h10, -, h12, h13, -, -, h16, z⟩ := past8 (g 7 0 15 3 (wMoveGang true) ⟨3, 3, true⟩ (wAtom true) wXfer)
  obtain ⟨h17, -, h19, -⟩ := z
  obtain ⟨-, h6, -⟩ := past4 (g 3 0 7 2 wGang ⟨3, 3, true⟩ (wAtom false) wXferIn)
  obtain ⟨-, -, h11, -, -, h14, h15, -, z⟩ := past8 (g 3 0 7 2 wGang ⟨3, 3, true⟩ (wAtom false) wXferIn)
  obtain ⟨-, h18, -, h20⟩ := z
  exact ⟨⟨goE h1 (by decide +kernel), goE h2 (by decide +kernel), goE h3 (by decide +kernel), goE h4 (by decide +kernel),
      goE h5 (by decide +kernel), goE h6 trivial, goE h7 (by decide +kernel), goE h9 (by decide +kernel), goE h10 (by decide +kernel)⟩,
    ⟨goE h11 trivial, goE h12 (by decide +kernel), goE (h13 ⟨15, 3, 7, 0, 0⟩) (by decide +kernel), goE h14 (by decide +kernel), goE h15 (by decide +kernel),
      goE h16 ⟨by decide +kernel, by decide +kernel, live_of rfl rfl, by decide +kernel, by decide +kernel⟩⟩,
    goE h17 (by decide +kernel),
    goE (h18 (vaDone w wLanded)) ⟨rfl, rfl, rfl, rfl, rfl, vaDone_of wLanded_done⟩,
    goE h19 (by decide +kernel), goE h20 (by decide +kernel)⟩
/-! ### Witnesses: blocks of HUBCMD -/

/-- A block of words, the first first. -/
def wBlk (l : List Nat) : BitVec 512 := BitVec.ofNat 512 (l.foldr (fun x y => x + 2 ^ 64 * y) 0)

/-- `wPt` with slot 0 awaiting the reply of HUBCMD, its gang in a state, and Cord link 15 a way to package 3. -/
def wHub (st : GangSt) : State :=
  let s := (wPt 1 []).modSlot 0 0 fun t => { t with st := .parked, held := .hubcmd 4 0x400 }
  { s with hub := { s.hub with gangs := [(0, { wGang with st := st })], croute := [(3, 0x8000)] } }

theorem range_of {s : State} {ctx va n : Nat} {wr : Bool} {f : Leaf} (hp : piecesOf va n = [(va, n)])
    (h : s.xlate ctx false va (some wr) = .ok f) : s.rangeOk ctx false va n wr = true := by
  simp [State.rangeOk, hp, h, Except.isOk, Except.toBool]

theorem witness_HubCommands (h : Obligations.HubCommands) :
    Goes (exec (.hubcmd 4 5) ((w5 0xFFFC0).modCore 0 fun x => x.wr 0xFFFC0 8 0x22))
      ∧ Goes (exec (.saved 0 0 (wBlk [0x12])) (wHub .running)) ∧ Goes (exec (.saved 0 0 (wBlk [0x10])) (wHub .saving))
      ∧ Goes (exec (.restored 0 0 (wBlk [0x11])) (wHub .restoring)) ∧ Goes (exec (.gangfail 0 0 (wBlk [0x14])) (wHub .running))
      ∧ Goes (exec (.caddy 0 0 (wBlk [0, 7, 0xFFFFFFFFFFFF])) (wHub .running))
      ∧ Goes (exec (.cwrite 0 0 (wBlk [0, 0xFFC0, 0, 64, 3, 9])) (wHub .running))
      ∧ Goes (exec (.cread 0 0 (wBlk [0, 0, 0xFFC0, 64, 3, 9])) (wHub .running))
      ∧ Goes (exec (.catom 0 0 (wBlk [0, 0, 3])) (wHub .running)) ∧ Goes (exec (.cbar 0 0 (wBlk [0, 0x1FF])) (wHub .running)) := by
  have l0 : ∀ st, (wHub st).live 0 := fun _ => live_of rfl rfl
  have ha : ∀ st, (wHub st).live 0 ∧ ((wHub st).slot 0 0).held = .hubcmd 4 0x400 ∧ ((wHub st).core 0).directMma 0 = false :=
    fun st => ⟨l0 st, rfl, rfl⟩
  have hb : ∀ st, ((wHub st).core 0).gang = some 0 ∧ (wHub st).gang? 0 = some { wGang with st := st } := fun _ => ⟨rfl, rfl⟩
  have hx : ∀ r, (wHub .running).xlate 1 false 0xFFC0 (some r) = .ok ⟨0x2FFC0, 0x13000, true, false⟩ := by
    intro r
    have hr : rootOf (tget 0#64 1 [(1, 0x8000000000010000#64)]) = some 0x10000 := by decide +kernel
    cases r
    · exact xlate_of (root := 0x10000) hr (ok_of (by decide +kernel)) (by decide) rfl
    · exact xlate_of (root := 0x10000) hr (ok_of (by decide +kernel)) (by decide) rfl
  obtain ⟨h1, h2, -⟩ := h 4 5 0 0 4 0x400 0 (wBlk [0x12]) { wGang with st := .running }
  obtain ⟨-, -, h3, -⟩ := h 4 5 0 0 4 0x400 0 (wBlk [0x10]) { wGang with st := .saving }
  obtain ⟨-, -, -, h4, -⟩ := h 4 5 0 0 4 0x400 0 (wBlk [0x11]) { wGang with st := .restoring }
  obtain ⟨-, -, -, -, h5, -⟩ := h 4 5 0 0 4 0x400 0 (wBlk [0x14]) { wGang with st := .running }
  obtain ⟨-, -, -, -, -, h6, -⟩ := h 4 5 0 0 4 0x400 0 (wBlk [0, 7, 0xFFFFFFFFFFFF]) { wGang with st := .running }
  obtain ⟨-, -, -, -, -, -, h7, -⟩ := h 4 5 0 0 4 0x400 0 (wBlk [0, 0xFFC0, 0, 64, 3, 9]) { wGang with st := .running }
  obtain ⟨-, -, -, h8, -⟩ := past4 (h 4 5 0 0 4 0x400 0 (wBlk [0, 0, 0xFFC0, 64, 3, 9]) { wGang with st := .running })
  obtain ⟨h9, -⟩ := past8 (h 4 5 0 0 4 0x400 0 (wBlk [0, 0, 3]) { wGang with st := .running })
  obtain ⟨-, h10⟩ := past8 (h 4 5 0 0 4 0x400 0 (wBlk [0, 0x1FF]) { wGang with st := .running })
  refine ⟨goS h1 (by simp only [State.segOk]; and_intros <;> decide +kernel), goE h2 ⟨ha _, by decide +kernel⟩,
    goE h3 ⟨⟨ha _, hb _⟩, by decide +kernel⟩, goE h4 ⟨⟨ha _, hb _⟩, by decide +kernel⟩, goE h5 ⟨ha _, hb _⟩,
    goE h6 ⟨⟨ha _, hb _⟩, by decide +kernel⟩, goE h7 ⟨⟨ha _, hb _⟩, by decide +kernel, ?_⟩,
    goE h8 ⟨⟨ha _, hb _⟩, by decide +kernel, ?_⟩, goE h9 ⟨⟨ha _, hb _⟩, by decide +kernel⟩, goE h10 ⟨⟨ha _, hb _⟩, by decide +kernel⟩⟩
  · have e1 : blkWord (wBlk [0, 0xFFC0, 0, 64, 3, 9]) 1 = 0xFFC0 := by decide +kernel
    have e3 : blkWord (wBlk [0, 0xFFC0, 0, 64, 3, 9]) 3 = 64 := by decide +kernel
    rw [e1, e3]
    exact range_of (by decide +kernel) (hx false)
  · have e2 : blkWord (wBlk [0, 0, 0xFFC0, 64, 3, 9]) 2 = 0xFFC0 := by decide +kernel
    have e3 : blkWord (wBlk [0, 0, 0xFFC0, 64, 3, 9]) 3 = 64 := by decide +kernel
    rw [e2, e3]
    exact range_of (by decide +kernel) (hx true)
/-! ### Witnesses: the host's queues, registers and memory -/

/-- `w` with bring-up done. -/
def wOn : State := { w with mg := { w.mg with stage := 6 } }

/-- `wOn` with queue 7 as `f` makes it, and an entry of FENCE in its first place (R373). -/
def wSq (f : Sq → Sq) : State :=
  { wOn with hub := { w.hub with sq := [(7, f { Sq.reset with base := 0x1000, tail := 1 })] }, host := Memory.write [] 0x1000 8 0x60001 }

/-- An entry of queue 7, and its command, which has not started. -/
def wEnt (l : List Nat) : SqEntry := ⟨7, 5, 5, wBlk l⟩
def wCom (l : List Nat) (f : Work → Work) : Work := f ⟨wEnt l, 1, 0, false, 1, 0, 0⟩

/-- `wPt` with bring-up done and a command accepted; a word of host memory is set. -/
def wWork (l : List Nat) (f : Work → Work) : State :=
  let s := wPt 1 []
  { s with hub := { s.hub with work := [wCom l f] }, mg := { s.mg with stage := 6 }, host := Memory.write [] 0x2000 8 7 }

/-- The words of COPY and PGFORK. -/
def wCopyL : List Nat := [0x20001, 0x2000, 0x3000, 64, 3]
def wForkL : List Nat := [0x30001, 0, 0x10000, 9 * 2 ^ 32 + 1]

/-- The command as it has begun. -/
def wBegun (l : List Nat) : State :=
  { wWork l id with hub := { (wWork l id).hub with work := (wWork l id).hub.work.map fun (y : Work) =>
      if y.e.queue = 7 ∧ y.e.seq = 5 then { y with begun := true } else y } }

/-- What the copy comes to. -/
def wCopied : VaWrite :=
  (wBegun wCopyL).writeVa 1 (copyFlag (wEnt wCopyL) 1) (sqWord (wEnt wCopyL) 2) (sqWord (wEnt wCopyL) 3) 7

/-- The words of a COPY to package 3, and the state where Cord link 15 is the way there. -/
def wFarL : List Nat := [0x20001, 0x2000, 0x3000, 64, 9 + 3 * 2 ^ 16]
def wFarCopy : State := { wWork wFarL id with hub := { (wWork wFarL id).hub with croute := [(3, 0x8000)] } }

theorem read_of {s : State} {ctx va n x : Nat} {f : Leaf} (hp : piecesOf va n = [(va, n)])
    (h : s.xlate ctx false va (some false) = .ok f) (hx : Memory.read s.hbm f.phys n = x) : s.readVa ctx false va n = some x := by
  simp [State.readVa, State.readPieces, hp, h, hx]

theorem wLaunch_read : (wWork [0x10001, 0x8000] id).readVa 1 false 0x8000 592 = some 0 := by
  have hr : rootOf (tget 0#64 1 [(1, 0x8000000000010000#64)]) = some 0x10000 := by decide +kernel
  exact read_of (f := ⟨0x28000, 0x13000, true, false⟩) (by decide +kernel)
    (xlate_of (root := 0x10000) hr (ok_of (by decide +kernel)) (by decide) rfl) (by decide +kernel)

theorem witness_QueuesAndCommands (h : Obligations.QueuesAndCommands) :
    (Goes (exec (.sqtailWrite 7 0xFFFFFFFF) (wSq id)) ∧ Goes (exec (.sqtailWrite 7 0xFFFFFFFF) (wSq fun q => { q with stop := true }))
      ∧ Goes (exec (.sqctlRst 7) (wSq id)) ∧ Goes (exec (.sqctlEn 7 0x830C03FF) (wSq id))
      ∧ Goes (exec (.sqctlEn 7 0x830C03FF) (wSq fun q => { q with en := true }))
      ∧ Goes (exec .entryAccept (wSq fun q => { q with en := true }))
      ∧ Goes (exec .entryAccept { wSq fun q => { q with en := true } with host := [] })
      ∧ Goes (exec (.wake 0xFFFF000000007FFF) wOn) ∧ Goes (exec (.fqcons 5) wOn))
    ∧ (Goes (exec (.hubRegisterWrite 0x08 0x100000) wOn) ∧ Goes (exec (.hubRegisterWrite 0x08 0x100001) wOn)
      ∧ Goes (exec (.hubRegisterWrite 0x10 0x100001) wOn) ∧ Goes (exec (.hubRegisterWrite 0x20 0x100001) wOn)
      ∧ Goes (exec (.hubRegisterWrite 0x40 0x100001) wOn) ∧ Goes (exec (.hubRegisterWrite (0x1000 + 64 * 255) 0x100001) wOn)
      ∧ Goes (exec (.hubRegisterWrite (0x8000 + 16 * 1023) 0x100001) wOn))
    ∧ (Goes (exec (.queueFence (wEnt [0x60001])) (wWork [0x60001] id)) ∧ Goes (exec (.signal (wEnt [0x70001, 8, 9])) (wWork [0x70001, 8, 9] id))
      ∧ Goes (exec (.signal (wEnt [0x70001, 4, 9])) (wWork [0x70001, 4, 9] id)) ∧ Goes (exec (.copy (wEnt wCopyL)) (wWork wCopyL id))
      ∧ Goes (exec (.copy (wEnt wFarL)) wFarCopy)
      ∧ Goes (exec (.pgfork (wEnt wForkL)) (wWork wForkL id)) ∧ Goes (exec (.pgfork (wEnt wForkL)) (wWork wForkL fun y => { y with begun := true })) ∧ Goes (exec (.launch (wEnt [0x10001, 0x8000])) (wWork [0x10001, 0x8000] id)))
    ∧ Goes (exec (.commandFinish 7 5) (wWork [0x60001] fun y => { y with state := 4 }))
    ∧ Goes (exec (.hostMemWrite 0x5FFFFFFFFF 7) wOn) ∧ Goes (exec (.hostMemRead 0x5FFFFFFFFF) wOn)
    ∧ Goes (exec (.hostMemRead 0x5FFFFFFFFF) w) ∧ Goes (exec (.hostMemWrite 0x5FFFFFFFFF 7) w) := by
  obtain ⟨-, -, a3, -, -, a6, a7, -, -, -, a11, a12, a13, a14, a15, a16, a17, -⟩ :=
    h 7 5 0 1023 255 0 0x100001 0 (wEnt [0x60001]) (wCom [0x60001] id) w
  obtain ⟨a1, a2, -⟩ := h 7 5 0 0 0 0 0xFFFFFFFF 0 (wEnt [0x60001]) (wCom [0x60001] id) w
  obtain ⟨-, -, -, a4, a5, -⟩ := h 7 5 0 0 0 0 0x830C03FF 0 (wEnt [0x60001]) (wCom [0x60001] id) w
  obtain ⟨-, -, -, a8, -⟩ := past4 (h 7 5 0 0 0 0 0xFFFF000000007FFF 0 (wEnt [0x60001]) (wCom [0x60001] id) w)
  obtain ⟨a9, -⟩ := past8 (h 7 5 0 0 0 0 5 0 (wEnt [0x60001]) (wCom [0x60001] id) w)
  obtain ⟨-, a10, -⟩ := past8 (h 7 5 0 0 0 0 0x100000 0 (wEnt [0x60001]) (wCom [0x60001] id) w)
  obtain ⟨-, c1, -⟩ := past8 (past8 (h 7 5 0 0 0 0 0 0 (wEnt [0x70001, 8, 9]) (wCom [0x70001, 8, 9] id) w))
  obtain ⟨-, -, c2, -⟩ := past8 (past8 (h 7 5 0 0 0 0 0 0 (wEnt [0x70001, 4, 9]) (wCom [0x70001, 4, 9] id) w))
  obtain ⟨-, -, -, c3, -⟩ := past8 (past8 (h 7 5 0 0 0 7 0 0 (wEnt wCopyL) (wCom wCopyL id) (vaDone w wCopied)))
  obtain ⟨c4, -⟩ := past4 (past8 (past8 (h 7 5 0 0 0 0 0 0 (wEnt wFarL) (wCom wFarL id) w)))
  obtain ⟨-, c5, -⟩ := past4 (past8 (past8 (h 7 5 0 0 0 0 0 0 (wEnt wForkL) (wCom wForkL id) w)))
  obtain ⟨-, -, c6, -⟩ := past4 (past8 (past8 (h 7 5 0 0 0 0 0 0 (wEnt wForkL) (wCom wForkL fun y => { y with begun := true }) w)))
  obtain ⟨-, -, -, c7, -⟩ := past4 (past8 (past8 (h 7 5 0 0 0 0 0 0 (wEnt [0x10001, 0x8000]) (wCom [0x10001, 0x8000] id) w)))
  obtain ⟨d1, d2, d3, d4, d5⟩ :=
    past8 (past8 (past8 (h 7 5 0x5FFFFFFFFF 0 0 0 0 7 (wEnt [0x60001]) (wCom [0x60001] fun y => { y with state := 4 }) w)))
  have hw : vaIsDone wCopied = true := by decide +kernel
  have e : sqWord (wEnt [0x10001, 0x8000]) 1 = 0x8000 := by decide +kernel
  refine ⟨⟨goE a1 (by decide +kernel), goE a2 (by decide +kernel), goE a3 (by decide +kernel), goE a4 (by decide +kernel),
      goE a5 (by decide +kernel), goE a6 (by decide +kernel), goE a7 (by decide +kernel), goE a8 (by decide +kernel),
      goE a9 (by decide +kernel)⟩,
    ⟨goE a10 (by decide +kernel), goE a11 (by decide +kernel), goE a12 (by decide +kernel), goE a13 (by decide +kernel),
      goE a14 (by decide +kernel), goE a15 (by decide +kernel), goE a16 (by decide +kernel)⟩,
    ⟨goE a17 (by decide +kernel), goE c1 (by decide +kernel), goE c2 (by decide +kernel), goE c3 ?_, goE c4 (by decide +kernel),
      goE c5 (by decide +kernel), goE c6 (by decide +kernel), goE c7 ?_⟩,
    goE d1 (by decide +kernel), goE d2 (by decide +kernel), goE d3 (by decide +kernel), goE d4 (by decide +kernel),
    goE d5 (by decide +kernel)⟩
  · exact ⟨by decide +kernel, by decide +kernel, by decide +kernel, by decide +kernel, by decide +kernel, by decide +kernel,
      by decide +kernel, vaDone_of hw⟩
  · refine ⟨by decide +kernel, by decide +kernel, ?_, by decide +kernel, by decide +kernel, by decide +kernel, by decide +kernel,
      by decide +kernel⟩
    rw [e]
    exact wLaunch_read
/-! ### Witnesses: gangs -/

/-- A launch of `n` ranks that has been accepted. -/
def wNew (n : Nat) : Gang := { wGang with st := .accepted, ctx := 1, queue := 7, seq := 5, size := n, ranks := [] }

/-- `w` with a gang that waits for the placer. -/
def wPlace (n : Nat) : State := wH fun y => { y with gangs := [(1, wNew n)], work := [wCom [0x10001] fun y => { y with begun := true }] }

/-- Where all free positions are of one group, a launch that fits is placed whatever the free choice is. -/
theorem choose_of {s : State} {g k : Nat} {x : Gang}
    (h : (((s.freeFor g).map (shapeGroup (dShape x.desc))).eraseDups.filter fun k =>
      ((s.freeFor g).filter fun p => shapeGroup (dShape x.desc) p = k).length ≥ x.size) = [k]) :
    s.choose g x = some ((s.choose g x).getD []) := by
  have e : (s.choose g x).isSome = true := by
    have hk : ∀ n, ([k] : List Nat)[n % [k].length]? = some k := fun n => by simp [Nat.mod_one]
    unfold State.choose
    dsimp only
    rw [h, hk]
    rfl
  match hc : s.choose g x, e with
  | some _, _ => rfl

/-- `wPt` with gang 0 and a command, or with a fault, a KILL or a cancellation. -/
def wGc (x : Gang) (f : Hub → Hub) (l : List Nat) : State :=
  let s := wWork l id
  { s with hub := f { s.hub with gangs := [(0, x)] } }

/-- A RESUME of gang 0, which runs again (R377). -/
def wResumed : State := { wWork [0xA0001] (fun y => { y with begun := true }) with
  hub := { (wWork [0xA0001] fun y => { y with begun := true }).hub with gangs := [(0, wGang)] } }

theorem witness_GangsAndKills (h : Obligations.GangsAndKills) :
    Goes (exec (.gangPlace 1) (wPlace 3000)) ∧ Goes (exec (.gangPlace 1) (wPlace 2047))
      ∧ Goes (exec (.launchDone 0) (wS fun t => { t with st := .idle })) ∧ Goes (exec (.cancel (wEnt [0x40001, 0, 7])) (wGc wGang id [0x40001, 0, 7]))
      ∧ Goes (exec (.cancel (wEnt [0x40001, 0, 0x10000])) (wGc wGang id [0x40001, 0, 0x10000]))
      ∧ Goes (exec (.kill (wEnt [0x50001, 1])) (wGc wGang id [0x50001, 1]))
      ∧ Goes (exec (.killDrained 1) (wGc wGang (fun y => { y with gangs := [], kills := [1] }) [0x50001, 1]))
      ∧ Goes (exec (.cancelFaults (wEnt [0x80001, 9])) (wGc wGang (fun y => { y with faults := [wPend] }) [0x80001, 9]))
      ∧ Goes (exec (.preempt (wEnt [0x90001])) (wGc wGang id [0x90001]))
      ∧ Goes (exec (.resume (wEnt [0xA0001])) (wGc { wGang with st := .saved } id [0xA0001]))
      ∧ Goes (exec (.resume (wEnt [0xA0001])) wResumed) := by
  have n1 : (wPlace 3000).choose 1 (wNew 3000) = none := by decide +kernel
  have n2 : (wPlace 2047).choose 1 (wNew 2047) = some (((wPlace 2047).choose 1 (wNew 2047)).getD []) :=
    choose_of (k := 0) (by decide +kernel)
  have o1 : (wPlace 3000).placeOrder = [(1, wNew 3000)] := by decide +kernel
  have o2 : (wPlace 2047).placeOrder = [(1, wNew 2047)] := by decide +kernel
  have d1 : (wPlace 3000).placeDue = some 1 := by
    have e : (wPlace 3000).heads 1 (wNew 3000) = true := by decide +kernel
    have e2 : ((wPlace 3000).hub.gangs.any fun f => f.2.waiter && decide (f.2.cls = (wNew 3000).cls)) = false := by decide +kernel
    have e3 : (wNew 3000).waiter = false := rfl
    unfold State.placeDue
    rw [o1]
    simp only [List.find?, n1, e, e2, e3, Option.isSome_none, Bool.false_eq_true, if_false, Bool.not_false, Bool.and_true,
      Option.map_some]
  have d2 : (wPlace 2047).placeDue = some 1 := by
    have e : (wPlace 2047).barred 1 (wNew 2047) = false := by decide +kernel
    have e' : ((wPlace 2047).choose 1 (wNew 2047)).isSome = true := by rw [n2]; rfl
    unfold State.placeDue
    rw [o2]
    simp only [List.find?, e', e, if_true, Bool.not_false, Option.map_some]
  obtain ⟨h1, -⟩ := h 1 1 0 (wNew 3000) [] 0 0 (wEnt []) (wCom [] id)
  obtain ⟨-, h2, -⟩ := h 1 1 0 (wNew 2047) (((wPlace 2047).choose 1 (wNew 2047)).getD []) 0 0 (wEnt []) (wCom [] id)
  obtain ⟨-, -, h3, -, -, -, h7, -⟩ := h 0 1 0 wGang [] 0 0 (wEnt []) (wCom [] id)
  obtain ⟨-, -, -, h4, -⟩ := h 0 1 0 wGang [] 0 0 (wEnt [0x40001, 0, 7]) (wCom [0x40001, 0, 7] id)
  obtain ⟨-, -, -, -, h5, -⟩ := h 0 1 0 wGang [] 0 0 (wEnt [0x40001, 0, 0x10000]) (wCom [0x40001, 0, 0x10000] id)
  obtain ⟨-, -, -, -, -, h6, -⟩ := h 0 1 0 wGang [] 0 0 (wEnt [0x50001, 1]) (wCom [0x50001, 1] id)
  obtain ⟨-, -, -, h8, -⟩ := past4 (h 0 1 0 wGang [] 0 0 (wEnt [0x80001, 9]) (wCom [0x80001, 9] id))
  obtain ⟨h9, -⟩ := past8 (h 0 1 0 wGang [] 0 0 (wEnt [0x90001]) (wCom [0x90001] id))
  obtain ⟨-, h10, -⟩ := past8 (h 0 1 0 { wGang with st := .saved } [] 0 0 (wEnt [0xA0001]) (wCom [0xA0001] id))
  obtain ⟨-, -, h11⟩ := past8 (h 0 1 0 wGang [] 0 0 (wEnt [0xA0001]) (wCom [0xA0001] fun y => { y with begun := true }))
  exact ⟨goE h1 ⟨⟨d1, rfl⟩, n1⟩, goE h2 ⟨⟨d2, rfl⟩, n2, rfl, by decide +kernel, by decide +kernel⟩, goE h3 (by decide +kernel),
    goE h4 (by decide +kernel), goE h5 (by decide +kernel), goE h6 (by decide +kernel), goE h7 (by decide +kernel),
    goE h8 (by decide +kernel), goE h9 (by decide +kernel), goE h10 (by decide +kernel),
    goE h11 ⟨by decide +kernel, by decide +kernel, by decide +kernel, by decide +kernel, by decide +kernel, by decide +kernel, by decide +kernel,
      by decide +kernel⟩⟩
/-! ### Witnesses: management -/

/-- `w` with its controller as `f` makes it, with bring-up done before. -/
def wMg (f : Mgmt → Mgmt) : State := { w with mg := f { w.mg with stage := 6, sampleAt := 100 } }

/-- `w` in a stage of bring-up. -/
def wStage (k : Nat) (f : Mgmt → Mgmt) : State := wMg fun m => f { m with stage := k }

/-- `wMg` with 99 power samples of 1000 W. -/
def wPow (f : Mgmt → Mgmt) : State := wMg fun m => f { m with power := List.replicate 99 1000000, fresh := 99 }

/-- A controller that may answer a request that it signs. -/
def wSigns (r : Option Signing) : Mgmt → Mgmt := fun m => { m with spdm := ⟨true, true, r, none⟩ }

theorem witness_Management (h : Obligations.Management) :
    (Goes (exec .powerOn w) ∧ Goes (exec .bringUpStage (wStage 0 id)) ∧ Goes (exec .bringUpStage (wStage 1 id))
      ∧ Goes (exec .bringUpStage (wStage 1 fun m => { m with fuse := 9 })) ∧ Goes (exec .bringUpStage (wStage 2 id))
      ∧ Goes (exec .bringUpStage (wStage 3 id)) ∧ Goes (exec .bringUpStage (wStage 4 id)) ∧ Goes (exec .bringUpStage (wStage 5 id))
      ∧ Goes (exec .bringUpStage (wStage 5 fun m => { m with faulty := some 5 }))
      ∧ Goes (exec (.firmwareImageLoad 3 3 true true) (wStage 1 fun m => { m with err := true, ecode := 1, fuse := 3 }))
      ∧ Goes (exec (.firmwareImageLoad 3 3 true true) (wStage 1 fun m => { m with err := true, ecode := 1, fuse := 4 }))
      ∧ Goes (exec (.firmwareImageLoad 3 3 true true) (wStage 2 id)))
    ∧ (Goes (exec .svncommit (wMg fun m => { m with images := Vector.replicate 3 ⟨1, true, true, 0⟩ })) ∧ Goes (exec .svncommit (wMg id))
      ∧ Goes (exec (.pwrlimWrite 0) w) ∧ Goes (exec (.mgmtRegisterWrite 0x14 1) w) ∧ Goes (exec (.mgmtRegisterWrite 0x18 0xFFF) w)
      ∧ Goes (exec (.mgmtRegisterWrite 0x20 0xFFF) w))
    ∧ (Goes (exec (.powerSample 0 0 115) (wMg id)) ∧ Goes (exec (.powerSample 9000000000 0 0) (wPow fun m => { m with step := 3, held3 := 99 }))
      ∧ Goes (exec (.powerSample 0 4001 104) (wMg fun m => { m with amps := 1 }))
      ∧ Goes (exec (.powerSample 9000000000 4000 104) (wPow fun m => { m with since := 99 }))
      ∧ Goes (exec (.powerSample 0 4000 106) (wMg fun m => { m with since := 99 }))
      ∧ Goes (exec (.powerSample 1000000 4000 99) (wPow fun m => { m with step := 1, cool := 999 }))
      ∧ Goes (exec (.powerSample 1000000 4000 105) (wPow id))
      ∧ Goes (exec .clockStepChange { wMg fun m => { m with stepNext := some 3 } with now := 96 }))
    ∧ (Goes (exec .getVersion (wStage 2 id)) ∧ Goes (exec (.negotiateAlgorithms true false) (wStage 2 id))
      ∧ Goes (exec .getDigests (wStage 2 (wSigns none))) ∧ Goes (exec (.getCertificate 1 0 0) (wStage 2 id))
      ∧ Goes (exec (.challenge 0) (wStage 2 (wSigns none))) ∧ Goes (exec (.challenge 1) (wStage 2 id))
      ∧ Goes (exec (.getMeasurements 1 true) (wStage 3 id)) ∧ Goes (exec (.getMeasurements 5 true) (wStage 4 (wSigns none)))
      ∧ Goes (exec (.getMeasurements 5 false) (wStage 4 (wSigns none))))
    ∧ Goes (exec (.spdmUnsupportedRequest 9) (wStage 2 id))
    ∧ Goes (exec .getVersion (wStage 2 (wSigns (some .challenge)))) ∧ Goes (exec .spdmSignedResponse (wStage 2 (wSigns (some .challenge))))
    ∧ Goes (exec .spdmSignedResponse (wStage 4 (wSigns (some (.measurement 5))))) := by
  have g := fun (mw amps temp slot idx : Nat) (val : W32) =>
    h 3 mw amps temp slot 0 0 idx 9 3 true true true false true val 3 .challenge
  obtain ⟨a1, -, -, a4, a5, a6, a7, a8, z⟩ := g 0 0 0 0 0 0
  obtain ⟨-, a10, a11, a12, a13, a14, a15, a16, z⟩ := z
  obtain ⟨a17, -, a19, a20, -, -, -, -, z⟩ := z
  obtain ⟨-, -, -, -, a29, -, a31, -, z⟩ := z
  obtain ⟨a33, a34, -, a36, -⟩ := z
  obtain ⟨-, -, -, -, a21, a22, a23, -⟩ := past8 (past8 (g 0 0 115 0 0 0xFFF))
  have z := past8 (past8 (g 9000000000 4000 104 1 1 0))
  obtain ⟨-, a26, -⟩ := past8 z
  obtain ⟨-, -, a35, -⟩ := past8 (past8 z)
  obtain ⟨a37, a38, -, -, a41, a42, a43, -⟩ := past4 (past8 (past8 z))
  obtain ⟨-, -, -, a24, -⟩ := past4 (past8 (past8 (g 9000000000 0 0 0 0 0)))
  obtain ⟨a25, -⟩ := past8 (past8 (past8 (g 0 4001 104 0 0 0)))
  obtain ⟨-, b26, -⟩ := past8 (past8 (past8 (g 0 4000 106 0 0 0)))
  obtain ⟨-, -, a27, -⟩ := past8 (past8 (past8 (g 1000000 4000 99 0 0 0)))
  obtain ⟨-, -, -, a28, -⟩ := past8 (past8 (past8 (g 1000000 4000 105 0 0 0)))
  obtain ⟨-, -, a39, a40, -, -, -, a44⟩ := past4 (past8 (past8 (past8 (past8 (g 0 0 0 0 5 0)))))
  exact ⟨⟨goE a1 trivial, goE a4 (by decide +kernel), goE a5 (by decide +kernel), goE a6 (by decide +kernel), goE a7 (by decide +kernel),
      goE a8 (by decide +kernel), goE a10 (by decide +kernel), goE a11 (by decide +kernel), goE a12 (by decide +kernel),
      goE a13 (by decide +kernel), goE a14 (by decide +kernel), goE a15 (by decide +kernel)⟩,
    ⟨goE a16 (by decide +kernel), goE a17 (by decide +kernel), goE a19 trivial, goE a20 trivial, goE a21 trivial, goE a22 trivial⟩,
    ⟨goE a23 (by decide +kernel), goE a24 (by decide +kernel), goE a25 (by decide +kernel), goE a26 (by decide +kernel),
      goE b26 (by decide +kernel), goE a27 (by decide +kernel), goE a28 (by decide +kernel), goE a29 (by decide +kernel)⟩,
    ⟨goE a31 (by decide +kernel), goE a33 (by decide +kernel), goE a34 (by decide +kernel), goE a35 (by decide +kernel),
      goE a36 (by decide +kernel), goE a37 (by decide +kernel), goE a38 (by decide +kernel), goE a39 (by decide +kernel),
      goE a40 (by decide +kernel)⟩,
    goE a41 (by decide +kernel), goE a42 (by decide +kernel), goE a43 (by decide +kernel), goE a44 (by decide +kernel)⟩
/-! ### Witnesses: streams as operands, slot starts -/

/-- The strip of the port and GLOBAL streams of `wStr`. -/
def wT (last : Bool) : Strip := ⟨VReg.ofElems 32 fun j => j + 1, false, last⟩

/-- `wStr` with a strip in port 7 and a place in pipe 7, or a strip in pipe 7, the last one or not. -/
def wStrP (y : Stream) (last : Bool) : State :=
  (wStr y).modCore 0 fun x => { x with
    port := x.port.set 3 { x.portOf 3 with fifo := [wT last] }
    pipe := x.pipe.set 7 { wFull with depth := wFull.count + 1, ends := if last then [wFull.head] else [] } }

theorem witness_StreamOperands (h : Obligations.StreamOperands) :
    (Goes (exec (.vmov 3 31 0) (wStr wStrip)) ∧ Goes (exec (.vmov 3 31 0) ((wStr wStrip).modCore 0 fun x => { x with err2 := [0] }))
      ∧ Goes (exec (.vmov 3 31 0) (wStr { wStrip with seg := 0 })) ∧ Goes (exec (.vmov 3 31 0) (wStr { wStrip with blk := wPad }))
      ∧ Goes (exec (.vmov 3 31 1) ((wStr wStrip).modSlot 0 0 fun t => { t with m := Vector.replicate 8 0 })))
    ∧ (Goes (exec (.vmov 3 31 0) (wStr { wStrip with kind := .global, staged := [(wT false, 0)] }))
      ∧ Goes (exec (.vmov 3 31 0) (wStr { wStrip with kind := .global, staged := [({ wT false with bad := true }, 0)] }))
      ∧ Goes (exec (.vmov 3 31 0) (wStr { wStrip with kind := .global }))
      ∧ Goes (exec (.vmov 3 31 0) (wStr { wStrip with kind := .global, failed := some 9 })))
    ∧ (Goes (exec (.vmov 3 31 0) (wStrP { wStrip with kind := .port, num := 3 } true))
      ∧ Goes (exec (.vmov 3 31 0) (wStr { wStrip with kind := .port, num := 3 }))
      ∧ Goes (exec (.vmov 3 31 0) ((wStr { wStrip with kind := .port, num := 3 }).modSlot 0 0 fun t => { t with imv := true })))
    ∧ (Goes (exec (.vmov 3 31 0) (wStrP { wStrip with kind := .pipe, num := 7 } true))
      ∧ Goes (exec (.vmov 3 31 0) (wStrP { wStrip with kind := .pipe, num := 7 } false))
      ∧ Goes (exec (.vmov 3 31 0) (wStr { wStrip with kind := .pipe, num := 0 })))
    ∧ Goes (exec (.vmov 3 31 0) (wStr { wStrip with ended := true }))
    ∧ Goes (exec (.vmov 3 31 0) (wStr { wStrip with write := true }))
    ∧ (Goes (exec (.vmov 31 3 0) (wStr { wStrip with write := true }))
      ∧ Goes (exec (.vmov 31 3 0) (wStr { wStrip with write := true, seg := 0 }))
      ∧ Goes (exec (.vmov 31 3 0) (wStr { wStrip with write := true, blk := wPad }))
      ∧ Goes (exec (.vmov 31 3 0) (wStr { wStrip with write := true, kind := .global }))
      ∧ Goes (exec (.vmov 31 3 0) (wStr { wStrip with write := true, kind := .global, staged := List.replicate 32 (wT false, 0) }))
      ∧ Goes (exec (.vmov 31 3 0) (wStrP { wStrip with write := true, kind := .pipe, num := 7 } false))
      ∧ Goes (exec (.vmov 31 3 0) (wStr { wStrip with write := true, kind := .pipe, num := 7 }))
      ∧ Goes (exec (.vmov 31 3 0) (wStr { wStrip with write := true, ended := true })))
    ∧ Goes (exec (.vmov 31 3 0) (wStr wStrip)) := by
  have g := fun (y : Stream) (m : BitVec 3) (x f : Nat) (t : Strip) (ts : List Strip) (gs : List (Strip × W32)) (s : State)
      (ha : s.Able) (hd : s.Direct) => h 3 31 m y x f t 0 ts gs s ha hd
  have k := fun (y : Stream) (x : Nat) (s : State) (ha : s.Able) (hd : s.Direct) => h 31 3 0 y x 0 (wT false) 0 [] [] s ha hd
  have p3 : ∀ y, (wStr y).plain [3] := fun y r hr => by simp at hr; subst hr; rfl
  have q3 : ∀ y l, (wStrP y l).plain [3] := fun y l r hr => by simp at hr; subst hr; rfl
  obtain ⟨a1, -⟩ := g wStrip 0 0 0 (wT false) [] [] (wStr wStrip) (by decide +kernel) (direct_wStr _)
  obtain ⟨a2, -⟩ := g wStrip 0 0 0 (wT false) [] [] ((wStr wStrip).modCore 0 fun x => { x with err2 := [0] }) (by decide +kernel)
    (direct_of (by decide +kernel))
  obtain ⟨a3, -⟩ := g { wStrip with seg := 0 } 0 cSPACE 0 (wT false) [] [] (wStr { wStrip with seg := 0 }) (by decide +kernel) (direct_wStr _)
  obtain ⟨a4, -⟩ := g { wStrip with blk := wPad } 0 0 0 (wT false) [] [] (wStr { wStrip with blk := wPad }) (by decide +kernel)
    (direct_wStr _)
  obtain ⟨a5, -⟩ := g wStrip 1 0 0 (wT false) [] [] ((wStr wStrip).modSlot 0 0 fun t => { t with m := Vector.replicate 8 0 })
    (by decide +kernel) (direct_of (by decide +kernel))
  obtain ⟨b1, -⟩ := g { wStrip with kind := .global, staged := [(wT false, 0)] } 0 0 0 (wT false) [] []
    (wStr { wStrip with kind := .global, staged := [(wT false, 0)] }) (by decide +kernel) (direct_wStr _)
  obtain ⟨b2, -⟩ := g { wStrip with kind := .global, staged := [({ wT false with bad := true }, 0)] } 0 0 0
    { wT false with bad := true } [] [] (wStr { wStrip with kind := .global, staged := [({ wT false with bad := true }, 0)] })
    (by decide +kernel) (direct_wStr _)
  obtain ⟨b3, -⟩ := g { wStrip with kind := .global } 0 0 0 (wT false) [] [] (wStr { wStrip with kind := .global }) (by decide +kernel)
    (direct_wStr _)
  obtain ⟨b4, -⟩ := g { wStrip with kind := .global, failed := some 9 } 0 0 9 (wT false) [] []
    (wStr { wStrip with kind := .global, failed := some 9 }) (by decide +kernel) (direct_wStr _)
  obtain ⟨c1, -⟩ := g { wStrip with kind := .port, num := 3 } 0 0 0 (wT true) [] [] (wStrP { wStrip with kind := .port, num := 3 } true)
    (by decide +kernel) (direct_of (by decide +kernel))
  obtain ⟨c2, -⟩ := g { wStrip with kind := .port, num := 3 } 0 0 0 (wT true) [] [] (wStr { wStrip with kind := .port, num := 3 })
    (by decide +kernel) (direct_wStr _)
  obtain ⟨c3, -⟩ := g { wStrip with kind := .port, num := 3 } 0 0 0 (wT true) [] []
    ((wStr { wStrip with kind := .port, num := 3 }).modSlot 0 0 fun t => { t with imv := true }) (by decide +kernel)
    (direct_of (by decide +kernel))
  obtain ⟨d1, -⟩ := g { wStrip with kind := .pipe, num := 7 } 0 0 0 (wT true) [] [] (wStrP { wStrip with kind := .pipe, num := 7 } true)
    (by decide +kernel) (direct_of (by decide +kernel))
  obtain ⟨d2, -⟩ := g { wStrip with kind := .pipe, num := 7 } 0 0 0 (wT true) [] [] (wStrP { wStrip with kind := .pipe, num := 7 } false)
    (by decide +kernel) (direct_of (by decide +kernel))
  obtain ⟨d3, -⟩ := g { wStrip with kind := .pipe, num := 0 } 0 0 0 (wT true) [] [] (wStr { wStrip with kind := .pipe, num := 0 })
    (by decide +kernel) (direct_wStr _)
  obtain ⟨e1, -⟩ := g { wStrip with ended := true } 0 0 0 (wT true) [] [] (wStr { wStrip with ended := true }) (by decide +kernel)
    (direct_wStr _)
  obtain ⟨-, e2, -⟩ := g { wStrip with write := true } 0 0 0 (wT true) [] [] (wStr { wStrip with write := true }) (by decide +kernel)
    (direct_wStr _)
  obtain ⟨-, -, f1, -⟩ := k { wStrip with write := true } 0 (wStr { wStrip with write := true }) (by decide +kernel) (direct_wStr _)
  obtain ⟨-, -, f2, -⟩ := k { wStrip with write := true, seg := 0 } cSPACE (wStr { wStrip with write := true, seg := 0 })
    (by decide +kernel) (direct_wStr _)
  obtain ⟨-, -, f3, -⟩ := k { wStrip with write := true, blk := wPad } 0 (wStr { wStrip with write := true, blk := wPad })
    (by decide +kernel) (direct_wStr _)
  obtain ⟨-, -, f4, -⟩ := k { wStrip with write := true, kind := .global } 0 (wStr { wStrip with write := true, kind := .global })
    (by decide +kernel) (direct_wStr _)
  obtain ⟨-, -, f5, -⟩ := k { wStrip with write := true, kind := .global, staged := List.replicate 32 (wT false, 0) } 0
    (wStr { wStrip with write := true, kind := .global, staged := List.replicate 32 (wT false, 0) }) (by decide +kernel) (direct_wStr _)
  obtain ⟨-, -, f6, -⟩ := k { wStrip with write := true, kind := .pipe, num := 7 } 0
    (wStrP { wStrip with write := true, kind := .pipe, num := 7 } false) (by decide +kernel) (direct_of (by decide +kernel))
  obtain ⟨-, -, f7, -⟩ := k { wStrip with write := true, kind := .pipe, num := 7 } 0
    (wStr { wStrip with write := true, kind := .pipe, num := 7 }) (by decide +kernel) (direct_wStr _)
  obtain ⟨-, -, f8, -⟩ := k { wStrip with write := true, ended := true } 0 (wStr { wStrip with write := true, ended := true })
    (by decide +kernel) (direct_wStr _)
  obtain ⟨-, -, -, i⟩ := k wStrip 0 (wStr wStrip) (by decide +kernel) (direct_wStr _)
  refine ⟨⟨⟨_, ((a1 (by decide +kernel) rfl (p3 _)).1 (by decide +kernel) (by decide +kernel)).1 (by decide +kernel) |>.1 (by decide +kernel)⟩,
      goes_of_traps (((a2 (by decide +kernel) rfl (plain_of (by decide +kernel))).1 (by decide +kernel) (by decide +kernel)).1
        (by decide +kernel) |>.2 (by decide +kernel)),
      goes_of_traps (((a3 (by decide +kernel) rfl (p3 _)).1 (by decide +kernel) (by decide +kernel)).2 (by decide +kernel)),
      ⟨_, (a4 (by decide +kernel) rfl (p3 _)).2.1 (by decide +kernel) rfl (by decide +kernel) (by decide +kernel)⟩,
      ⟨_, (a5 (by decide +kernel) rfl (plain_of (by decide +kernel))).2.2.1 (by decide +kernel) rfl (by decide +kernel)⟩⟩,
    ⟨⟨_, ((b1 (by decide +kernel) rfl (p3 _)).2.2.2.1 rfl (by decide +kernel)).1 (by decide +kernel) rfl rfl (by decide +kernel)⟩,
      goes_of_traps (((b2 (by decide +kernel) rfl (p3 _)).2.2.2.1 rfl (by decide +kernel)).2.1 (by decide +kernel) rfl (.inl rfl)),
      ⟨_, ((b3 (by decide +kernel) rfl (p3 _)).2.2.2.1 rfl (by decide +kernel)).2.2.1 rfl rfl⟩,
      goes_of_traps (((b4 (by decide +kernel) rfl (p3 _)).2.2.2.1 rfl (by decide +kernel)).2.2.2 rfl rfl)⟩,
    ⟨⟨_, (past4 (c1 (by decide +kernel) rfl (q3 _ _)) |>.1 rfl rfl (by decide +kernel)).1 (by decide +kernel) (by decide +kernel)⟩,
      ⟨_, (past4 (c2 (by decide +kernel) rfl (p3 _)) |>.1 rfl rfl (by decide +kernel)).2 (by decide +kernel)⟩,
      goes_of_traps (past4 (c3 (by decide +kernel) rfl (plain_of (by decide +kernel))) |>.2.1 rfl rfl (by decide +kernel))⟩,
    ⟨⟨_, (past4 (d1 (by decide +kernel) rfl (q3 _ _)) |>.2.2.1 rfl rfl).1 (by decide +kernel) (by decide +kernel) (by decide +kernel)⟩,
      ⟨_, (past4 (d2 (by decide +kernel) rfl (q3 _ _)) |>.2.2.1 rfl rfl).2.1 (by decide +kernel) (by decide +kernel) (by decide +kernel)
        (by decide +kernel)⟩,
      ⟨_, (past4 (d3 (by decide +kernel) rfl (p3 _)) |>.2.2.1 rfl rfl).2.2 (by decide +kernel)⟩⟩,
    goes_of_traps (past4 (e1 (by decide +kernel) rfl (p3 _)) |>.2.2.2 rfl), goes_of_traps (e2 (by decide +kernel) rfl (p3 _)),
    ⟨⟨_, ((f1 (by decide +kernel) rfl (p3 _)).1 (by decide +kernel) (by decide +kernel)).1 (by decide +kernel)⟩,
      goes_of_traps (((f2 (by decide +kernel) rfl (p3 _)).1 (by decide +kernel) (by decide +kernel)).2 (by decide +kernel)),
      ⟨_, (f3 (by decide +kernel) rfl (p3 _)).2.1 rfl (by decide +kernel) (by decide +kernel)⟩,
      ⟨_, (f4 (by decide +kernel) rfl (p3 _)).2.2.1 (by decide +kernel) rfl (by decide +kernel) (by decide +kernel)⟩,
      ⟨_, (f5 (by decide +kernel) rfl (p3 _)).2.2.2.1 rfl (by decide +kernel) (by decide +kernel)⟩,
      ⟨_, past4 (f6 (by decide +kernel) rfl (q3 _ _)) |>.1 (by decide +kernel) rfl rfl (by decide +kernel)⟩,
      ⟨_, past4 (f7 (by decide +kernel) rfl (p3 _)) |>.2.1 rfl rfl (by decide +kernel)⟩,
      goes_of_traps (past4 (f8 (by decide +kernel) rfl (p3 _)) |>.2.2 rfl)⟩,
    goes_of_traps (i (by decide +kernel) rfl (p3 _))⟩

theorem plain_but {s : State} {r : Nat} (h : ((List.range 8).all fun u => u + 24 = r || (s.bound s.cur.1 s.cur.2 (u + 24)).isNone) = true) :
    ∀ q, q ≠ r → s.plain [q] := by
  intro q hq k hk
  obtain rfl := List.mem_singleton.mp hk
  by_cases hb : 24 ≤ k ∧ k < 32
  · have := List.all_eq_true.mp h (k - 24) (by simp; omega)
    rw [show k - 24 + 24 = k by omega] at this
    simpa [hq] using this
  · rw [State.bound, if_neg (by simpa using hb)]

/-- What the pop of `wStrip` gives. -/
def gotOf : PopR → VReg × (State → State)
  | .got v fx => (v, fx)
  | _ => (0, id)
def wGot : VReg × (State → State) := gotOf (popStream (wStr wStrip) 0 0 7 wStrip true)

theorem got_of {r : PopR} (h : (match r with | .got _ _ => true | _ => false) = true) : r = .got (gotOf r).1 (gotOf r).2 := by
  cases r <;> simp_all [gotOf]

def isReady : Host.Outcome State Fault Refusal → Bool
  | .next t => decide ((t.slot 0 0).st = .ready)
  | _ => false

theorem ready_of {o : Host.Outcome State Fault Refusal} {u : State} (h : o = .next u) (k : isReady o = true) : (u.slot 0 0).st = .ready := by
  subst h; simpa [isReady] using k

/-- `wStr` with a unit 6 bound for writing in place of unit 7. -/
def wStr6 : State := wC fun x => { x with su := x.su.set 6 wWr }

theorem witness_StreamForms (h : Obligations.StreamForms) (e : Obligations.EveryInstructionAnswers) :
    (∃ u t, exec (.vadd 3 31 4 0 0) ((wStr wStrip).setCore 0 (((wStr wStrip).my.setSu 7 Stream.reset).setSlot 0
        ((wStr wStrip).me.wv 31 wGot.1))) = .next u ∧ exec (.vadd 3 31 4 0 0) (wStr wStrip) = .next t
        ∧ (t.slot 0 0).rv 3 = (u.slot 0 0).rv 3)
    ∧ (∃ u t, exec (.vadd 31 3 4 0 0) ((wStr wWr).setCore 0 (((wStr wWr).my.setSu 7 Stream.reset).setSlot 0 (wStr wWr).me)) = .next u
        ∧ exec (.vadd 31 3 4 0 0) (wStr wWr) = .next t ∧ (t.slot 0 0).rv 31 = (wStr wWr).me.rv 31)
    ∧ Goes (exec (.vadd 31 3 4 0 0) (wStr wStrip)) ∧ Goes (exec (.vadd 3 31 4 0 0) (wStr wWr))
    ∧ Goes (exec (.vtopk 30 3 4 0 0) wStr6) ∧ Goes (exec (.smovv 31 5 6) (wStr wWr)) := by
  have b := h 3 31 4 4 5 6 0 0 0 0 0 0 0 wStrip 0 (wStr wStrip) (by decide +kernel) (direct_wStr _) rfl (by decide +kernel)
  have a := h 3 31 4 4 5 6 0 0 0 0 0 0 0 wWr 0 (wStr wWr) (by decide +kernel) (direct_wStr _) rfl (by decide +kernel)
  obtain ⟨-, c, -, -, -, c'⟩ := h 31 3 4 4 5 6 0 0 0 0 0 0 0 wWr 0 (wStr wWr) (by decide +kernel) (direct_wStr _) rfl (by decide +kernel)
  have d := h 31 3 4 4 5 6 0 0 0 0 0 0 0 wStrip 0 (wStr wStrip) (by decide +kernel) (direct_wStr _) rfl (by decide +kernel)
  obtain ⟨k, -⟩ := past4 (h 30 3 4 4 5 6 0 0 0 0 0 0 0 wWr 0 wStr6 (by decide +kernel) (direct_of (by decide +kernel)) rfl
    (by decide +kernel))
  have hs : (wStr wStrip).bound 0 0 31 = some (7, wStrip) ∧ ∀ q, q ≠ 31 → (wStr wStrip).plain [q] :=
    ⟨by decide +kernel, plain_but (by decide +kernel)⟩
  have ho : (wStr wWr).bound 0 0 31 = some (7, wWr) ∧ ∀ q, q ≠ 31 → (wStr wWr).plain [q] :=
    ⟨by decide +kernel, plain_but (by decide +kernel)⟩
  have h6 : wStr6.bound 0 0 30 = some (6, wWr) ∧ ∀ q, q ≠ 30 → wStr6.plain [q] := ⟨by decide +kernel, plain_but (by decide +kernel)⟩
  obtain ⟨u, hu⟩ := e.1 (.vadd 3 31 4 0 0) ((wStr wStrip).setCore 0 (((wStr wStrip).my.setSu 7 Stream.reset).setSlot 0
        ((wStr wStrip).me.wv 31 wGot.1)))
  obtain ⟨t, ht, -, -, hv, -⟩ := b.1 _ 31 wGot.1 wGot.2 u (.inr (.inl ⟨.inl (nth 0 rfl), .inl rfl⟩)) (by decide)
      hs rfl (by decide) (by decide) (got_of (by decide +kernel)) hu (ready_of hu (by decide +kernel))
  obtain ⟨u', hu'⟩ := e.1 (.vadd 31 3 4 0 0) ((wStr wWr).setCore 0 (((wStr wWr).my.setSu 7 Stream.reset).setSlot 0 (wStr wWr).me))
  obtain ⟨t', ht', -, -, hv', -⟩ := c _ _ u' (.inl ⟨_, nth 0 rfl, rfl⟩) (by decide) ho (by decide) rfl rfl rfl
      (by decide +kernel) (by decide +kernel) (by decide +kernel) hu' (ready_of hu' (by decide +kernel))
  exact ⟨⟨u, t, hu, ht, hv 3 (by decide) (by decide)⟩, ⟨u', t', hu', ht', hv' 31 (by decide)⟩,
    goes_of_traps (d.2.2.1 _ _ (.inl ⟨_, nth 0 rfl, rfl⟩) (by decide) hs (by decide) rfl),
    goes_of_traps (a.2.2.2.1 _ 31 (.inr (.inl ⟨.inl (nth 0 rfl), .inl rfl⟩)) ⟨_, .inl ⟨_, nth 0 rfl, rfl⟩⟩ (by decide) ho
      (by decide) rfl),
    goes_of_traps (k h6 (by decide) _ (nth 0 rfl) (by decide)), goes_of_traps (c' ho (by decide))⟩

/-- `w` with a request in s5 that starts slot 13 at the greatest offset, and its start word in s6 (R11). -/
def wStart : State := wS fun t => { t with s := (t.s.set 5 (13 + 0xFFFF8 * 2 ^ 32)).set 6 7 }

theorem witness_SlotStart (h : Obligations.SlotStart) (e : Obligations.EveryInstructionAnswers) :
    ∃ t, exec (.slotstart 5 6) wStart = .next t ∧ (t.slot 0 13).pc = 0xFFFF8 ∧ (t.slot 0 13).rs 1 = 7 := by
  obtain ⟨t, ht⟩ := e.1 (.slotstart 5 6) wStart
  have g := h 5 6 wStart t (by decide +kernel) (by decide +kernel) (by decide +kernel) (by decide +kernel)
  obtain ⟨h1, -, -, h4, -⟩ := g (by decide +kernel) (by decide +kernel) (by decide +kernel) (by decide +kernel)
    (by decide +kernel) ht
  exact ⟨t, ht, h1.trans (by decide +kernel), (h4 1 (by decide)).trans (by decide +kernel)⟩

/-! ### Witnesses: frames -/

theorem witness_ScalarFrame (h : Obligations.ScalarFrame) (e : Obligations.EveryInstructionAnswers) :
    (∃ t, exec (.mulh 63 5 6) w = .next t ∧ w.others t) ∧ ∃ t, exec (.cmpi 5 7 5 (-1)) w = .next t ∧ w.others t := by
  obtain ⟨t, ht⟩ := e.1 (.mulh 63 5 6) w
  obtain ⟨r, hr⟩ := e.1 (.cmpi 5 7 5 (-1)) w
  exact ⟨⟨t, ht, ((h 63 5 6 0 0 0 0 0 0 0 0 0 0 w t (by decide +kernel)).1 (.mulh 63 5 6) (by simp) (by decide) ht).1.1⟩,
    r, hr, ((h 0 5 6 7 0 5 0 0 0 (-1) 0 0 0 w r (by decide +kernel)).2 (.cmpi 5 7 5 (-1)) (by simp) (by decide) hr).1.1⟩

theorem witness_VectorFrame (h : Obligations.VectorFrame) (e : Obligations.EveryInstructionAnswers) :
    ∃ t, exec (.vlog2 31 31 7 5) w = .next t ∧ w.others t := by
  obtain ⟨t, ht⟩ := e.1 (.vlog2 31 31 7 5) w
  exact ⟨t, ht, (h 31 31 31 31 0 7 5 0 w t (by decide +kernel) (by unfold State.Direct; decide +kernel) (plain_of (by decide +kernel))
    _ (nth 17 rfl) (by decide) ht).1⟩

theorem witness_MemoryFrame (h : Obligations.MemoryFrame) (e : Obligations.EveryInstructionAnswers) :
    (∃ t, exec (.ldd 4 5 0 0 0) wM = .next t ∧ wM.others t) ∧ ∃ t, exec (.sth 4 5 0 0 3) wM = .next t ∧ wM.others t := by
  obtain ⟨t, ht⟩ := e.1 (.ldd 4 5 0 0 0) wM
  obtain ⟨r, hr⟩ := e.1 (.sth 4 5 0 0 3) wM
  exact ⟨⟨t, ht, ((h 4 5 0 0 0 wM t (by decide +kernel)).1 (.ldd 4 5 0 0 0, 8) (by simp) (segOk_of (by decide +kernel))
      (by decide +kernel) ht).1.1⟩,
    r, hr, ((h 4 5 0 0 3 wM r (by decide +kernel)).2 (.sth 4 5 0 0 3, 2) (by simp) (segOk_of (by decide +kernel))
      (fun _ => by decide +kernel) hr).1.1⟩

theorem witness_RegistersAndMemory (h : Obligations.RegistersAndMemory) :
    ((Slot.reset.ws 63 7).rs 63 = 7 ∧ (Slot.reset.ws 0 7).rs 0 = 0) ∧ (Slot.reset.wp 0 false).rp 0 = true
      ∧ (Slot.reset.wm 7 5).rm 7 = 5 ∧ (Slot.reset.wv 31 1).rv 31 = 1
      ∧ Memory.read (Memory.write [] 0xFFFFC 4 0x112345678) 0xFFFFC 4 = 0x12345678 := by
  obtain ⟨h1, h2, h3, h4, h5⟩ := h
  exact ⟨⟨(h1 Slot.reset 63 63 7 (by decide) (by decide)).1, (h1 Slot.reset 0 0 7 (by decide) (by decide)).1⟩,
    h2 Slot.reset 0 0 false (by decide) (by decide), h3 Slot.reset 7 7 5 (by decide) (by decide),
    h4 Slot.reset 31 31 1 (by decide) (by decide), (h5 [] 0xFFFFC 4 0x112345678 (by decide)).1⟩

/-! ### Witnesses: encoding, steps and the invariant -/

theorem witness_DecodeAndEncodeAgree (h : Obligations.DecodeAndEncodeAgree) :
    decodeS (encode (.cmpi 5 7 63 (-1))) = some (.cmpi 5 7 63 (-1)) ∧ decodeV (encode (.vfma 31 30 29 28 7 2)) = some (.vfma 31 30 29 28 7 2)
      ∧ decodeL (encode (.movl 63 0xFFFFFFFF)) = some (.movl 63 0xFFFFFFFF) ∧ encode (.trap 5) = 0x30005007 :=
  ⟨(h.1 _ (by decide)).1 (by decide), (h.1 _ (by decide)).2.1 (by decide), (h.1 _ (by decide)).2.2 (by decide),
    (h.2 0x30005007 (.trap 5) (.inl (by decide +kernel))).1⟩

/-- Core 0 with TRAP 5 in a bundle at the head of its local store, whose turn it is (R196). -/
def wTurn : State := w.place 0x30005007

theorem isSome_of {A : Type} {o : Option A} {d : A} (h : o.isSome = true) : o = some (o.getD d) := by
  cases o <;> simp_all

/-- The state in which the bundle of `wTurn` is executed. -/
def wIssued : State :=
  let p := { wTurn with turn := [] }.atSlot 0 0
  ((p.touch 0 0 8).contest 0 0 (Memory.read p.my.mem 0 8) false).getD w

/-- What the issue of that bundle leaves of a state that it answers. -/
noncomputable def wAfter (t : State) : State :=
  let w := Memory.read ({ wTurn with turn := [] }.atSlot 0 0).my.mem 0 8
  ((wIssued.charge t 0 (some 0) (instrsOf w)).tally 0 0 false).sharePipe 0 0 w

theorem witness_StepRunsTheDecoded (h : Obligations.StepRunsTheDecoded) : step wTurn = onNext (exec (.trap 5) wIssued) wAfter :=
  h wTurn wIssued 0 0 0 [] false (.trap 5) (by decide +kernel) (by decide +kernel) (by decide +kernel) (by decide +kernel)
    (by decide +kernel) (.inl (by decide)) (by decide +kernel) (isSome_of (d := w) (by decide +kernel)) (by decide +kernel) (by decide +kernel)

theorem witness_MemoryStaysCanonical (h : Obligations.MemoryStaysCanonical) (h' : Obligations.StepRunsTheDecoded)
    (e : Obligations.EveryInstructionAnswers) : ∃ t, step wTurn = .next t ∧ t.canonical := by
  obtain ⟨t, ht⟩ := e.1 (.trap 5) wIssued
  have hs : step wTurn = .next (wAfter t) := by rw [witness_StepRunsTheDecoded h', ht]; rfl
  exact ⟨_, hs, h wTurn _ (by unfold State.canonical; decide +kernel) hs⟩
/-! ### Ill-formed terms

One for each kind of check of `Instr.wf` (R59, R61, R62, R68 and the entries). -/

theorem test_wf_types : (Instr.vadd 1 2 3 0 6).wf = false ∧ (Instr.vmin 1 2 3 0 1).wf = false ∧ (Instr.vfma 1 2 3 4 0 3).wf = false
    ∧ (Instr.vmuli 1 2 3 0 6).wf = false ∧ (Instr.vcvtF32F16 1 2 0 4).wf = false ∧ (Instr.vredMinFloat 1 2 0 1).wf = false
    ∧ (Instr.vprepop 1 2 0 2).wf = false ∧ (Instr.vtopk 10 4 5 1 3).wf = false := by decide

theorem test_wf_shifts : (Instr.vshlImm 1 2 32 0 0).wf = false ∧ (Instr.vshlImm 1 2 31 0 0).wf = true ∧ (Instr.vsraImm 1 2 16 0 2).wf = false
    ∧ (Instr.vrshrImm 1 2 8 0 4).wf = false ∧ (Instr.vslideUp 1 2 32 0).wf = false ∧ (Instr.mset 3 33).wf = false
    ∧ (Instr.mset 3 32).wf = true := by decide

theorem test_wf_registers : (Instr.vtopk 11 4 5 1 0).wf = false ∧ (Instr.cpy 9).wf = false ∧ (Instr.send 10 9 0 3).wf = false
    ∧ (Instr.mbpop 0).wf = false ∧ (Instr.mbpeek 5).wf = false ∧ (Instr.sclose 23).wf = false ∧ (Instr.ssave 32 5).wf = false
    ∧ (Instr.cxnext 30 1 0 0).wf = false ∧ (Instr.cxsplit 1 1 0).wf = false ∧ (Instr.cxopenRel 4).wf = false
    ∧ (Instr.scfg 4 1 1 0).wf = false ∧ (Instr.sbind 1 0 0 1 0).wf = false ∧ (Instr.sbind 4 0 0 0 0).wf = false := by decide

theorem test_wf_codes : (Instr.amoadd 5 6 7 2 5 0 0 0 0).wf = false ∧ (Instr.amocas 5 6 7 2 8 5 0 0 0 0).wf = false
    ∧ (Instr.fence 5).wf = false ∧ (Instr.mload 5 0 1 2).wf = false ∧ (Instr.repcap 0).wf = false ∧ (Instr.repcap 17).wf = false
    ∧ (Instr.cxstat 5 1 6).wf = false ∧ (Instr.cpyqstat 5 4).wf = false ∧ (Instr.mbcnt 5 3).wf = false ∧ (Instr.getid 5 7).wf = false
    ∧ (Instr.ringstat 5 6 3).wf = false ∧ (Instr.mfs 5 5).wf = false ∧ (Instr.mts 14 5).wf = false ∧ (Instr.mfs 5 4).wf = true
    ∧ (Instr.evcrd 5 16).wf = false ∧ (Instr.movk 5 192).wf = false ∧ (Instr.cmp 6 1 2 3).wf = false := by decide

/-! ### Words of the spec's encoding examples -/

/-- R56, R58, R59: the worked bundles of chapter 3. -/
theorem test_decode_bundle : decodeBundle 0x0221040014144002 = .pair (some (.ldw 5 4 0 0 2)) (some (.vadd 2 2 1 0 0))
    ∧ decodeBundle 0xFFFFFFFB801C0000 = .long (some (.movl 7 0xFFFFFFFB))
    ∧ decodeBundle 0x00000000292FFFFD = .pair (some (.bc 2 (-3))) (decodeV 0)
    ∧ decodeBundle 0x2840C021250850FF = .pair (some (.vldb 2 5 0 (-1))) (some (.vmac2Sat 4 1 16 0 2)) := by decide +kernel

/-- Integer, compare, memory and branch words of chapters 4 and 14. -/
theorem test_decode_scalar : decodeS 0x0824A2C3 = some (.mulh 9 10 11) ∧ decodeS 0x081053D7 = some (.sext 4 5 15)
    ∧ decodeS 0x078C6064 = some (.cmpi 4 3 6 100) ∧ decodeS 0x260C823A = some (.vldx 3 8 1 0 7 2)
    ∧ decodeS 0x2C3FFFFB = some (.bmnz 3 (-5)) ∧ decodeS 0x2C200009 = some (.bmnz 2 9) := by decide +kernel

/-- Vector words of chapters 3, 5 and 8. -/
theorem test_decode_vector : decodeV 0x06308860 = some (.vfma 3 1 2 3 0 0) ∧ decodeV 0x0C231C82 = some (.vcmpLt 2 6 7 1 0)
    ∧ decodeV 0x28408821 = some (.vmac2Sat 4 1 2 0 2) ∧ decodeV 0x40518200 = some (.vslideUp 5 3 1 0)
    ∧ decodeV 0x40208240 = some (.vslideUp 2 1 1 1) ∧ decodeV 0x26421E03 = some (.vrshrImm 4 4 15 0 0)
    ∧ decodeV 0x2A9BED40 = some (.vdot4 9 23 27 2 4) ∧ decodeV 0x60305004 = some (.mset 3 20) := by decide +kernel

/-- R145, R154, R159: words of chapter 6. -/
theorem test_decode_matrix : decodeV 0x80414000 = some (.mma 1 0 1 0 1 0 0) ∧ decodeS 0x3828A2C5 = some (.mdrain 1 2 10 11)
    ∧ decodeS 0x3800C349 = some (.repgo 12 13) := by decide +kernel

/-- R170: strainer words of chapters 7 and 8, and two whose cursor fields are 4 and 16. -/
theorem test_decode_strainer : decodeS 0x37101684 = some (.cxnext 4 1 3 2) ∧ decodeS 0x37109684 = some (.cxnextW 4 1 3 2)
    ∧ decodeS 0x371084C4 = some (.cxnextW 4 0 2 3) ∧ decodeS 0x37104684 = none ∧ decodeS 0x37110684 = none := by decide +kernel

/-- R204, R225: channel and task words of chapters 10 and 11. -/
theorem test_decode_tasks : decodeS 0x34001004 = some (.unsubp 1) ∧ decodeS 0x3428B007 = some (.rdv 10 11)
    ∧ decodeS 0x3430B006 = some (.resub 12 11) ∧ decodeS 0x34146042 = some (.subscr 5 6 1) ∧ decodeS 0x43200001 = some (.fork 8 1)
    ∧ decodeS 0x45100072 = some (.dqpop 4 1 3 0 2) ∧ decodeS 0x48309003 = some (.steal 12 9 3) ∧ decodeS 0x47100005 = some (.split 4 5)
    ∧ decodeS 0x33009000 = some (.join 9) ∧ decodeS 0x33000001 = some .taskend ∧ decodeS 0x33146002 = some (.cancell 5 6)
    ∧ decodeS 0x33086003 = some (.pipebind 2 6 0) := by decide +kernel

/-- Message, atomic and fence words of chapter 13. -/
theorem test_decode_memory : decodeS 0x40209003 = some (.send 8 9 0 3) ∧ decodeS 0x40209013 = some (.send 8 9 1 3)
    ∧ decodeL 0x01300002901461D0 = some (.amoadd 5 6 7 2 2 1 1 0 2) ∧ decodeL 0x21E00000991461D8 = some (.amocas 5 6 7 3 8 3 3 0 0 0)
    ∧ decodeS 0x0E000002 = some (.fence 2) ∧ decodeS 0x0F000004 = some (.fencee 4) := by decide +kernel

/-- Copy engine, stream and Caddy words of chapter 15. -/
theorem test_decode_copy : decodeS 0x49200000 = some (.cpy 8) ∧ decodeS 0x4E20D000 = some (.mcast 8 13) ∧ decodeS 0x35006000 = some (.buffree 6)
    ∧ decodeS 0x35140081 = some (.cpyqstat 5 2) ∧ decodeS 0x32500000 = some (.mbpop 20) ∧ decodeS 0x4F200041 = some (.scfg 8 2 0 1)
    ∧ decodeS 0x50000320 = some (.sbind 3 1 0 0 0) ∧ decodeS 0x41300000 = some (.psend 12) ∧ decodeS 0x35640002 = some (.sclose 25)
    ∧ decodeS 0x51009002 = some (.wdq 9 2) := by decide +kernel

/-- R338, R339 and chapters 12 and 20: system, scan and hub words. -/
theorem test_decode_system : decodeS 0x30005007 = some (.trap 5) ∧ decodeS 0x30037008 = some (.eret 55)
    ∧ decodeS 0x310C6000 = some (.segld 3 6) ∧ decodeS 0x31005183 = some (.slotstart 5 6) ∧ decodeS 0x31246006 = some (.hubcmd 9 6)
    ∧ decodeS 0x360000C0 = some (.scngrp 0 0 3) ∧ decodeS 0x36240005 = some (.fbar 9) := by decide +kernel

/-! ### Single steps -/

/-- The state that an outcome goes on to. -/
def after (o : Out) : State :=
  match o with
  | .next t => t
  | _ => w

/-- `w` with s10 and s11 of the spec's multiplication example, and s5. -/
def wMul : State := wS fun t => { t with s := ((t.s.set 10 0xFFFFFFFFFFFFFFFD).set 11 0x4000000000000000).set 5 0x18000 }

/-- R82: chapter 4's example. -/
theorem test_mulh : (after (exec (.mulh 9 10 11) wMul)).me.rs 9 = 0xFFFFFFFFFFFFFFFF := by decide +kernel
theorem test_mulhn : (after (exec (.mulhn 9 10 11) wMul)).me.rs 9 = 0x3FFFFFFFFFFFFFFF := by decide +kernel
theorem test_sext : (after (exec (.sext 4 5 15) wMul)).me.rs 4 = 0xFFFFFFFFFFFF8000 := by decide +kernel
theorem test_movhi : (after (exec (.movhi 7 0x12345678) (wS fun t => { t with s := t.s.set 7 0x9ABCDEF0 }))).me.rs 7
    = 0x123456789ABCDEF0 := by decide +kernel
theorem test_s0 : (after (exec (.addi 0 10 1) wMul)).me.rs 0 = 0 := by decide +kernel

/-- R142: chapter 6's example. -/
theorem test_geommask : (after (exec (.geommask 3 0) (wS fun t => { t with geom := 0x037F002002001000 }))).me.rm 3 = 0x0FFFFFFF
    ∧ (after (exec (.geommask 3 1) (wS fun t => { t with geom := 0x037F002002001000 }))).me.rm 3 = 0xFFFFFFFF := by decide +kernel

/-- `w` with lanes 0 to 3 of v3 as 2^24, 1, 1 and 0 in FP32, and a mask in m1. -/
def wRed (m : W32) : State :=
  wS fun t => { t with v := t.v.set 3 (BitVec.ofNat 1024 (0x4B800000 + 0x3F800000 * 2 ^ 32 + 0x3F800000 * 2 ^ 64)), m := t.m.set 1 m }

/-- R125: chapter 5's example. -/
theorem test_vred : VReg.lane ((after (exec (.vredAddFloat 2 3 1 0) (wRed 15))).me.rv 2) 31 = 0x4B800000
    ∧ VReg.lane ((after (exec (.vredAddFloat 2 3 1 0) (wRed 14))).me.rv 2) 0 = 0x40000000 := by decide +kernel

/-- R322, R338: a slot that traps does not go on to the next bundle. -/
theorem test_trap : (after (exec (.trap 5) w)).me.st ≠ .ready := by decide +kernel

/-- R19: the least significant byte is first. -/
theorem test_stw : Memory.get (after (exec (.stw 5 0 0 0 0) wMul)).my.mem 1 = 0x80
    ∧ Memory.get (after (exec (.stw 5 0 0 0 0) wMul)).my.mem 2 = 1 := by decide +kernel
end Sys2Proof.Tests
end

section
/-! SUPPORT. Decoding what has been encoded (R58 to R68). An encoding is a sum of operands at places that do not overlap, so each field
of the word reads back its operand, and the S, V and long tables give an encoding back as its instruction. -/

namespace Sys2Proof

/-! ### Operands at places of a word -/

/-- A field by the place values of its ends. -/
theorem fld_eq (w lo n : Nat) : fld w lo n = w / 2 ^ lo % 2 ^ n := by rw [fld]

/-- A place value of a 64-bit word is a power of two. -/
theorem exists_two_pow_of_mod_eq_zero {p : Nat} (h : 2 ^ 64 % p = 0) : ∃ k, p = 2 ^ k :=
  ((Nat.dvd_prime_pow Nat.prime_two).1 (Nat.dvd_of_mod_eq_zero h)).imp fun _ h => h.2

/-- A field of an OR is the OR of the fields. -/
theorem or_place {p q : Nat} (x y : Nat) (hp : 2 ^ 64 % p = 0) (hq : 2 ^ 64 % q = 0) :
    (x ||| y) / p % q = x / p % q ||| y / p % q := by
  obtain ⟨j, rfl⟩ := exists_two_pow_of_mod_eq_zero hp
  obtain ⟨k, rfl⟩ := exists_two_pow_of_mod_eq_zero hq
  simp only [← Nat.shiftRight_eq_div_pow, Nat.shiftRight_or_distrib, Nat.or_mod_two_pow]

/-- A field holds nothing of an operand whose place is above it. -/
theorem term_above {m p q r : Nat} (v : BitVec m) (h : r % (p * q) = 0) : v.toNat * r / p % q = 0 := by
  rw [← Nat.mod_mul_right_div_self, Nat.mul_mod, h, Nat.mul_zero, Nat.zero_mod, Nat.zero_div]

/-- A field holds nothing of an operand that ends below it. -/
theorem term_below {m p q r : Nat} (v : BitVec m) (hr : 0 < r) (h : 2 ^ m * r ≤ p) : v.toNat * r / p % q = 0 := by
  rw [Nat.div_eq_of_lt ((Nat.mul_lt_mul_of_pos_right v.isLt hr).trans_le h), Nat.zero_mod]

/-- A field whose place is an operand's reads the operand. -/
theorem term_at {m p q : Nat} (v : BitVec m) (hp : 0 < p) (h : 2 ^ m ≤ q) : v.toNat * p / p % q = v.toNat := by
  rw [Nat.mul_div_cancel _ hp, Nat.mod_eq_of_lt (v.isLt.trans_le h)]

/-- Adding an operand at a free place of a word sets its bits and no others. -/
theorem add_term_eq_or {m p : Nat} (x : Nat) (v : BitVec m) (hp : 2 ^ 64 % p = 0) (h : x / p % 2 ^ m = 0) :
    x + v.toNat * p = x ||| v.toNat * p := by
  obtain ⟨k, rfl⟩ := exists_two_pow_of_mod_eq_zero hp
  have hlow : x % 2 ^ (k + m) = x % 2 ^ k := by rw [pow_add, Nat.mod_mul, h, Nat.mul_zero, Nat.add_zero]
  have hlt : x % 2 ^ k < 2 ^ k := Nat.mod_lt _ (by positivity)
  have hsplit : x = 2 ^ (k + m) * (x / 2 ^ (k + m)) + x % 2 ^ k := by rw [← hlow, Nat.div_add_mod]
  have hterm : 2 ^ k * v.toNat + x % 2 ^ k < 2 ^ (k + m) := by
    calc 2 ^ k * v.toNat + x % 2 ^ k < 2 ^ k * (v.toNat + 1) := by rw [Nat.mul_add, Nat.mul_one]; omega
      _ ≤ 2 ^ (k + m) := by rw [pow_add]; exact Nat.mul_le_mul_left _ v.isLt
  generalize x / 2 ^ (k + m) = a at hsplit
  generalize x % 2 ^ k = b at hsplit hlt hterm
  subst hsplit
  have hb : b < 2 ^ (k + m) := hlt.trans_le (Nat.pow_le_pow_right (by decide) (Nat.le_add_right k m))
  rw [Nat.add_assoc, Nat.add_comm b, Nat.mul_comm v.toNat, Nat.two_pow_add_eq_or_of_lt hterm, Nat.two_pow_add_eq_or_of_lt hlt,
    Nat.two_pow_add_eq_or_of_lt hb, Nat.or_assoc, Nat.or_comm b]

/-- The same of an operand at the word's lowest place. -/
theorem add_toNat_eq_or {m : Nat} (x : Nat) (v : BitVec m) (h : x / 1 % 2 ^ m = 0) : x + v.toNat = x ||| v.toNat * 1 := by
  rw [← add_term_eq_or x v (by decide) h, Nat.mul_one]

/-- An operand of one bit is not 2, which in its field is the code of another form. -/
theorem toNat_ne_two (v : BitVec 1) : v.toNat ≠ 2 := by omega

/-! ### The S tables (R64, R65) -/

theorem readS_of_mctl (w : Nat) (h : fld w 24 8 = 0x38) : readS w = readMctl w := by simp only [readS, h]
theorem readS_of_cx (w : Nat) (h : fld w 24 8 = 0x37) : readS w = readCx w := by simp only [readS, h]
theorem readS_of_scan (w : Nat) (h : fld w 24 8 = 0x36) : readS w = readScan w := by simp only [readS, h]
theorem readS_of_xfer (w : Nat) (h : fld w 24 8 = 0x35) : readS w = readXfer w := by simp only [readS, h]
theorem readS_of_chan (w : Nat) (h : fld w 24 8 = 0x34) : readS w = readChan w := by simp only [readS, h]
theorem readS_of_task (w : Nat) (h : fld w 24 8 = 0x33) : readS w = readTask w := by simp only [readS, h]
theorem readS_of_mbox (w : Nat) (h : fld w 24 8 = 0x32) : readS w = readMbox w := by simp only [readS, h]
theorem readS_of_priv (w : Nat) (h : fld w 24 8 = 0x31) : readS w = readPriv w := by simp only [readS, h]
theorem readS_of_sys (w : Nat) (h : fld w 24 8 = 0x30) : readS w = readSys w := by simp only [readS, h]
theorem readS_of_ctrl (w : Nat) (h : fld w 24 8 = 0x2E) : readS w = readCtrl w := by simp only [readS, h]
theorem readS_of_pred (w : Nat) (h : fld w 24 8 = 0x0B) : readS w = readPred w := by simp only [readS, h]
theorem readS_of_idiv (w : Nat) (h : fld w 24 8 = 0x09) : readS w = readIdiv w := by simp only [readS, h]
theorem readS_of_int (w : Nat) (h : fld w 24 8 = 0x08) : readS w = readInt w := by simp only [readS, h]

/-- The fn values 0x20 to 0x27 of the integer major are SEL's (R65). -/
theorem readInt_sel (w : Nat) (h : fld w 3 3 = 4) :
    readInt w = some (.sel (bits w 18 6) (bits w 12 6) (bits w 6 6) (bits w 0 3)) := by
  have hfn : 32 ≤ fld w 0 6 := by unfold fld at *; omega
  unfold readInt
  split
  case h_26 => rw [if_pos h]
  all_goals omega

/-- The S syllables that access memory, and the branches with a major of their own (R64). -/
def Instr.onMemory : Instr → Bool
  | .call .. | .bmnz .. | .bmz .. | .bnc .. | .bc .. | .br .. | .vstx .. | .vldx .. | .vldb .. | .vst .. | .vld ..
  | .fetest .. | .feclr .. | .feset .. | .lea .. | .stwfill .. | .ldwtake .. | .ldwsync .. | .std .. | .stw ..
  | .sth .. | .stb .. | .ldd .. | .ldws .. | .ldw .. | .ldhs .. | .ldh .. | .ldbs .. | .ldb .. | .fencee ..
  | .fence .. => true
  | _ => false

/-- The other S syllables with a major of their own: of messages, tasks and copies, and with an immediate operand (R64); and
SEL, whose fn field holds an operand (R65). -/
def Instr.ownMajor : Instr → Bool
  | .wdq .. | .sbind .. | .scfg .. | .mcast .. | .cpyt .. | .cpys .. | .cpyg .. | .cpyw .. | .cpy .. | .steal ..
  | .split .. | .dqpushr .. | .dqpop .. | .forkd .. | .fork .. | .psende .. | .psend .. | .send .. | .movtk ..
  | .movk .. | .cmp .. | .sel .. | .cmpi .. | .srai .. | .shri .. | .shli .. | .xori .. | .ori .. | .andi ..
  | .addi .. => true
  | _ => false

/-- The S syllables that compute in registers under an fn value (R65). -/
def Instr.onRegisters : Instr → Bool
  | .pand .. | .por .. | .pxor .. | .ptos .. | .stop .. | .mtos .. | .stom .. | .vmovs .. | .smovv .. | .div ..
  | .divn .. | .rem .. | .remn .. | .add .. | .sub .. | .mul .. | .mulh .. | .mulhn .. | .and .. | .or .. | .xor ..
  | .andn .. | .shl .. | .shr .. | .sra .. | .rotr .. | .min .. | .max .. | .minn .. | .maxn .. | .clz .. | .ctz ..
  | .popc .. | .brev .. | .bext .. | .bdep .. | .sext .. | .zext .. => true
  | _ => false

/-- The S tables read back an access or a branch. -/
theorem readS_encode_of_onMemory (i : Instr) (h : i.onMemory = true) : readS (encode i) = some i := by
  cases i <;> cases h <;>
  · delta encode
    simp only [readS, fld_eq, bits, add_term_eq_or, add_toNat_eq_or, or_place, term_above, term_below, term_at,
      Nat.reducePow, Nat.reduceMod, Nat.reduceDiv, Nat.reduceMul, Nat.reduceLeDiff, Nat.reduceLT, Nat.zero_or, Nat.or_zero,
      BitVec.ofNat_toNat, BitVec.setWidth_eq]

/-- The S tables read back a syllable with a major of its own. -/
theorem readS_encode_of_ownMajor (i : Instr) (h : i.ownMajor = true) : readS (encode i) = some i := by
  cases i <;> cases h <;>
  · delta encode
    simp only [readS, readInt_sel, fld_eq, bits, add_term_eq_or, add_toNat_eq_or, or_place, term_above, term_below, term_at,
      Nat.reducePow, Nat.reduceMod, Nat.reduceDiv, Nat.reduceMul, Nat.reduceLeDiff, Nat.reduceLT, Nat.zero_or, Nat.or_zero,
      Nat.zero_div, Nat.zero_mod, BitVec.ofNat_toNat, BitVec.setWidth_eq]

/-- The S tables read back an operation on registers. -/
theorem readS_encode_of_onRegisters (i : Instr) (h : i.onRegisters = true) : readS (encode i) = some i := by
  cases i <;> cases h <;>
  · delta encode
    simp only [readS_of_pred, readS_of_idiv, readS_of_int, readPred, readIdiv, readInt, fld_eq, bits, add_term_eq_or,
      or_place, term_above, term_below, term_at, Nat.reducePow, Nat.reduceMod, Nat.reduceDiv, Nat.reduceMul,
      Nat.reduceLeDiff, Nat.reduceLT, Nat.zero_or, Nat.or_zero, BitVec.ofNat_toNat, BitVec.setWidth_eq]

/-- The S tables read back the syllables that are left: those of units, channels and the system, each under an fn value (R65). -/
theorem readS_encode_of_onUnits (i : Instr) (h : i.kind = .short) (hm : i.onMemory = false) (ho : i.ownMajor = false)
    (hr : i.onRegisters = false) : readS (encode i) = some i := by
  cases i <;> cases h <;> cases hm <;> cases ho <;> cases hr <;>
  · delta encode
    simp only [readS_of_mctl, readS_of_cx, readS_of_scan, readS_of_xfer, readS_of_chan, readS_of_task, readS_of_mbox,
      readS_of_priv, readS_of_sys, readS_of_ctrl, readMctl, readCx, readScan, readXfer, readChan, readTask, readMbox,
      readPriv, readSys, readCtrl, fld_eq, bits, add_term_eq_or, or_place, term_above, term_below, term_at, Nat.reducePow,
      Nat.reduceMod, Nat.reduceDiv, Nat.reduceMul, Nat.reduceLeDiff, Nat.reduceLT, Nat.reduceEqDiff, Nat.zero_or,
      Nat.or_zero, toNat_ne_two, BitVec.ofNat_toNat, BitVec.setWidth_eq, ↓reduceIte]

/-- What the S tables read from an S syllable's encoding is that instruction (R64, R65). -/
theorem readS_encode (i : Instr) (h : i.kind = .short) : readS (encode i) = some i := by
  cases hm : i.onMemory with
  | true => exact readS_encode_of_onMemory i hm
  | false =>
    cases ho : i.ownMajor with
    | true => exact readS_encode_of_ownMajor i ho
    | false =>
      cases hr : i.onRegisters with
      | true => exact readS_encode_of_onRegisters i hr
      | false => exact readS_encode_of_onUnits i h hm ho hr

/-! ### The V table (R67) -/

/-- The V syllables on floating-point elements: majors 0x00 to 0x08 (R67). -/
def Instr.onFloats : Instr → Bool
  | .vnop | .vadd .. | .vsub .. | .vmul .. | .vmin .. | .vmax .. | .vabs .. | .vneg .. | .vclass .. | .vrndi ..
  | .vaddScalar .. | .vsubScalar .. | .vmulScalar .. | .vfma .. | .vfms .. | .vfnma .. | .vcmpEq .. | .vcmpNe ..
  | .vcmpLt .. | .vcmpLe .. | .vcmpUn .. | .vcmpOr .. | .vcvtF16F32 .. | .vcvtBf16F32 .. | .vcvtF32F16 ..
  | .vcvtF32Bf16 .. | .vcvtI32F32 .. | .vcvtN32F32 .. | .vcvtF32I32 .. | .vcvtF32N32 .. | .vrcp .. | .vrsq ..
  | .vexp2 .. | .vlog2 .. | .vtanh .. | .vsig .. => true
  | _ => false

/-- The V syllables on integer elements: majors 0x10 to 0x19 (R67). -/
def Instr.onIntegers : Instr → Bool
  | .vaddi .. | .vsubi .. | .vmuli .. | .vmulhi .. | .vmini .. | .vmaxi .. | .vabsdi .. | .vand .. | .vor ..
  | .vxor .. | .vnot .. | .vshl .. | .vshr .. | .vsra .. | .vrshr .. | .vaddiSat .. | .vsubiSat .. | .vaddiScalar ..
  | .vsubiScalar .. | .vmuliScalar .. | .vminiScalar .. | .vmaxiScalar .. | .vshlImm .. | .vshrImm .. | .vsraImm ..
  | .vrshrImm .. | .vmac2 .. | .vmac2Sat .. | .vdot4 .. | .vdot4Sat .. | .vsatn .. | .vwidenLo .. | .vwidenHi ..
  | .vcmpiEq .. | .vcmpiNe .. | .vcmpiLt .. | .vcmpiLe .. | .vpopc .. | .vprepop .. | .vclz .. => true
  | _ => false

/-- The V table reads back an operation on floating-point elements. -/
theorem readV_encode_of_onFloats (i : Instr) (h : i.onFloats = true) : readV (encode i) = some i := by
  cases i <;> cases h <;>
  · delta encode
    simp only [readV, fld_eq, bits, add_term_eq_or, add_toNat_eq_or, or_place, term_above, term_below, term_at,
      Nat.reducePow, Nat.reduceMod, Nat.reduceDiv, Nat.reduceMul, Nat.reduceLeDiff, Nat.reduceLT, Nat.zero_or, Nat.or_zero,
      Nat.zero_div, Nat.zero_mod, BitVec.ofNat_toNat, BitVec.setWidth_eq]

/-- The V table reads back an operation on integer elements. -/
theorem readV_encode_of_onIntegers (i : Instr) (h : i.onIntegers = true) : readV (encode i) = some i := by
  cases i <;> cases h <;>
  · delta encode
    simp only [readV, fld_eq, bits, add_term_eq_or, or_place, term_above, term_below, term_at, Nat.reducePow, Nat.reduceMod,
      Nat.reduceDiv, Nat.reduceMul, Nat.reduceLeDiff, Nat.reduceLT, Nat.zero_or, Nat.or_zero, BitVec.ofNat_toNat,
      BitVec.setWidth_eq, ↓reduceIte]

/-- The V table reads back the syllables that are left: moves across lanes, reductions, quantisation, masks and MMA. -/
theorem readV_encode_of_onLanes (i : Instr) (h : i.kind = .vector) (hf : i.onFloats = false) (hi : i.onIntegers = false) :
    readV (encode i) = some i := by
  cases i <;> cases h <;> cases hf <;> cases hi <;>
  · delta encode
    simp only [readV, fld_eq, bits, add_term_eq_or, or_place, term_above, term_below, term_at, Nat.reducePow, Nat.reduceMod,
      Nat.reduceDiv, Nat.reduceMul, Nat.reduceLeDiff, Nat.reduceLT, Nat.zero_or, Nat.or_zero, BitVec.ofNat_toNat,
      BitVec.setWidth_eq, ↓reduceIte]

/-- What the V table reads from a V syllable's encoding is that instruction (R67). -/
theorem readV_encode (i : Instr) (h : i.kind = .vector) : readV (encode i) = some i := by
  cases hf : i.onFloats with
  | true => exact readV_encode_of_onFloats i hf
  | false =>
    cases hi : i.onIntegers with
    | true => exact readV_encode_of_onIntegers i hi
    | false => exact readV_encode_of_onLanes i h hf hi

/-! ### The long table (R66) -/

/-- What the long table reads from a long form's encoding is that instruction (R66). -/
theorem readL_encode (i : Instr) (h : i.kind = .long) : readL (encode i) = some i := by
  cases i <;> cases h <;>
  · delta encode
    simp only [readL, fld_eq, bits, add_term_eq_or, or_place, term_above, term_below, term_at, Nat.reducePow, Nat.reduceMod,
      Nat.reduceDiv, Nat.reduceMul, Nat.reduceLeDiff, Nat.reduceLT, Nat.zero_or, Nat.or_zero, Nat.zero_mod,
      BitVec.ofNat_toNat, BitVec.setWidth_eq]

/-! ### Decoding -/

/-- A word decodes to exactly what is read from it, where its encoding is the word and its fields are allowed (R68). -/
theorem exactly_eq_some_iff (w : Nat) (r : Option Instr) (i : Instr) :
    exactly w r = some i ↔ r = some i ∧ encode i = w ∧ i.wf = true := by
  cases r with
  | none => simp [exactly]
  | some j =>
    simp only [exactly, Bool.and_eq_true, decide_eq_true_eq, Option.ite_none_right_eq_some, Option.some.injEq]
    constructor
    · rintro ⟨hw, rfl⟩; exact ⟨rfl, hw⟩
    · rintro ⟨rfl, hw⟩; exact ⟨hw, rfl⟩

/-- An S syllable decodes from its encoding. -/
theorem decodeS_of_encode {w : Nat} {i : Instr} (hk : i.kind = .short) (hw : encode i = w) (hf : i.wf = true) : decodeS w = some i :=
  (exactly_eq_some_iff ..).2 ⟨hw ▸ readS_encode i hk, hw, hf⟩

/-- A V syllable decodes from its encoding. -/
theorem decodeV_of_encode {w : Nat} {i : Instr} (hk : i.kind = .vector) (hw : encode i = w) (hf : i.wf = true) : decodeV w = some i :=
  (exactly_eq_some_iff ..).2 ⟨hw ▸ readV_encode i hk, hw, hf⟩

/-- A long form decodes from its encoding. -/
theorem decodeL_of_encode {w : Nat} {i : Instr} (hk : i.kind = .long) (hw : encode i = w) (hf : i.wf = true) : decodeL w = some i :=
  (exactly_eq_some_iff ..).2 ⟨hw ▸ readL_encode i hk, hw, hf⟩

/-- A bundle without L decodes as its two syllables (R56). -/
theorem decodeBundle_pair {w : Nat} {si vi : Option Instr} (hl : fld w 31 1 = 0) (hs : decodeS (fld w 0 32) = si)
    (hv : decodeV (fld w 32 32) = vi) : decodeBundle w = .pair si vi := by
  rw [decodeBundle, if_neg (by omega), hs, hv]

/-- Settles O55: each table reads an encoding back as its instruction, and decoding accepts no other word. -/
theorem decodeAndEncodeAgree : Obligations.DecodeAndEncodeAgree := by
  refine ⟨fun i hf => ⟨fun hk => decodeS_of_encode hk rfl hf, fun hk => decodeV_of_encode hk rfl hf,
    fun hk => decodeL_of_encode hk rfl hf⟩, fun w i h => ?_⟩
  rcases h with h | h | h <;> exact ((exactly_eq_some_iff ..).1 h).2

/-- Settles O56: each word is the encoding of its instruction. -/
theorem decodedWords : Obligations.DecodedWords :=
  ⟨decodeS_of_encode rfl rfl rfl, decodeS_of_encode rfl rfl rfl, decodeS_of_encode rfl rfl rfl, decodeV_of_encode rfl rfl rfl,
    decodeV_of_encode rfl rfl rfl, decodeL_of_encode rfl rfl rfl,
    decodeBundle_pair rfl (decodeS_of_encode rfl rfl rfl) (decodeV_of_encode rfl rfl rfl)⟩

end Sys2Proof
end

section
/-! SUPPORT. Steps: every instruction answers a next state, a step fails only on an event of a unit that the package does not have, and a
core's turn comes to the instruction that its bundle holds (R56, R57, R71, R196). -/

namespace Sys2Proof.Machine

/-! ### Every instruction answers -/

/-- An instruction answers a next state: an S syllable and a V syllable come to the end of their bundle, and a step of a unit, the hub,
the host or the controller is a function of the state. -/
theorem exec_goes (i : Instr) (s : State) : Goes (exec i s) := by
  cases i <;> exact ⟨_, rfl⟩

/-- The outcome of a step that goes on still does after a change of its next state. -/
theorem onNext_goes {o : Out} (f : State → State) (h : Goes o) : Goes (onNext o f) := by
  obtain ⟨t, rfl⟩ := h
  exact ⟨f t, rfl⟩

/-- A word that a slot has fetched runs to a next state. -/
theorem runFetched_goes (s : State) (w : Nat) : Goes (s.runFetched w) := by
  unfold State.runFetched
  split
  · split
    · exact ⟨_, rfl⟩
    · exact exec_goes _ s
  · exact ⟨_, rfl⟩

/-- A slot's own bundle goes on: it traps at its fetch, loses its contest, or runs. -/
theorem issueOwn_goes (s : State) (c i : Nat) (donated : Bool) : Goes (s.issueOwn c i donated) := by
  unfold State.issueOwn
  dsimp only
  split
  · exact ⟨_, rfl⟩
  · split
    · exact ⟨_, rfl⟩
    · exact onNext_goes _ (runFetched_goes ..)

/-- A core's cycle goes on. -/
theorem issueCore_goes (s : State) (c : Nat) : Goes (s.issueCore c) := by
  unfold State.issueCore
  dsimp only
  split
  · exact ⟨_, rfl⟩
  · split
    · exact ⟨_, rfl⟩
    · split <;> exact ⟨_, rfl⟩
    · split
      · exact onNext_goes _ (exec_goes ..)
      · exact issueOwn_goes ..

/-- A step that an event begins fails only where the event names what the package does not have. -/
theorem take_goes_or_fault (s : State) (e : Event) : Goes (s.take e) ∨ (s.take e = .fault .noSuchUnit ∧ eventOk e = false) := by
  unfold State.take
  cases h : eventOk e with
  | true => exact .inl (exec_goes ..)
  | false => exact .inr ⟨rfl, rfl⟩

/-- An event that has come about begins a step, or waits on its link. -/
theorem takeDue_goes_or_fault (s : State) (e : Event) :
    Goes (s.takeDue e) ∨ (s.takeDue e = .fault .noSuchUnit ∧ eventOk e = false) := by
  unfold State.takeDue
  split
  · exact .inl ⟨_, rfl⟩
  · exact take_goes_or_fault s e

/-- A step that a cycle's end takes is a unit's, of those that are due before or behind its services, or the next cycle begins. -/
theorem closeCycle_goes_or_fault (s : State) :
    Goes s.closeCycle ∨ (s.closeCycle = .fault .noSuchUnit ∧
      ∃ e, (s.takers.poll = some e ∨ s.takers.services.poll = some e ∨ s.takers.services.pollBank = some e)
        ∧ eventOk e = false) := by
  unfold State.closeCycle
  dsimp only
  cases hp : s.takers.poll with
  | some e => exact (take_goes_or_fault s.takers e).imp_right fun ⟨hf, he⟩ => ⟨hf, e, .inl rfl, he⟩
  | none =>
    cases hq : s.takers.services.poll with
    | some e =>
      exact (take_goes_or_fault s.takers.services e).imp_right fun ⟨hf, he⟩ => ⟨hf, e, .inr (.inl rfl), he⟩
    | none =>
      cases hb : s.takers.services.pollBank with
      | some e =>
        exact (take_goes_or_fault s.takers.services e).imp_right fun ⟨hf, he⟩ => ⟨hf, e, .inr (.inr rfl), he⟩
      | none => exact .inl ⟨_, rfl⟩

/-- Settles O58: a step is an event's, a core's issue or the end of a cycle, and only an event can name an unknown unit. -/
theorem everyInstructionAnswers : Obligations.EveryInstructionAnswers := by
  refine ⟨exec_goes, fun s => ?_⟩
  unfold step State.advance
  split
  case h_1 e l he =>
    exact (take_goes_or_fault _ e).imp_right fun ⟨hf, hn⟩ => ⟨hf, .inl ⟨e, l, he, hn⟩⟩
  case h_2 => exact .inl (issueCore_goes ..)
  case h_3 =>
    split
    case h_1 t e l ha =>
      split
      case isTrue ht =>
        exact (takeDue_goes_or_fault _ e).imp_right fun ⟨hf, hn⟩ => ⟨hf, .inr (.inl ⟨t, e, l, ha, ht, hn⟩)⟩
      case isFalse => exact (closeCycle_goes_or_fault s).imp_right fun ⟨hf, h⟩ => ⟨hf, .inr (.inr h)⟩
    case h_2 => exact (closeCycle_goes_or_fault s).imp_right fun ⟨hf, h⟩ => ⟨hf, .inr (.inr h)⟩

/-! ### Fetching a bundle's word -/

/-- Counting a correction leaves the cores as they are. -/
theorem core_corrected (s : State) (n c : Nat) : (s.corrected n).core c = s.core c := by
  unfold State.core
  rw [State.corrected_cores]

/-- Reading a local store leaves the executing slot's name as it is. -/
theorem touch_cur (s : State) (c a n : Nat) : (s.touch c a n).cur = s.cur := by
  unfold State.touch
  split
  · rfl
  · simp

/-- The correction of single-bit errors leaves every byte as it reads (R20). -/
theorem mem_touch (s : State) (c a n k : Nat) : ((s.touch c a n).core k).mem = (s.core k).mem := by
  unfold State.touch
  split
  · rfl
  · simp only [core_corrected]
    by_cases hk : k = c
    · subst hk; simp [core_modCore_same]
    · rw [core_modCore_other s hk]

/-- The word of a bundle is the one that stands at its address, whatever its fetch corrects (R20, R57). -/
theorem wordAtPc_touch (s : State) (c a n b : Nat) : (s.touch c a n).wordAtPc b = Memory.read s.my.mem b 8 := by
  unfold State.wordAtPc Core.rd State.my
  rw [touch_cur, mem_touch]

/-- A word that holds one instruction, of a slot that does not publish, runs that instruction (R56, R202). -/
theorem runFetched_sole (s : State) (w : Nat) {i : Instr} (hp : s.me.pub = false) (hi : soleInstr (decodeBundle w) = some i) :
    s.runFetched w = exec i s := by
  unfold State.runFetched
  rw [hi]
  simp [hp]

/-- A core whose turn has come issues, where no early step is due. -/
theorem step_turn (s : State) {c : Nat} {l : List Nat} (he : s.early = []) (ht : s.turn = c :: l) :
    step s = State.issueCore { s with turn := l } c := by
  unfold step State.advance
  rw [he, ht]

/-- A core that runs and selects a slot's own bundle issues it; slot 14's where no built-in request waits (R196, R264). -/
theorem issueCore_own (s : State) {c i : Nat} {donated : Bool} (hb : (s.core c).banked = false) (hr : (s.core c).restart = none)
    (hp : s.pick c = some ⟨i, none, donated⟩) (hn : i ≠ 14 ∨ (s.core c).netq = []) :
    s.issueCore c = s.issueOwn c i donated := by
  unfold State.issueCore
  have hq : (i = 14 && !(s.core c).netq.isEmpty) = false := by rcases hn with h | h <;> simp [h]
  simp [hb, hr, hp, hq]

/-- A slot's own bundle that is fetched and wins its contest runs its word, and what its issue keeps follows (R57, R161, R196). -/
theorem issueOwn_fetched (s : State) {c i a : Nat} {donated : Bool} {r : State} (hf : (s.atSlot c i).fetchAt = .ok a)
    (hc : ((s.atSlot c i).touch c a 8).contest c i (Memory.read (s.atSlot c i).my.mem a 8) false = some r) :
    let w := Memory.read (s.atSlot c i).my.mem a 8
    s.issueOwn c i donated
      = onNext (r.runFetched w) fun t => ((r.charge t c (some a) (instrsOf w)).tally c i donated).sharePipe c i w := by
  unfold State.issueOwn
  simp only [hf, wordAtPc_touch, hc]

/-- Settles O57: the turn, the pick, the fetch and the contest, one after the other. -/
theorem stepRunsTheDecoded : Obligations.StepRunsTheDecoded := by
  intro s r c i a l donated ins he ht hb hr q p w hp hn hf hc hpub hi
  rw [step_turn s he ht, issueCore_own q hb hr hp hn, issueOwn_fetched q hf hc, runFetched_sole r w hpub hi]

end Sys2Proof.Machine
end

section
/-! SUPPORT. Compares, predicate operations and the moves between kinds of registers (R64, R89, R90, R101). -/

namespace Sys2Proof.Machine

/-! ### Packed elements -/

/-- `n` packed elements of width `w` lie below bit `w * n`. -/
theorem packN_lt (w : Nat) (f : Nat → Nat) (n : Nat) : packN w f n < 2 ^ (w * n) := by
  induction n with
  | zero => simp [packN]
  | succ n ih =>
    have hd : f n % 2 ^ w + 1 ≤ 2 ^ w := Nat.mod_lt _ (by positivity)
    calc packN w f n + f n % 2 ^ w * 2 ^ (w * n) < (f n % 2 ^ w + 1) * 2 ^ (w * n) := by rw [Nat.add_mul]; omega
      _ ≤ 2 ^ w * 2 ^ (w * n) := Nat.mul_le_mul_right _ hd
      _ = 2 ^ (w * (n + 1)) := by rw [← pow_add, Nat.mul_add, Nat.mul_one, Nat.add_comm]

/-- A word with room for packed elements holds them. -/
theorem toNat_ofNat_packN (f : Nat → Nat) {w n k : Nat} (h : w * n ≤ k) :
    (BitVec.ofNat k (packN w f n)).toNat = packN w f n := by
  rw [BitVec.toNat_ofNat, Nat.mod_eq_of_lt ((packN_lt w f n).trans_le (Nat.pow_le_pow_right Nat.two_pos h))]

/-- A packed element reads as it was packed, modulo its width. -/
theorem packN_elem (w : Nat) (f : Nat → Nat) {n j : Nat} (h : j < n) : packN w f n / 2 ^ (w * j) % 2 ^ w = f j % 2 ^ w := by
  induction n with
  | zero => omega
  | succ n ih =>
    rw [packN]
    rcases Nat.lt_or_ge j n with hj | hj
    · have hsplit : 2 ^ (w * n) = 2 ^ (w * j) * (2 ^ w * 2 ^ (w * (n - j - 1))) := by
        rw [← pow_add, ← pow_add]
        congr 1
        obtain ⟨k, rfl⟩ : ∃ k, n = j + 1 + k := ⟨n - j - 1, by omega⟩
        rw [show j + 1 + k - j - 1 = k by omega]; ring
      rw [hsplit, Nat.mul_left_comm, Nat.add_mul_div_left _ _ (by positivity), Nat.mul_left_comm, Nat.add_mul_mod_self_left, ih hj]
    · obtain rfl : j = n := by omega
      rw [Nat.add_mul_div_right _ _ (by positivity), Nat.div_eq_of_lt (packN_lt w f j), Nat.zero_add, Nat.mod_mod]

/-- An element of a vector register that is made of elements (R31). -/
theorem elem_ofElems {w : Nat} (f : Nat → Nat) {j : Nat} (h : j < 1024 / w) : VReg.elem (VReg.ofElems w f) w j = f j % 2 ^ w := by
  rw [VReg.elem, VReg.ofElems, toNat_ofNat_packN f (Nat.mul_div_le 1024 w), packN_elem w f h]

/-- An element is a number of its width. -/
theorem elem_mod (v : VReg) (w j : Nat) : VReg.elem v w j % 2 ^ w = VReg.elem v w j := Nat.mod_mod ..

/-- PTOS reads the eight predicates, one to a bit (R90). -/
theorem preds_eq (t : Slot) : t.preds = BitVec.ofNat 64 (packN 1 (fun j => (t.rp j).toNat) 8) := by
  have hlt : packN 1 (fun j => (t.rp j).toNat) 8 < 2 ^ 8 := packN_lt 1 _ 8
  refine BitVec.eq_of_getLsbD_eq fun j hj => ?_
  rw [BitVec.getLsbD_ofNat, Slot.preds]
  rcases Nat.lt_or_ge j 8 with h | h
  · have he := packN_elem 1 (fun j => (t.rp j).toNat) h
    rw [Nat.testBit_eq_decide_div_mod_eq]
    simp only [Nat.one_mul, pow_one] at he
    rw [he]
    have hr : (t.rp j).toNat % 2 = 1 ↔ t.rp j = true := by cases t.rp j <;> decide
    simp only [hr, Bool.decide_eq_true]
    cases j <;> simp [Slot.rp, hj]
  · rw [Nat.testBit_lt_two_pow (hlt.trans_le (Nat.pow_le_pow_right (by decide) h))]
    have h0 : j ≠ 0 := by omega
    simp [h0, BitVec.getLsbD_of_ge t.p j h]

/-! ### Compares, predicates and moves (R89, R90, R101) -/

/-- The conditions of a compare, told by the values (R64). -/
theorem condS_eq (c : BitVec 3) (x y : W64) (h : c.toNat ≤ 5) :
    condS c.toNat x y
      = if c = 0 then decide (x = y) else if c = 1 then decide (x ≠ y) else if c = 2 then decide (x.toInt < y.toInt)
        else if c = 3 then decide (x.toInt ≥ y.toInt) else if c = 4 then decide (x.toNat < y.toNat)
        else decide (x.toNat ≥ y.toNat) := by
  obtain ⟨⟨k, hk⟩⟩ := c
  change k ≤ 5 at h
  rw [Bool.eq_iff_iff]
  interval_cases k <;> simp [condS, BitVec.slt, BitVec.ult]

/-- A capture changes the sequencer alone: the streams stay bound as they are (R158, R306). -/
theorem capture_bound (s : State) (w : W32) (c k r : Nat) : (s.capture w).bound c k r = s.bound c k r := by
  have hsu : ((s.capture w).core c).su = (s.core c).su := by
    unfold State.capture
    split
    · by_cases hc : c = s.cur.1
      · subst hc; simp [State.modMy, core_modCore_same]
      · simp [State.modMy, core_modCore_other s hc]
    · rfl
  simp only [State.bound, hsu]

/-- Operands that are no streams neither trap nor wait, and no strip is popped (R69, R91). -/
theorem withOperands_plain (s cur : State) (srcs dst both : List Nat) (act : Bool) (k : State → Res)
    (h : s.plain (srcs ++ dst ++ both)) : withOperands s cur srcs dst both act none k = k cur := by
  have hs : srcs.eraseDups.filterMap (srcPop s act) = [] := by
    refine List.filterMap_eq_nil_iff.2 fun r hr => ?_
    simp [srcPop, h r (by simp [List.mem_eraseDups.1 hr])]
  have hd (both' : Bool) (l : List Nat) (hl : ∀ r ∈ l, r ∈ srcs ++ dst ++ both) : l.filterMap (dstCheck s act both') = [] := by
    refine List.filterMap_eq_nil_iff.2 fun r hr => ?_
    simp [dstCheck, h r (hl r hr)]
  simp [withOperands, hs, hd false dst (by simp +contextual), hd true both (by simp +contextual), minTrap]

/-- The value of a source that is no stream is its register's (R22). -/
theorem srcVal_plain (s : State) (act : Bool) (r : Nat) (h : s.bound s.cur.1 s.cur.2 r = none) : srcVal s act r = s.me.rv r := by
  simp [srcVal, srcPop, h]

/-- An S syllable that changes nothing but its slot goes on behind its bundle (R57). -/
theorem exec_of_modMe {i : Instr} {k : State → Res} {s : State} (f : Slot → Slot) (h : s.Able) (hx : exec i s = s.aloneS k)
    (hk : k (s.capture 0) = .ok ((s.capture 0).modMe f)) (hp : (f s.me).pc = s.me.pc) :
    exec i s = .next ((s.capture 0).put (f s.me)) := by
  have ha : (s.capture 0).Able := (capture_able s 0).2 h
  have hp' : (f (s.capture 0).me).pc = (s.capture 0).me.pc := by rwa [capture_me]
  rw [hx, aloneS_ok s _ k hk (by simpa using ha), me_modMe _ ha, put_modMe _ ha _ _ hp', capture_me]

/-- An S syllable that writes a scalar register. -/
theorem sgoes_ws {i : Instr} {ok : State → Prop} {k : State → Res} (d : Nat) (x : State → W64)
    (hx : ∀ s, exec i s = s.aloneS k) (hk : ∀ s, ok s → k (s.capture 0) = .ok ((s.capture 0).ws d (x (s.capture 0)))) :
    SGoes i ok fun s => s.put (s.me.ws d (x s)) := by
  intro _ s hs ho
  have := exec_of_modMe (fun t => t.ws d (x (s.capture 0))) hs (hx s) (hk s ho) (Slot.ws_pc ..)
  rwa [← capture_me s 0] at this

/-- An S syllable that writes a predicate. -/
theorem sgoes_wp {i : Instr} (p : Nat) (x : State → Bool) (hx : ∀ s, exec i s = s.aloneS fun u => .ok (u.wp p (x u))) :
    SGoes i always fun s => s.put (s.me.wp p (x s)) := by
  intro _ s hs _
  have := exec_of_modMe (fun t => t.wp p (x (s.capture 0))) hs (hx s) rfl (Slot.wp_pc ..)
  rwa [← capture_me s 0] at this

/-- An S syllable that writes a mask. -/
theorem sgoes_wm {i : Instr} (m : Nat) (x : State → W32) (hx : ∀ s, exec i s = s.aloneS fun u => .ok (u.wm m (x u))) :
    SGoes i always fun s => s.put (s.me.wm m (x s)) := by
  intro _ s hs _
  have := exec_of_modMe (fun t => t.wm m (x (s.capture 0))) hs (hx s) rfl (Slot.wm_pc ..)
  rwa [← capture_me s 0] at this

/-- A compare writes the predicate with its condition (R89). -/
theorem sgoes_cmp (c p : BitVec 3) (a b : BitVec 6) :
    SGoes (.cmp c p a b) always fun s => s.put (s.me.wp p.toNat (condS c.toNat (s.rs a.toNat) (s.rs b.toNat))) :=
  sgoes_wp _ _ fun _ => rfl

/-- A compare with an immediate operand (R89). -/
theorem sgoes_cmpi (c p : BitVec 3) (a : BitVec 6) (imm : BitVec 12) :
    SGoes (.cmpi c p a imm) always fun s => s.put (s.me.wp p.toNat (condS c.toNat (s.rs a.toNat) (imm.signExtend 64))) :=
  sgoes_wp _ _ fun _ => rfl

/-- PTOS reads the predicates (R90). -/
theorem sgoes_ptos (d : BitVec 6) : SGoes (.ptos d) always fun s => s.put (s.me.ws d.toNat s.me.preds) :=
  sgoes_ws _ _ (fun _ => rfl) fun _ _ => rfl

/-- MOVTK writes a constant of the core (R101). -/
theorem sgoes_movtk (a : BitVec 6) (k : BitVec 12) : SGoes (.movtk a k) always fun s =>
    s.wentOn { s.my with k := vset s.my.k k.toNat (s.rs a.toNat) } (s.me.next s.me.pc) := by
  intro _ s hs _
  have ha : (s.capture 0).Able := (capture_able s 0).2 hs
  exact (aloneS_ok s _ (semMovtk a k) rfl ha).trans (congrArg _ (put_modMy ..))

/-- VMOVS reads a lane of a register that is no stream (R90). -/
theorem sgoes_vmovs (d b : BitVec 6) (v : BitVec 5) :
    SGoes (.vmovs d v b) (fun s => s.bound s.cur.1 s.cur.2 v.toNat = none) fun s =>
      s.put (s.me.ws d.toNat (BitVec.ofNat 64 (VReg.elem (s.me.rv v.toNat) 32 ((s.rs b.toNat).toNat % 32)))) := by
  refine sgoes_ws _ _ (fun _ => rfl) fun s hb => ?_
  have hb' : (s.capture 0).bound (s.capture 0).cur.1 (s.capture 0).cur.2 v.toNat = none := by
    rw [capture_bound, State.capture_cur, hb]
  rw [semVmovs, withOperands_plain _ _ _ _ _ _ _ (by simpa [State.plain] using hb'), srcVal_plain _ _ _ hb']

/-- SMOVV replaces one lane of a register that is no stream, and keeps the others (R90). -/
theorem semSmovv_plain (d : BitVec 5) (a b : BitVec 6) (s : State) (hb : s.bound s.cur.1 s.cur.2 d.toNat = none) :
    semSmovv d a b s = .ok (s.wv d.toNat (VReg.ofElems 32 fun e =>
      if e = (s.rs b.toNat).toNat % 32 then (s.rs a.toNat).toNat else VReg.elem (s.me.rv d.toNat) 32 e)) := by
  unfold semSmovv
  exact withOperands_plain _ _ _ _ _ _ _ (by simpa [State.plain] using hb)

/-- SMOVV writes a lane of a register that is no stream, and goes on (R57, R90). -/
theorem exec_smovv (d : BitVec 5) (a b : BitVec 6) (s : State) (h : s.Able) (hb : s.bound s.cur.1 s.cur.2 d.toNat = none) :
    exec (.smovv d a b) s = .next ((s.capture 0).put (s.me.wv d.toNat (VReg.ofElems 32 fun e =>
      if e = (s.rs b.toNat).toNat % 32 then (s.rs a.toNat).toNat else VReg.elem (s.me.rv d.toNat) 32 e))) := by
  have hb' : (s.capture 0).bound (s.capture 0).cur.1 (s.capture 0).cur.2 d.toNat = none := by
    rw [capture_bound, State.capture_cur, hb]
  have hk := semSmovv_plain d a b _ hb'
  simp only [capture_rs, capture_me] at hk
  generalize VReg.ofElems 32 _ = x at hk ⊢
  exact exec_of_modMe (k := semSmovv d a b) (fun t => t.wv d.toNat x) h rfl hk (Slot.wv_pc ..)

/-- STOP writes p1 to p7 (R90). -/
theorem exec_stop (a : BitVec 6) (s : State) (h : s.Able) : exec (.stop a) s = .next ((s.capture 0).put
    { s.me with p := (s.me.p &&& 1) ||| ((s.rs a.toNat).zeroExtend 8 &&& 0xFE) }) := by
  refine exec_of_modMe (k := semStop a)
    (fun t => { t with p := (t.p &&& 1) ||| ((s.rs a.toNat).zeroExtend 8 &&& 0xFE) }) h rfl ?_ rfl
  rw [semStop, capture_rs]

/-- The predicates that STOP writes are bits 7 to 1 of its operand. -/
theorem getLsbD_stop (p : BitVec 8) (x : W64) {j : Nat} (h1 : 1 ≤ j) (h8 : j < 8) :
    ((p &&& 1) ||| (x.zeroExtend 8 &&& 0xFE)).getLsbD j = x.getLsbD j := by
  interval_cases j <;> simp

/-- Settles O4: each syllable writes one register, predicate, mask or constant, and its bundle goes on. -/
theorem comparesPredicatesAndMoves : Obligations.ComparesPredicatesAndMoves := by
  refine ⟨fun c p q r a b imm hc => ?_, fun d a b m v k _ => ?_⟩
  · simp only [← condS_eq c _ _ hc]
    exact ⟨sgoes_cmp c p a b, sgoes_cmpi c p a imm, sgoes_wp _ _ fun _ => rfl, sgoes_wp _ _ fun _ => rfl, sgoes_wp _ _ fun _ => rfl⟩
  · simp only [← preds_eq, BitVec.ofNat_toNat]
    refine ⟨sgoes_ptos d, sgoes_ws _ _ (fun _ => rfl) fun _ _ => rfl, sgoes_wm _ _ fun _ => rfl,
      sgoes_ws _ _ (fun _ => rfl) fun _ _ => rfl, sgoes_movtk a k, sgoes_vmovs d b v, fun s hs hb => ?_, fun s hs => ?_⟩
    · refine ⟨_, exec_smovv v a b s hs hb, fun j hj => ?_⟩
      rw [elem_ofElems _ (by omega), apply_ite (· % 2 ^ 32), elem_mod]
    · refine ⟨_, exec_stop a s hs, fun j h1 h8 => ?_, rfl⟩
      have hj : j ≠ 0 := by omega
      simpa [Slot.rp, hj] using getLsbD_stop s.me.p (s.rs a.toNat) h1 h8

end Sys2Proof.Machine
end

section
/-! SUPPORT. Scalar arithmetic (R83 to R86): what each operation computes, told by the numbers or the bits that its operands hold. -/

namespace Sys2Proof.Machine

/-! ### What the operations of R83, R85 and R86 compute -/

/-- A shift to the left multiplies by a power of two (R83). -/
theorem shiftLeft_eq_mul (x : W64) (n : Nat) : x <<< n = BitVec.ofNat 64 (x.toNat * 2 ^ n) := by
  apply BitVec.eq_of_toNat_eq
  rw [BitVec.toNat_shiftLeft, Nat.shiftLeft_eq, BitVec.toNat_ofNat]

/-- A logical shift to the right divides by a power of two (R83). -/
theorem ushiftRight_eq_div (x : W64) (n : Nat) : x >>> n = BitVec.ofNat 64 (x.toNat / 2 ^ n) := by
  apply BitVec.eq_of_toNat_eq
  rw [BitVec.toNat_ushiftRight, Nat.shiftRight_eq_div_pow, BitVec.toNat_ofNat,
    Nat.mod_eq_of_lt ((Nat.div_le_self ..).trans_lt x.isLt)]

/-- An arithmetic shift to the right divides by a power of two, rounding down (R83). -/
theorem sshiftRight_eq_div (x : W64) (n : Nat) : x.sshiftRight n = BitVec.ofInt 64 (x.toInt / 2 ^ n) := by
  rw [BitVec.sshiftRight, Int.shiftRight_eq_div_pow]
  norm_cast

/-- The signed reading of a number's low bits is that of the word that holds them (R31). -/
theorem sgn_eq_toInt (w : Nat) (x : W64) : sgn w x.toNat = (x.setWidth w).toInt := by
  rw [sgn, BitVec.toInt, BitVec.toNat_setWidth]

/-- SEXT sign-extends the low bits (R83). -/
theorem sextTo_eq (n : Nat) (x : W64) : sextTo n x = (x.setWidth (n + 1)).signExtend 64 := by
  rw [sextTo, sgn_eq_toInt, BitVec.signExtend]

/-- ZEXT zero-extends the low bits (R83). -/
theorem zextTo_eq (n : Nat) (x : W64) : zextTo n x = (x.setWidth (n + 1)).setWidth 64 := by
  apply BitVec.eq_of_toNat_eq
  rw [zextTo, BitVec.toNat_setWidth, BitVec.toNat_setWidth, BitVec.toNat_ofNat]

/-- LEA adds the base, the register and the displacement modulo 2^64 (R86). -/
theorem lea_eq (b : Nat) (x o : W64) : BitVec.ofNat 64 b + x + o = BitVec.ofInt 64 ((b : Int) + x.toInt + o.toInt) := by
  rw [BitVec.ofInt_add, BitVec.ofInt_add, BitVec.ofInt_toInt, BitVec.ofInt_toInt, BitVec.ofInt_natCast]

/-- A sum is that of the operands read unsigned (R83). -/
theorem add_eq_ofNat (x y : W64) : x + y = BitVec.ofNat 64 (x.toNat + y.toNat) := by
  rw [BitVec.ofNat_add, BitVec.ofNat_toNat, BitVec.ofNat_toNat, BitVec.setWidth_eq, BitVec.setWidth_eq]

/-- A difference is that of the operands read signed (R83). -/
theorem sub_eq_ofInt (x y : W64) : x - y = BitVec.ofInt 64 (x.toInt - y.toInt) := by
  apply BitVec.eq_of_toInt_eq
  rw [BitVec.toInt_sub, BitVec.toInt_ofInt]

/-- A product is that of the operands read unsigned (R83). -/
theorem mul_eq_ofNat (x y : W64) : x * y = BitVec.ofNat 64 (x.toNat * y.toNat) := by
  rw [BitVec.ofNat_mul, BitVec.ofNat_toNat, BitVec.ofNat_toNat, BitVec.setWidth_eq, BitVec.setWidth_eq]

/-- ROTR moves the bits that leave on the right in again on the left (R83). -/
theorem rotateRight_eq (x y : W64) :
    x.rotateRight (cnt y) = x >>> (y.toNat % 64) ||| x <<< ((64 - y.toNat % 64) % 64) := by
  rw [BitVec.rotateRight, BitVec.rotateRightAux, cnt, Nat.mod_mod]
  rcases Nat.eq_zero_or_pos (y.toNat % 64) with h | h
  · simp [h]
  · rw [Nat.mod_eq_of_lt (by omega : 64 - y.toNat % 64 < 64)]

/-- A choice by `<` is one by `≤` where equal keys mean equal values. -/
theorem ite_lt_eq_ite_le {α β : Type} [LinearOrder α] {u v : α} {a b : β} (h : u = v → a = b) :
    (if u < v then a else b) = if u ≤ v then a else b := by
  rcases eq_or_ne u v with e | e
  · simp [h e]
  · simp [le_iff_lt_or_eq, e]

/-- The lesser of two operands, read signed (R83). -/
theorem minS_eq (x y : W64) : minS x y = if x.toInt ≤ y.toInt then x else y := by
  simpa [minS, BitVec.slt] using ite_lt_eq_ite_le BitVec.eq_of_toInt_eq

/-- The greater of two operands, read signed (R83). -/
theorem maxS_eq (x y : W64) : maxS x y = if x.toInt ≤ y.toInt then y else x := by
  simpa [maxS, BitVec.slt] using ite_lt_eq_ite_le fun h => (BitVec.eq_of_toInt_eq h).symm

/-- The lesser of two operands, read unsigned (R83). -/
theorem minU_eq (x y : W64) : minU x y = if x.toNat ≤ y.toNat then x else y := by
  simpa [minU, BitVec.ult] using ite_lt_eq_ite_le BitVec.eq_of_toNat_eq

/-- The greater of two operands, read unsigned (R83). -/
theorem maxU_eq (x y : W64) : maxU x y = if x.toNat ≤ y.toNat then y else x := by
  simpa [maxU, BitVec.ult] using ite_lt_eq_ite_le fun h => (BitVec.eq_of_toNat_eq h).symm

/-! ### Bits counted and reversed (R83) -/

/-- A binary digit of a number, as the counts look at it. -/
theorem div_pow_mod_two_eq_one {x k : Nat} : x / 2 ^ k % 2 = 1 ↔ x.testBit k = true := by
  rw [Nat.testBit_eq_decide_div_mod_eq, decide_eq_true_eq]

/-- The leading zeros are zeros, and a 1 follows them (R83). -/
theorem clzN_spec (x n : Nat) : clzN x n ≤ n ∧ (∀ k, k < clzN x n → x.testBit (n - 1 - k) = false)
    ∧ (clzN x n < n → x.testBit (n - 1 - clzN x n) = true) := by
  induction n with
  | zero => simp [clzN]
  | succ n ih =>
    obtain ⟨hle, hzero, hone⟩ := ih
    simp only [clzN, div_pow_mod_two_eq_one]
    split
    · next h => simpa using h
    · next h =>
      refine ⟨by omega, fun k hk => ?_, fun hk => ?_⟩
      · cases k with
        | zero => simpa using h
        | succ k => rw [show n + 1 - 1 - (k + 1) = n - 1 - k by omega]; exact hzero k (by omega)
      · rw [show n + 1 - 1 - (clzN x n + 1) = n - 1 - clzN x n by omega]; exact hone (by omega)

/-- The trailing zeros are zeros, and a 1 follows them (R83). -/
theorem ctzFrom_spec (x k n : Nat) : ctzFrom x k n ≤ n ∧ (∀ j, j < ctzFrom x k n → x.testBit (k + j) = false)
    ∧ (ctzFrom x k n < n → x.testBit (k + ctzFrom x k n) = true) := by
  induction n generalizing k with
  | zero => simp [ctzFrom]
  | succ n ih =>
    obtain ⟨hle, hzero, hone⟩ := ih (k + 1)
    simp only [ctzFrom, div_pow_mod_two_eq_one]
    split
    · next h => simpa using h
    · next h =>
      refine ⟨by omega, fun j hj => ?_, fun hj => ?_⟩
      · cases j with
        | zero => simpa using h
        | succ j => rw [show k + (j + 1) = k + 1 + j by omega]; exact hzero j (by omega)
      · rw [show k + (ctzFrom x (k + 1) n + 1) = k + 1 + ctzFrom x (k + 1) n by omega]; exact hone (by omega)

/-- POPC counts the places that hold a 1 (R83). -/
theorem popcount_eq (x n : Nat) : popcount x n = ((List.range n).filter fun k => x.testBit k).length := by
  induction n with
  | zero => rfl
  | succ n ih =>
    rw [popcount, ih, List.range_succ, List.filter_append, List.length_append, List.filter_singleton]
    cases h : x.testBit n <;> simp [Nat.testBit_eq_decide_div_mod_eq] at h <;> simp [h]

/-- BREV puts bit 63 − k in place k (R83). -/
theorem getLsbD_brev64 (x : W64) {k : Nat} (h : k < 64) : (brev64 x).getLsbD k = x.getLsbD (63 - k) := by
  have he := packN_elem 1 (fun k => x.toNat / 2 ^ (63 - k)) h
  simp only [Nat.one_mul, pow_one] at he
  rw [brev64, BitVec.getLsbD_ofNat, Nat.testBit_eq_decide_div_mod_eq, he, ← Nat.testBit_eq_decide_div_mod_eq]
  simp [h, BitVec.getLsbD]

/-! ### The syllables -/

/-- An S syllable that writes a function of one scalar register. -/
theorem exec_sem1 {i : Instr} {f : W64 → W64} {d a : BitVec 6} (hx : ∀ s, exec i s = s.aloneS (sem1 f d a)) (s : State)
    (h : s.Able) : exec i s = .next ((s.capture 0).put (s.me.ws d.toNat (f (s.rs a.toNat)))) :=
  exec_of_modMe (k := sem1 f d a) (fun t => t.ws d.toNat (f (s.rs a.toNat))) h (hx s)
    (by rw [sem1, capture_rs, ws_eq]) (Slot.ws_pc ..)

/-- An S syllable that writes a function of two scalar registers. -/
theorem exec_sem2 {i : Instr} {f : W64 → W64 → W64} {d a b : BitVec 6} (hx : ∀ s, exec i s = s.aloneS (sem2 f d a b)) (s : State)
    (h : s.Able) : exec i s = .next ((s.capture 0).put (s.me.ws d.toNat (f (s.rs a.toNat) (s.rs b.toNat)))) :=
  exec_of_modMe (k := sem2 f d a b) (fun t => t.ws d.toNat (f (s.rs a.toNat) (s.rs b.toNat))) h (hx s)
    (by rw [sem2, capture_rs, capture_rs, ws_eq]) (Slot.ws_pc ..)

/-- An S syllable whose function of one scalar register is told in other words. -/
theorem sgoes_sem1 {i : Instr} {d a : BitVec 6} (f : W64 → W64) {r : State → W64} (hx : ∀ s, exec i s = s.aloneS (sem1 f d a))
    (hr : ∀ s, f (s.rs a.toNat) = r s) : SGoes i always fun s => s.put (s.me.ws d.toNat (r s)) :=
  sgoes_ws _ _ hx fun s _ => by rw [sem1, hr]

/-- An S syllable whose function of two scalar registers is told in other words. -/
theorem sgoes_sem2 {i : Instr} {d a b : BitVec 6} (f : W64 → W64 → W64) {r : State → W64}
    (hx : ∀ s, exec i s = s.aloneS (sem2 f d a b)) (hr : ∀ s, f (s.rs a.toNat) (s.rs b.toNat) = r s) :
    SGoes i always fun s => s.put (s.me.ws d.toNat (r s)) :=
  sgoes_ws _ _ hx fun s _ => by rw [sem2, hr]

/-- SEL takes the first source where its predicate holds, p0 being true (R83). -/
theorem sgoes_sel (d a b : BitVec 6) (p : BitVec 3) : SGoes (.sel d a b p) always fun s =>
    s.put (s.me.ws d.toNat (if p = 0 ∨ s.me.p.getLsbD p.toNat then s.rs a.toNat else s.rs b.toNat)) := by
  refine sgoes_ws _ _ (fun _ => rfl) fun s _ => ?_
  have hp : (s.capture 0).me.rp p.toNat = true ↔ p = 0 ∨ (s.capture 0).me.p.getLsbD p.toNat = true := by
    rw [Slot.rp, Bool.or_eq_true, decide_eq_true_eq, ← BitVec.toNat_inj]; rfl
  rw [semSel, sem2]
  simp only [hp]

/-- Settles O1: each instruction writes the result of its table row, as the word lemmas above tell it. -/
theorem scalarArithmetic : Obligations.ScalarArithmetic := by
  refine ⟨fun d a imm n l sg o => ?_, fun d a b p => ?_, fun d a s h => ?_⟩
  · exact ⟨sgoes_sem1 (· + imm.signExtend 64) (fun _ => rfl) fun _ => rfl,
      sgoes_sem1 (· &&& imm.signExtend 64) (fun _ => rfl) fun _ => rfl,
      sgoes_sem1 (· ||| imm.signExtend 64) (fun _ => rfl) fun _ => rfl,
      sgoes_sem1 (· ^^^ imm.signExtend 64) (fun _ => rfl) fun _ => rfl,
      sgoes_sem1 (fun x => x <<< n.toNat) (fun _ => rfl) fun _ => shiftLeft_eq_mul ..,
      sgoes_sem1 (fun x => x >>> n.toNat) (fun _ => rfl) fun _ => ushiftRight_eq_div ..,
      sgoes_sem1 (fun x => x.sshiftRight n.toNat) (fun _ => rfl) fun _ => sshiftRight_eq_div ..,
      sgoes_sem1 (sextTo n.toNat) (fun _ => rfl) fun _ => sextTo_eq ..,
      sgoes_sem1 (zextTo n.toNat) (fun _ => rfl) fun _ => zextTo_eq ..,
      sgoes_ws _ _ (fun _ => rfl) fun _ _ => rfl,
      sgoes_ws _ _ (fun _ => rfl) fun _ _ => rfl,
      sgoes_ws _ _ (fun _ => rfl) fun s _ => by rw [semLea, lea_eq]; rfl⟩
  · exact ⟨sgoes_sem2 (· + ·) (fun _ => rfl) fun _ => add_eq_ofNat .., sgoes_sem2 (· - ·) (fun _ => rfl) fun _ => sub_eq_ofInt ..,
      sgoes_sem2 (· * ·) (fun _ => rfl) fun _ => mul_eq_ofNat .., sgoes_sem2 mulhS (fun _ => rfl) fun _ => rfl,
      sgoes_sem2 mulhU (fun _ => rfl) fun _ => rfl, sgoes_sem2 (· &&& ·) (fun _ => rfl) fun _ => rfl,
      sgoes_sem2 (· ||| ·) (fun _ => rfl) fun _ => rfl, sgoes_sem2 (· ^^^ ·) (fun _ => rfl) fun _ => rfl,
      sgoes_sem2 (fun x y => x &&& ~~~y) (fun _ => rfl) fun _ => rfl,
      sgoes_sem2 (fun x y => x <<< cnt y) (fun _ => rfl) fun _ => shiftLeft_eq_mul ..,
      sgoes_sem2 (fun x y => x >>> cnt y) (fun _ => rfl) fun _ => ushiftRight_eq_div ..,
      sgoes_sem2 (fun x y => x.sshiftRight (cnt y)) (fun _ => rfl) fun _ => sshiftRight_eq_div ..,
      sgoes_sem2 (fun x y => x.rotateRight (cnt y)) (fun _ => rfl) fun _ => rotateRight_eq ..,
      sgoes_sem2 minS (fun _ => rfl) fun _ => minS_eq ..,
      sgoes_sem2 maxS (fun _ => rfl) fun _ => maxS_eq .., sgoes_sem2 minU (fun _ => rfl) fun _ => minU_eq ..,
      sgoes_sem2 maxU (fun _ => rfl) fun _ => maxU_eq .., sgoes_sel d a b p⟩
  · have hclz := clzN_spec (s.rs a.toNat).toNat 64
    have hctz := ctzFrom_spec (s.rs a.toNat).toNat 0 64
    simp only [Nat.zero_add] at hctz
    refine ⟨⟨_, hclz.1, exec_sem1 (f := clz64) (fun _ => rfl) s h, hclz.2⟩,
      ⟨_, hctz.1, exec_sem1 (f := ctz64) (fun _ => rfl) s h, hctz.2⟩, ?_,
      ⟨_, exec_sem1 (f := brev64) (fun _ => rfl) s h, fun k hk => getLsbD_brev64 _ hk⟩⟩
    have hp : popc64 (s.rs a.toNat) = BitVec.ofNat 64 ((List.range 64).filter fun k => (s.rs a.toNat).getLsbD k).length :=
      congrArg _ (popcount_eq ..)
    rw [← hp]
    exact exec_sem1 (f := popc64) (fun _ => rfl) s h

end Sys2Proof.Machine
end

section
/-! SUPPORT. BEXT and BDEP (R84): bit j of the gathered bits and the mask's j-th set position. -/

namespace Sys2Proof.Machine

/-- A multiple of a power of two has no digit below it. -/
theorem testBit_of_dvd {r i j : Nat} (h : 2 ^ j ∣ r) (hi : i < j) : r.testBit i = false := by
  obtain ⟨q, rfl⟩ := h
  rw [Nat.testBit_two_pow_mul, decide_eq_false (Nat.not_le.2 hi), Bool.false_and]

/-- A digit put below a number that leaves its place and those under it free. -/
theorem testBit_toNat_mul_add (b : Bool) {r j : Nat} (h : 2 ^ (j + 1) ∣ r) (i : Nat) :
    (b.toNat * 2 ^ j + r).testBit i = if i = j then b else r.testBit i := by
  obtain ⟨q, rfl⟩ := h
  have hlt : b.toNat * 2 ^ j < 2 ^ (j + 1) := by
    rw [pow_succ']; exact Nat.mul_lt_mul_of_pos_right (by cases b <;> decide) (by positivity)
  rw [Nat.add_comm, Nat.testBit_two_pow_mul_add _ hlt, Nat.testBit_two_pow_mul, Nat.testBit_mul_two_pow]
  rcases Nat.lt_trichotomy i j with hi | hi | hi
  · simp [hi.ne, Nat.lt_succ_of_lt hi, Nat.not_le.2 hi, Nat.not_le.2 (Nat.lt_succ_of_lt hi)]
  · cases b <;> simp [hi]
  · simp [hi.ne', Nat.not_lt.2 (Nat.succ_le_of_lt hi), Nat.succ_le_of_lt hi]

/-- A mask has one set position more below the next place, where it has one there. -/
theorem popcount_succ (y k : Nat) : popcount y (k + 1) = popcount y k + (y.testBit k).toNat := by
  rw [popcount, Nat.toNat_testBit]

/-- The set positions below a place do not grow fewer. -/
theorem popcount_mono (y : Nat) : Monotone (popcount y) :=
  monotone_nat_of_le_succ fun k => by rw [popcount_succ]; exact Nat.le_add_right ..

/-- The bits gathered from place `k` on: they stand above those gathered before, each where the mask's set positions below
it put it, and none stands above the last (R84). -/
theorem bextFrom_spec (x y k n : Nat) :
    2 ^ popcount y k ∣ bextFrom x y k (popcount y k) n
      ∧ (∀ t, k ≤ t → t < k + n → y.testBit t = true → (bextFrom x y k (popcount y k) n).testBit (popcount y t) = x.testBit t)
      ∧ ∀ i, popcount y (k + n) ≤ i → (bextFrom x y k (popcount y k) n).testBit i = false := by
  induction n generalizing k with
  | zero => exact ⟨dvd_zero _, fun t h1 h2 => by omega, fun i _ => Nat.zero_testBit i⟩
  | succ n ih =>
    obtain ⟨hdvd, hbit, htop⟩ := ih (k + 1)
    rw [show k + 1 + n = k + (n + 1) by omega] at hbit htop
    simp only [bextFrom, div_pow_mod_two_eq_one]
    cases hk : y.testBit k
    case false =>
      rw [popcount_succ, hk] at hdvd hbit htop
      refine ⟨hdvd, fun t h1 h2 ht => ?_, htop⟩
      have hne : t ≠ k := by rintro rfl; simp [hk] at ht
      exact hbit t (by omega) h2 ht
    case true =>
      have hs : popcount y (k + 1) = popcount y k + 1 := by rw [popcount_succ, hk]; rfl
      rw [hs] at hdvd hbit htop
      simp only [if_true, ← Nat.toNat_testBit]
      have hsum := testBit_toNat_mul_add (x.testBit k) hdvd
      refine ⟨(Nat.dvd_mul_left ..).add ((pow_dvd_pow 2 (Nat.le_succ _)).trans hdvd), fun t h1 h2 ht => ?_, fun i hi => ?_⟩
      · rcases Nat.eq_or_lt_of_le h1 with rfl | h1
        · simp [hsum]
        · have : popcount y (k + 1) ≤ popcount y t := popcount_mono y h1
          rw [hsum, if_neg (by omega), hbit t h1 h2 ht]
      · have := popcount_mono y (show k + 1 ≤ k + (n + 1) by omega)
        rw [hsum, if_neg (by omega), htop i hi]

/-- The bits scattered from place `k` on: each of the mask's set positions takes the next bit (R84). -/
theorem bdepFrom_spec (x y k n : Nat) :
    2 ^ k ∣ bdepFrom x y k (popcount y k) n
      ∧ ∀ t, k ≤ t → t < k + n →
        (bdepFrom x y k (popcount y k) n).testBit t = (y.testBit t && x.testBit (popcount y t)) := by
  induction n generalizing k with
  | zero => exact ⟨dvd_zero _, fun t h1 h2 => by omega⟩
  | succ n ih =>
    obtain ⟨hdvd, hbit⟩ := ih (k + 1)
    have hdvd' := (pow_dvd_pow 2 (Nat.le_succ k)).trans hdvd
    rw [show k + 1 + n = k + (n + 1) by omega] at hbit
    simp only [bdepFrom, div_pow_mod_two_eq_one]
    cases hk : y.testBit k
    case false =>
      rw [popcount_succ, hk] at hdvd hdvd' hbit
      refine ⟨hdvd', fun t h1 h2 => ?_⟩
      rcases Nat.eq_or_lt_of_le h1 with rfl | h1
      · rw [hk, Bool.false_and]
        exact testBit_of_dvd hdvd (Nat.lt_succ_self k)
      · exact hbit t h1 h2
    case true =>
      have hs : popcount y (k + 1) = popcount y k + 1 := by rw [popcount_succ, hk]; rfl
      rw [hs] at hdvd hdvd' hbit
      simp only [if_true, ← Nat.toNat_testBit]
      refine ⟨(Nat.dvd_mul_left ..).add hdvd', fun t h1 h2 => ?_⟩
      rw [testBit_toNat_mul_add _ hdvd]
      rcases Nat.eq_or_lt_of_le h1 with rfl | h1
      · simp [hk]
      · rw [if_neg (by omega), hbit t h1 h2]

/-- A mask of 64 bits has at most as many set positions below a place. -/
theorem popcount_le (y k : Nat) : popcount y k ≤ k := by
  rw [popcount_eq]
  simpa using (List.range k).length_filter_le fun j => y.testBit j

/-- Settles O2: the bits that BEXT gathers and BDEP scatters stand where the mask's set positions say. -/
theorem bitGatherAndScatter : Obligations.BitGatherAndScatter := by
  intro d a b s h
  have hcount (k : Nat) : ((List.range k).filter fun j => (s.rs b.toNat).getLsbD j).length = popcount (s.rs b.toNat).toNat k :=
    (popcount_eq ..).symm
  simp only [hcount]
  refine ⟨⟨_, exec_sem2 (f := bext64) (fun _ => rfl) s h, fun k hk hm => ?_, fun j hj => ?_⟩,
    _, exec_sem2 (f := bdep64) (fun _ => rfl) s h, fun k hk => ?_⟩
  · obtain ⟨-, hbit, -⟩ := bextFrom_spec (s.rs a.toNat).toNat (s.rs b.toNat).toNat 0 64
    have hlt := (popcount_le (s.rs b.toNat).toNat k).trans_lt hk
    rw [bext64, BitVec.getLsbD_ofNat, decide_eq_true hlt, Bool.true_and]
    exact hbit k (Nat.zero_le k) (by omega) hm
  · obtain ⟨-, -, htop⟩ := bextFrom_spec (s.rs a.toNat).toNat (s.rs b.toNat).toNat 0 64
    rw [bext64, BitVec.getLsbD_ofNat, Bool.and_eq_false_iff]
    exact .inr (htop j (by simpa using hj))
  · obtain ⟨-, hbit⟩ := bdepFrom_spec (s.rs a.toNat).toNat (s.rs b.toNat).toNat 0 64
    rw [bdep64, BitVec.getLsbD_ofNat, decide_eq_true hk, Bool.true_and]
    exact hbit k (Nat.zero_le k) (by omega)

end Sys2Proof.Machine
end

section
/-! SUPPORT. The ends of a bundle that later proofs share, and divides (R87, R88). -/

namespace Sys2Proof.Machine

/-! ### Bundles whose slot waits, or whose core changes -/

/-- Two changes of the executing core are one. -/
theorem modMy_modMy (s : State) (f g : Core → Core) : (s.modMy f).modMy g = s.modMy fun x => g (f x) := by
  rw [modMy_eq (s.modMy f), my_modMy]
  simp [modMy_eq]

/-- A change of the executing core is told by what it makes of that core. -/
theorem modMy_congr {s : State} {f g : Core → Core} (h : f s.my = g s.my) : s.modMy f = s.modMy g := by
  rw [modMy_eq, modMy_eq, h]

/-- An S syllable whose bundle comes to its end, from the state in which an open capture has recorded the bundle; what the syllable
asks of the state holds there too. -/
theorem sgoes_of_done {i : Instr} {ok : State → Prop} {post : State → State} {k : State → Res} (hx : ∀ s, exec i s = s.aloneS k)
    (hcap : ∀ s, ok s → ok (s.capture 0)) (hd : ∀ s u : State, u.Able → ok u → s.done false (k u) = .next (post u)) :
    SGoes i ok post := fun _ s hs ho => (hx s).trans (hd s _ ((capture_able s 0).2 hs) (hcap s ho))

/-- A bundle that changes its slot, but not the PC, goes on behind itself. -/
theorem done_put (s u : State) (f : Slot → Slot) (h : u.Able) (hp : (f u.me).pc = u.me.pc) :
    s.done false (.ok (u.modMe f)) = .next (u.put (f u.me)) := by
  rw [done_ok s (u.modMe f) _ h, put_me u h, hp]
  rfl

/-- A bundle that changes its core, but not its slot, goes on. -/
theorem done_okMy_same (s u : State) (f : Core → Core) (h : u.Able) (hf : (f u.my).slot u.cur.2 = u.me) :
    s.done false (.ok (u.modMy f)) = .next (u.wentOn (f u.my) (u.me.next u.me.pc)) := by
  rw [done_ok s (u.modMy f) _ h, put_modMy, hf]

/-- A bundle whose slot then waits behind it. -/
theorem done_awaits (s u : State) (st : SlotSt) (a : Held) (h : u.Able) :
    s.done false (.hold none (u.await st a)) = .next (u.awaits u.my st a) := by
  rw [done_hold s (u.await st a) _ _ h, await_wentOn u h]
  rfl

/-- A bundle that changes its core, but not its slot, which then waits behind it. -/
theorem done_awaitsMy (s u : State) (f : Core → Core) (st : SlotSt) (a : Held) (h : u.Able) (hf : (f u.my).slot u.cur.2 = u.me) :
    s.done false (.hold none ((u.modMy f).await st a)) = .next (u.awaits (f u.my) st a) := by
  rw [done_hold s ((u.modMy f).await st a) _ _ h, await_modMy u h, hf]
  rfl

/-! ### Divides -/

/-- The signed remainder is the dividend less the quotient times the divisor (R87). -/
theorem remS_eq (x y : W64) :
    remS x y = if y = 0 then x else BitVec.ofInt 64 (x.toInt - x.toInt.tdiv y.toInt * y.toInt) := by
  rw [remS, Int.tmod_def, Int.mul_comm]

/-- The unsigned remainder is the dividend less the quotient times the divisor (R87). -/
theorem remU_eq (x y : W64) :
    remU x y = if y = 0 then x else BitVec.ofNat 64 (x.toNat - x.toNat / y.toNat * y.toNat) := by
  rw [remU, Nat.mod_eq_sub, Nat.mul_comm]

/-- A divide that enters a free unit, whose work on it begins at once (R88). -/
theorem semDivide_free (f : W64 → W64 → W64) (d a b : BitVec 6) (s : State) (hd : s.my.div = []) (he : s.my.divEnd = none) :
    semDivide f d a b s = .hold none (((s.after 21 (.divideComplete s.cur.1)).modMy fun x =>
      { x with div := [⟨s.cur.2, d.toNat, f (s.rs a.toNat) (s.rs b.toNat)⟩], divEnd := some (s.now + 21) }).await .parked .divide) := by
  have hboth : (s.modMy fun x => { x with div := x.div ++ [⟨s.cur.2, d.toNat, f (s.rs a.toNat) (s.rs b.toNat)⟩] }).modMy
      (fun x => { x with divEnd := some (s.now + 21) }) = s.modMy fun x =>
        { x with div := [⟨s.cur.2, d.toNat, f (s.rs a.toNat) (s.rs b.toNat)⟩], divEnd := some (s.now + 21) } :=
    (modMy_modMy ..).trans (modMy_congr (by simp [hd]))
  rw [semDivide, if_pos (by simp [hd, he])]
  exact congrArg (fun t => Res.hold none ((t.after 21 (.divideComplete s.cur.1)).await .parked .divide)) hboth

/-- A divide that finds its unit at work waits behind the others (R88). -/
theorem semDivide_busy (f : W64 → W64 → W64) (d a b : BitVec 6) (s : State) (h : ¬(s.my.div = [] ∧ s.my.divEnd = none)) :
    semDivide f d a b s = .hold none ((s.modMy fun x =>
      { x with div := x.div ++ [⟨s.cur.2, d.toNat, f (s.rs a.toNat) (s.rs b.toNat)⟩] }).await .parked .divide) := by
  rw [semDivide, if_neg (by simpa using h)]

/-- A divide enters its core's unit, and its slot waits for the result (R87, R88). -/
theorem sgoes_divide {i : Instr} {d a b : BitVec 6} (f : W64 → W64 → W64) {r : State → W64}
    (hx : ∀ s, exec i s = s.aloneS (semDivide f d a b)) (hr : ∀ s, f (s.rs a.toNat) (s.rs b.toNat) = r s) :
    SGoes i always fun s =>
      let q : DivOp := ⟨s.cur.2, d.toNat, r s⟩
      if s.my.div = [] ∧ s.my.divEnd = none then
        (s.after 21 (.divideComplete s.cur.1)).awaits { s.my with div := [q], divEnd := some (s.now + 21) } .parked .divide
      else s.awaits { s.my with div := s.my.div ++ [q] } .parked .divide := by
  refine sgoes_of_done hx (fun _ _ => trivial) fun s u h _ => ?_
  dsimp only
  rw [← hr]
  split
  · next hfree =>
    obtain ⟨hd, he⟩ := hfree
    rw [semDivide_free f d a b u hd he]
    exact done_awaitsMy s _ _ _ _ h rfl
  · next hbusy =>
    rw [semDivide_busy f d a b u hbusy]
    exact done_awaitsMy s _ _ _ _ h rfl

/-- A free unit starts the next operation (R88). -/
theorem exec_divideStart (s : State) (c : Nat) (hd : (s.core c).div ≠ []) (he : (s.core c).divEnd = none) :
    exec (.divideStart c) s
      = .next ((s.setCore c { s.core c with divEnd := some (s.now + 21) }).after 21 (.divideComplete c)) := by
  change Host.Outcome.next (evDivideStart c s) = _
  rw [evDivideStart, if_pos (by simp [hd, he])]
  rfl

/-- In its last cycle a divide's result is written and its slot becomes READY; the unit turns to the next (R88). -/
theorem exec_divideComplete (s : State) (c : Nat) (q : DivOp) (l : List DivOp) (hq : q.slot < 16)
    (hdiv : (s.core c).div = q :: l) (hend : (s.core c).divEnd = some s.now)
    (hheld : ((s.slot c q.slot).ws q.d q.result).held = .divide) (hm : (s.core c).directMma q.slot = false) :
    exec (.divideComplete c) s = .next
      (let u := s.setCore c (({ s.core c with div := l, divEnd := none }.setSlot q.slot
          ((s.slot c q.slot).ws q.d q.result).wake).count 15 1)
        if l = [] then u else u.after 1 (.divideStart c)) := by
  change Host.Outcome.next (evDivideComplete c s) = _
  have hwrite : (s.modCore c fun x => { x with div := l, divEnd := none }).modSlot c q.slot (fun t => t.ws q.d q.result)
      = s.setCore c ({ s.core c with div := l, divEnd := none }.setSlot q.slot ((s.slot c q.slot).ws q.d q.result)) := by
    simp only [State.modSlot, State.setSlot, State.slot, State.modCore, core_setCore_same, setCore_setCore]
    rfl
  have hslot (t : State) : (t.setCore c ({ s.core c with div := l, divEnd := none }.setSlot q.slot
      ((s.slot c q.slot).ws q.d q.result))).slot c q.slot = (s.slot c q.slot).ws q.d q.result := by
    rw [State.slot, core_setCore_same, slot_setSlot_same _ hq]
  simp only [evDivideComplete, hdiv, hend, le_refl, if_true, hwrite]
  cases l with
  | nil => simp only [List.isEmpty_nil, if_true, hslot, hheld]; exact congrArg _ (wake_setSlot s c _ _ _ hq hm)
  | cons p l =>
    simp only [List.isEmpty_cons, Bool.false_eq_true, if_false, after_setCore, hslot, hheld, if_true]
    exact congrArg _ (wake_setSlot _ c _ _ _ hq hm)

/-- Settles O3: the four divides enter the unit with their results; then its start and its last cycle. -/
theorem divide : Obligations.Divide := by
  refine ⟨fun d a b => ?_, fun c s => ⟨exec_divideStart s c, fun q l => exec_divideComplete s c q l⟩⟩
  exact ⟨sgoes_divide divS (fun _ => rfl) fun _ => rfl, sgoes_divide divU (fun _ => rfl) fun _ => rfl,
    sgoes_divide remS (fun _ => rfl) fun _ => remS_eq .., sgoes_divide remU (fun _ => rfl) fun _ => remU_eq ..⟩

end Sys2Proof.Machine
end

section
/-! SUPPORT. Branches, calls and jumps (R99). -/

namespace Sys2Proof.Machine

/-- The target of a branch: the PC and eight times the displacement, modulo 2^64 (R99). -/
theorem target_eq (s : State) (d : BitVec 20) : s.target d = BitVec.ofInt 64 ((s.me.pc.toNat : Int) + 8 * d.toInt) := by
  rw [BitVec.ofInt_add, BitVec.ofInt_mul, BitVec.ofInt_natCast, BitVec.ofNat_toNat, BitVec.setWidth_eq, State.target, BitVec.signExtend]
  rfl

/-- A bundle that changes its slot and jumps. -/
theorem done_jumpMe (s u : State) (f : Slot → Slot) (pc : W64) (h : u.Able) :
    s.done false (.jump pc (u.modMe f)) = .next (u.wentOn u.my { f u.me with pc := pc }) := by
  rw [done_jump s (u.modMe f) _ _ h, me_modMe u h]
  simp

/-- A branch goes to its target where it is taken, and on behind its bundle where not (R99). -/
theorem sgoes_branch {i : Instr} {d : BitVec 20} (c : Slot → Bool) (hx : ∀ s, exec i s = s.aloneS fun u => semBranch (c u.me) d u) :
    SGoes i always fun s =>
      if c s.me then s.wentOn s.my { s.me with pc := BitVec.ofInt 64 ((s.me.pc.toNat : Int) + 8 * d.toInt) } else s.put s.me := by
  refine sgoes_of_done hx (fun _ _ => trivial) fun s u h _ => ?_
  rw [← target_eq, semBranch]
  cases c u.me
  · exact done_ok _ _ _ h
  · exact done_jump _ _ _ _ h

/-- CALL goes to its target and leaves the address behind its bundle in s55 (R99). -/
theorem sgoes_call (d : BitVec 20) : SGoes (.call d) always fun s =>
    s.wentOn s.my { s.me.ws 55 (s.me.pc + 8) with pc := BitVec.ofInt 64 ((s.me.pc.toNat : Int) + 8 * d.toInt) } := by
  refine sgoes_of_done (k := semCall d) (fun _ => rfl) (fun _ _ => trivial) fun s u h _ => ?_
  rw [← target_eq]
  exact done_jumpMe s u _ _ h

/-- JR goes to an aligned address (R99). -/
theorem sgoes_jr (a : BitVec 6) : SGoes (.jr a) (fun s => (s.rs a.toNat).toNat % 8 = 0) fun s =>
    s.wentOn s.my { s.me with pc := s.rs a.toNat } := by
  refine sgoes_of_done (k := semJr a) (fun _ => rfl) (fun s hs => by rwa [capture_rs]) fun s u h ha => ?_
  rw [semJr, if_neg (by simp [ha])]
  exact done_jump _ _ _ _ h

/-- CALLR goes to an aligned address and leaves the address behind its bundle in s55 (R99). -/
theorem sgoes_callr (a : BitVec 6) : SGoes (.callr a) (fun s => (s.rs a.toNat).toNat % 8 = 0) fun s =>
    s.wentOn s.my { s.me.ws 55 (s.me.pc + 8) with pc := s.rs a.toNat } := by
  refine sgoes_of_done (k := semCallr a) (fun _ => rfl) (fun s hs => by rwa [capture_rs]) fun s u h ha => ?_
  rw [semCallr, if_neg (by simp [ha])]
  exact done_jumpMe s u _ _ h

/-- JR and CALLR trap ALIGN at an address that is no multiple of 8 (R99). -/
theorem traps_jr_callr (a : BitVec 6) (s : State) (ha : (s.rs a.toNat).toNat % 8 ≠ 0) :
    Traps (exec (.jr a) s) s cALIGN (BitVec.ofNat 32 (s.rs a.toNat).toNat) false
      ∧ Traps (exec (.callr a) s) s cALIGN (BitVec.ofNat 32 (s.rs a.toNat).toNat) false := by
  rw [BitVec.ofNat_toNat]
  constructor
  · exact aloneS_trap s (semJr a) _ _ (by rw [semJr, capture_rs, if_pos (by simpa using ha)])
  · exact aloneS_trap s (semCallr a) _ _ (by rw [semCallr, capture_rs, if_pos (by simpa using ha)])

/-- Settles O19: the branches, by their conditions; the calls and register jumps; and the two that trap. -/
theorem branches : Obligations.Branches := by
  refine fun d p m a => ⟨?_, sgoes_branch (fun t => t.rp p.toNat) fun _ => rfl, sgoes_branch (fun t => !t.rp p.toNat) fun _ => rfl,
    sgoes_branch (fun t => t.rm m.toNat = 0) fun _ => rfl, ?_, sgoes_call d, sgoes_jr a, sgoes_callr a, traps_jr_callr a⟩
  · exact sgoes_branch (fun _ => true) fun _ => rfl
  · have hne (t : Slot) : (t.rm m.toNat != 0) = decide (t.rm m.toNat ≠ 0) := by rw [bne, decide_not, beq_eq_decide]
    exact sgoes_branch (fun t => decide (t.rm m.toNat ≠ 0)) fun s => by simp only [← hne]; rfl

end Sys2Proof.Machine
end

section
/-! SUPPORT. Status registers, identity and event counters (R102 to R104), and the words that name none of them (R68). -/

namespace Sys2Proof.Machine

/-! ### Syllables that are no instructions -/

/-- A word of one S syllable without L is that syllable beside VNOP (R56). -/
theorem halves_of_lt {w : Nat} (h : w < 2 ^ 31) : halves w = (halfOf w (decodeS w) (readS w), .nop) := by
  have hl : fld w 31 1 = 0 := by rw [fld_eq, Nat.div_eq_of_lt h, Nat.zero_mod]
  have hs : fld w 0 32 = w := by rw [fld_eq, pow_zero, Nat.div_one, Nat.mod_eq_of_lt (h.trans (by decide))]
  have hv : fld w 32 32 = 0 := by rw [fld_eq, Nat.div_eq_of_lt (h.trans (by decide)), Nat.zero_mod]
  rw [halves, if_neg (by rw [hl]; decide), hs, hv]
  rfl

/-- The encoding of an S syllable with a field out of its range is no instruction (R59, R68). -/
theorem halves_of_not_wf {i : Instr} (hk : i.kind = .short) (hf : i.wf = false) (h0 : encode i ≠ 0) (h : encode i < 2 ^ 31) :
    halves (encode i) = (.bad (some i), .nop) := by
  have hd : decodeS (encode i) = none := by
    refine Option.eq_none_iff_forall_ne_some.2 fun j hj => ?_
    obtain ⟨hr, -, hw⟩ := (exactly_eq_some_iff ..).1 hj
    obtain rfl := Option.some.inj ((readS_encode i hk).symm.trans hr)
    simp [hf] at hw
  rw [halves_of_lt h, hd, readS_encode i hk]
  simp only [halfOf, if_neg h0]

/-- A syllable that is no instruction, beside VNOP, traps for its bundle (R68). -/
theorem bundle_bad {s : State} {i : Instr} {c : Nat} {d : W32} (h : (s.capture 0).malformedS i = .trap c d) :
    s.bundle 0 (.bad (some i)) .nop = (false, .trap c d) := by
  unfold State.bundle
  generalize s.capture 0 = u at h
  simp [Half.runS, Half.runV, Half.noCapture, Half.clash, Res.trapOf, minTrap, h]

/-- The encoding of an S syllable with a field out of its range makes its bundle trap ILLEGAL (R59, R68). -/
theorem bundle_illegal (i : Instr) (hk : i.kind = .short) (hf : i.wf = false) (h0 : encode i ≠ 0) (h : encode i < 2 ^ 31)
    (hm : ∀ s : State, s.malformedS i = .trap cILLEGAL 0) (s : State) :
    s.bundle 0 (halves (encode i)).1 (halves (encode i)).2 = (false, .trap cILLEGAL 0) := by
  rw [halves_of_not_wf hk hf h0 h]
  exact bundle_bad (hm _)

/-! ### Status registers (R102) -/

/-- A write of a status register leaves the PC. -/
theorem setStatus_pc (t : Slot) (c : Nat) (x : W64) : (t.setStatus c x).pc = t.pc := by
  unfold Slot.setStatus
  split <;> rfl

/-- MFS reads the low half of a segment register under codes 16 to 23 (R102). -/
theorem status_sgLow (t : Slot) {k : Nat} (h : k < 8) : t.status (16 + k) = BitVec.ofNat 64 (t.rsg k).toNat := by
  interval_cases k <;> rfl

/-- MFS reads the high half of a segment register under codes 24 to 31 (R102). -/
theorem status_sgHigh (t : Slot) {k : Nat} (h : k < 8) : t.status (24 + k) = BitVec.ofNat 64 ((t.rsg k).toNat / 2 ^ 64) := by
  rw [← Nat.shiftRight_eq_div_pow]
  interval_cases k <;> rfl

/-- MFS writes the status register of its code (R102). -/
theorem sgoes_mfs {d n : BitVec 6} {r : State → W64} (hr : ∀ s : State, s.me.status n.toNat = r s) :
    SGoes (.mfs d n) always fun s => s.put (s.me.ws d.toNat (r s)) :=
  sgoes_ws _ _ (fun _ => rfl) fun s _ => by rw [semMfs, hr]

/-- MTS writes the writable bits of a register it may write (R102). -/
theorem sgoes_mts {n a : BitVec 6} {r : State → Slot} (hw : mtsWrites n.toNat = true)
    (hr : ∀ s : State, s.me.setStatus n.toNat (s.rs a.toNat) = r s) : SGoes (.mts n a) always fun s => s.put (r s) := by
  refine sgoes_of_done (k := semMts n a) (fun _ => rfl) (fun _ _ => trivial) fun s u h _ => ?_
  rw [semMts, if_pos hw, ← hr]
  exact done_put s u _ h (setStatus_pc ..)

/-- MTS traps PRIV at a register it may not write (R102). -/
theorem traps_mts {c a : BitVec 6} (hc : mtsWrites c.toNat = false) (s : State) : Traps (exec (.mts c a) s) s cPRIV 0 false :=
  aloneS_trap s (semMts c a) _ _ (by rw [semMts, hc]; rfl)

/-- The codes that MTS writes (R102). -/
theorem mtsWrites_eq_false {c : BitVec 6} (h : c ∉ [1, 2, 8, 9, 10, 11, 12]) : mtsWrites c.toNat = false := by
  revert c; decide

/-- The codes of no status register (R102). -/
theorem statusCode_eq_false {c : BitVec 6} (h : c ∈ [5, 6, 7, 14, 15] ∨ 32 ≤ c.toNat) : statusCode c.toNat = false := by
  revert c; decide

/-- MTS and MFS of a code that names no register make their bundle trap ILLEGAL (R68, R102). -/
theorem illegal_mts_mfs (d a : BitVec 6) {c : BitVec 6} (hc : statusCode c.toNat = false) (s : State) :
    s.bundle 0 (halves (encode (.mts c a))).1 (halves (encode (.mts c a))).2 = (false, .trap cILLEGAL 0)
      ∧ s.bundle 0 (halves (encode (.mfs d c))).1 (halves (encode (.mfs d c))).2 = (false, .trap cILLEGAL 0) := by
  have hmts : encode (.mts c a) = 0x30000006 + c.toNat * 0x40000 + a.toNat * 0x1000 := rfl
  have hmfs : encode (.mfs d c) = 0x30000005 + d.toNat * 0x40000 + c.toNat * 0x1000 := rfl
  refine ⟨bundle_illegal (.mts c a) rfl hc (by omega) (by omega) (fun t => ?_) s,
    bundle_illegal (.mfs d c) rfl hc (by omega) (by omega) (fun _ => rfl) s⟩
  change (semMts c a t).illegal _ = _
  rw [semMts]
  split <;> rfl

/-! ### Identity and event counters (R103, R104) -/

/-- GETID of a code that it does not have makes its bundle trap ILLEGAL (R68, R103). -/
theorem illegal_getid {d n : BitVec 6} (hn : 6 < n.toNat) (s : State) :
    s.bundle 0 (halves (encode (.getid d n))).1 (halves (encode (.getid d n))).2 = (false, .trap cILLEGAL 0) := by
  have he : encode (.getid d n) = 0x30000004 + d.toNat * 0x40000 + n.toNat * 0x1000 := rfl
  exact bundle_illegal (.getid d n) rfl (decide_eq_false (by omega)) (by omega) (by omega) (fun _ => rfl) s

/-- EVCRD of a counter that a core does not have makes its bundle trap ILLEGAL (R68, R104). -/
theorem illegal_evcrd {d n : BitVec 6} (hn : 15 < n.toNat) (s : State) :
    s.bundle 0 (halves (encode (.evcrd d n))).1 (halves (encode (.evcrd d n))).2 = (false, .trap cILLEGAL 0) := by
  have he : encode (.evcrd d n) = 0x3000000E + d.toNat * 0x40000 + n.toNat * 0x1000 := rfl
  exact bundle_illegal (.evcrd d n) rfl (decide_eq_false (by omega)) (by omega) (by omega) (fun _ => rfl) s

/-- EVCCLR of a counter that a core does not have makes its bundle trap ILLEGAL (R68, R104). -/
theorem illegal_evcclr {n : BitVec 6} (hn : 15 < n.toNat) (s : State) :
    s.bundle 0 (halves (encode (.evcclr n))).1 (halves (encode (.evcclr n))).2 = (false, .trap cILLEGAL 0) := by
  have he : encode (.evcclr n) = 0x3000000F + n.toNat * 0x1000 := rfl
  exact bundle_illegal (.evcclr n) rfl (decide_eq_false (by omega)) (by omega) (by omega) (fun _ => rfl) s

/-- GETID writes what its code names (R103). -/
theorem sgoes_getid {d k : BitVec 6} {f : State → Nat} (hf : ∀ s : State, s.ident k.toNat = BitVec.ofNat 64 (f s)) :
    SGoes (.getid d k) always fun s => s.put (s.me.ws d.toNat (BitVec.ofNat 64 (f s))) :=
  sgoes_ws _ _ (fun _ => rfl) fun s _ => by rw [semGetid, hf]

/-- EVCCLR clears its counter (R104). -/
theorem sgoes_evcclr (n : BitVec 6) :
    SGoes (.evcclr n) always fun s => s.wentOn { s.my with ev := vset s.my.ev n.toNat 0 } (s.me.next s.me.pc) :=
  sgoes_of_done (k := semEvcclr n) (fun _ => rfl) (fun _ _ => trivial) fun s u h _ => done_okMy_same s u _ h rfl

/-- Settles O20: the registers that MFS reads and MTS writes; what GETID gives; the counters; and the codes that name nothing. -/
theorem statusIdentityAndCounters : Obligations.StatusIdentityAndCounters := by
  refine ⟨fun d a c => ?_, fun d n => ?_⟩
  · have hlow (k : Fin 8) : (BitVec.ofNat 6 (16 + k.val)).toNat = 16 + k.val := Nat.mod_eq_of_lt (by omega)
    have hhigh (k : Fin 8) : (BitVec.ofNat 6 (24 + k.val)).toNat = 24 + k.val := Nat.mod_eq_of_lt (by omega)
    exact ⟨sgoes_mfs fun _ => rfl, sgoes_mfs fun _ => rfl, sgoes_mfs fun _ => rfl, sgoes_mfs fun _ => rfl, sgoes_mfs fun _ => rfl,
      sgoes_mfs fun _ => rfl, sgoes_mfs fun _ => rfl, sgoes_mfs fun _ => rfl, sgoes_mfs fun _ => rfl, sgoes_mfs fun _ => rfl,
      sgoes_mfs fun _ => rfl,
      fun k => ⟨sgoes_mfs fun s => by rw [hlow, status_sgLow _ k.isLt], sgoes_mfs fun s => by rw [hhigh, status_sgHigh _ k.isLt]⟩,
      sgoes_mts rfl fun _ => rfl, sgoes_mts rfl fun _ => rfl, sgoes_mts rfl fun _ => rfl, sgoes_mts rfl fun _ => rfl,
      sgoes_mts rfl fun _ => rfl, sgoes_mts rfl fun _ => rfl, sgoes_mts rfl fun _ => rfl,
      fun hc _ => traps_mts (mtsWrites_eq_false hc),
      fun hc => forall_and.1 (illegal_mts_mfs d a (statusCode_eq_false hc))⟩
  · refine ⟨illegal_getid, fun hn => ⟨illegal_evcrd hn, illegal_evcclr hn⟩, sgoes_getid fun _ => rfl, sgoes_getid fun _ => rfl,
      sgoes_getid fun _ => rfl, sgoes_getid fun _ => rfl, sgoes_getid fun _ => rfl, sgoes_getid fun _ => rfl,
      sgoes_getid fun s => ?_, sgoes_ws _ _ (fun _ => rfl) fun _ _ => rfl, sgoes_evcclr n⟩
    change BitVec.ofNat 64 s.me.level.toNat = _
    cases s.me.level <;> rfl

end Sys2Proof.Machine
end

section
/-! SUPPORT. A drained slot goes IDLE (R107), and no cancellation awaits its stop any longer (R237). -/

namespace Sys2Proof.Machine

/-- A drained slot below 14 that writes no pipe goes IDLE (R107). -/
theorem exec_haltDrainComplete_idle {s : State} {c i : Nat} (h14 : i ≠ 14) (hh : (s.slot c i).held = .haltDrain)
    (hd : s.drained c i = true) (hu : (s.core c).haltUnit i = none) :
    exec (.haltDrainComplete c i) s = .next (s.goIdle c i) := by
  change Host.Outcome.next (evHaltDrainComplete c i s) = _
  have hdue : s.haltDue c i = true := by simp [State.haltDue, hh, hd, hu]
  simp [evHaltDrainComplete, hdue, h14, hu]

/-- No cancellation awaits the stop of a slot that has gone IDLE (R107, R237). -/
theorem goIdle_doomed (s : State) (c : Nat) {i : Nat} (hi : i < 16) : ((s.goIdle c i).slot c i).doomed = false := by
  rw [State.goIdle, slot_modSlot_same _ _ hi]

/-- A slot that has halted and drained while a cancellation awaits its stop (R107, R237). -/
def doomedHalting : State := State.reset.modSlot 0 0 fun t => { t with st := .parked, held := .haltDrain, doomed := true }

/-- It meets what the statement asks of a slot that goes IDLE: its units are idle, and it neither publishes nor is a member. -/
theorem doomedHalting_ready : (doomedHalting.slot 0 0).held = .haltDrain ∧ doomedHalting.drained 0 0 = true
    ∧ (doomedHalting.core 0).haltUnit 0 = none ∧ (doomedHalting.slot 0 0).mst = .none ∧ (doomedHalting.slot 0 0).pub = false := by
  decide +kernel

/-- Refutes O21: its clause of HALT's end keeps the mark that a cancellation awaits the slot's stop (R237), and the model clears it;
in `doomedHalting` the mark is set. -/
theorem not_waitsAndMailbox : ¬ Obligations.WaitsAndMailbox := by
  intro h
  obtain ⟨-, hidle, -⟩ := h.2.1 0 0 0 0 0 (by decide)
  obtain ⟨hheld, hdrained, hunit, hmst, hpub⟩ := doomedHalting_ready
  have hstated := hidle doomedHalting ⟨by decide, hheld, hdrained, hunit, hmst, hpub⟩
  rw [exec_haltDrainComplete_idle (by decide) hheld hdrained hunit] at hstated
  have hdoomed := congrArg (fun t : State => (t.slot 0 0).doomed) (Host.Outcome.next.inj hstated)
  simp only [goIdle_doomed _ 0 (by decide : 0 < 16)] at hdoomed
  rw [State.slot, core_setCore_same, slot_setSlot_same _ (by decide)] at hdoomed
  have hset : (doomedHalting.slot 0 0).doomed = true := by rw [doomedHalting, slot_modSlot_same _ _ (by decide)]
  simp [hset] at hdoomed

end Sys2Proof.Machine
end

section
/-! SUPPORT. Accesses through a segment (R17, R20, R92): what Seg answers a memory instruction, what a capture and a correction
leave, and scalar loads and stores of the local store (R93). -/

namespace Sys2Proof.Machine

/-! ### What a capture and a correction leave -/

/-- A capture changes the sequencer of a core alone (R158). -/
theorem core_capture (s : State) (w : W32) (c : Nat) : ∃ q, (s.capture w).core c = { s.core c with seqr := q } := by
  unfold State.capture
  split
  · by_cases hc : c = s.cur.1
    · subst hc; exact ⟨_, core_modCore_same ..⟩
    · exact ⟨(s.core c).seqr, by rw [State.modMy, core_modCore_other s hc]⟩
  · exact ⟨_, rfl⟩

/-- A capture changes the sequencer of the executing core alone (R158). -/
theorem my_capture (s : State) (w : W32) : ∃ q, (s.capture w).my = { s.my with seqr := q } := by
  obtain ⟨q, hq⟩ := core_capture s w s.cur.1
  exact ⟨q, by rw [State.my, State.capture_cur, hq, State.my]⟩

/-- A capture leaves the double-bit errors (R20). -/
theorem capture_bad (s : State) (w : W32) (a n : Nat) : (s.capture w).my.bad a n = s.my.bad a n := by
  obtain ⟨q, hq⟩ := my_capture s w
  rw [hq]
  rfl

/-- A capture leaves what Seg finds of an access (R17). -/
theorem capture_segOk (s : State) (w : W32) (sg : Nat) (off : Int) (size align : Nat) (k : AccKind) :
    (s.capture w).segOk sg off size align k ↔ s.segOk sg off size align k := by
  rw [State.segOk, capture_me, State.segOk]

/-- A capture leaves the local address that an offset names (R17). -/
theorem capture_la (s : State) (w : W32) (sg : Nat) (off : Int) : (s.capture w).la sg off = s.la sg off := by
  rw [State.la, capture_me, State.la]

/-- A capture leaves the offset of an access (R92). -/
theorem capture_smOff (s : State) (w : W32) (a : BitVec 6) (imm : BitVec 8) (n : Nat) : (s.capture w).smOff a imm n = s.smOff a imm n := by
  rw [State.smOff, capture_rs, State.smOff]

/-- The correction of single-bit errors changes the list of them alone in a core (R20). -/
theorem core_touch (s : State) (c a n k : Nat) : ∃ l, (s.touch c a n).core k = { s.core k with err1 := l } := by
  unfold State.touch
  split
  · exact ⟨_, rfl⟩
  · simp only [core_corrected]
    by_cases hk : k = c
    · subst hk; exact ⟨_, core_modCore_same ..⟩
    · exact ⟨(s.core k).err1, by rw [core_modCore_other s hk]⟩

/-- The correction of single-bit errors leaves the executing slot (R20). -/
theorem touch_me (s : State) (c a n : Nat) : (s.touch c a n).me = s.me := by
  obtain ⟨l, hl⟩ := core_touch s c a n s.cur.1
  rw [State.me, State.slot, touch_cur, hl]
  rfl

/-- The correction of single-bit errors leaves the executing slot's number (R20). -/
theorem touch_able {s : State} (c a n : Nat) (h : s.Able) : (s.touch c a n).Able := by
  rwa [State.Able, touch_cur]

/-! ### What Seg answers a memory instruction (R17) -/

/-- The detail of an address fault: the low 32 bits of the offset (R92). -/
theorem offDetail_eq (off : Int) : offDetail off = BitVec.ofInt 32 off := by
  apply BitVec.eq_of_toNat_eq
  have h0 := Int.emod_nonneg off (show ((2 ^ 32 : Nat) : Int) ≠ 0 by decide)
  have h1 := Int.emod_lt_of_pos off (show (0 : Int) < ((2 ^ 32 : Nat) : Int) by decide)
  rw [offDetail, wrap, BitVec.toNat_ofNat, BitVec.toNat_ofInt, Nat.mod_eq_of_lt (by omega)]

section
variable (s : State) (n : Nat) (off : Int) (size align : Nat) (k : AccKind) (wide indexed : Bool)

/-- Seg answers the local address of a LOCAL access that is aligned, within its limit and allowed. -/
theorem seg_ok (h : s.segOk n off size align k) : s.seg n off size align k wide indexed = .at (s.la n off) := by
  obtain ⟨hspace, halign, hlow, hlimit, hstore, hright⟩ := h
  unfold State.seg
  rw [if_neg (by simp [halign]), if_neg (by simp [hspace]), if_neg (by simp [hspace])]
  exact segIn_ok _ _ _ _ hlow hlimit hstore hright

/-- Seg looks at the alignment first. -/
theorem seg_align (h : off % align ≠ 0) : s.seg n off size align k wide indexed = .bad cALIGN := by
  unfold State.seg
  rw [if_pos (by simpa using h)]

/-- Seg refuses an aligned access through a segment of another space. -/
theorem seg_space (ha : off % align = 0) (h : sgSpace (s.me.rsg n) = 0 ∨ sgSpace (s.me.rsg n) ≥ 4) :
    s.seg n off size align k wide indexed = .bad cSPACE := by
  unfold State.seg
  rw [if_neg (by simp [ha]), if_neg (by simp only [Bool.or_eq_true, decide_eq_true_eq]; omega), if_pos (by simp only [bne_iff_ne]; omega)]

/-- Seg answers an aligned LOCAL access as its limit and its rights say. -/
theorem seg_local (ha : off % align = 0) (h : sgSpace (s.me.rsg n) = 1) :
    s.seg n off size align k wide indexed = segIn (s.me.rsg n) off size k := by
  unfold State.seg
  rw [if_neg (by simp [ha]), if_neg (by simp [h]), if_neg (by simp [h])]

end

/-- An access past the local store is a limit fault. -/
theorem segIn_store (d : W128) (off : Int) (size : Nat) (k : AccKind) (h : sgBase d + off + size > 0x100000) :
    segIn d off size k = .bad cSEGLIMIT := by
  unfold segIn
  split
  · rfl
  · rw [if_pos (by omega)]

/-- An access within its limit that is not allowed is a rights fault. -/
theorem segIn_rights (d : W128) (off : Int) (size : Nat) (k : AccKind) (h0 : 0 ≤ off) (h1 : off + size - 1 ≤ sgLimit d)
    (h2 : sgBase d + off + size ≤ 0x100000) (h3 : sgRights d k = false) : segIn d off size k = .bad cRIGHTS := by
  unfold segIn
  rw [if_neg (by simp only [Bool.or_eq_true, decide_eq_true_eq]; omega), if_neg (by omega), if_pos (by simp [h3])]

section
variable {s : State} {sg : Nat} {off : Int} {size align : Nat} {k : AccKind} (wide : Bool) {more : W128 → Bool}
  (near : Nat → Res) (far : Nat → Nat → Res)

/-- A memory instruction whose access is LOCAL and allowed goes on with its local address. -/
theorem access_local (h : s.segOk sg off size align k) (hm : more (s.me.rsg sg) = true) :
    s.access sg off size align k wide more near far = near (s.la sg off) := by
  unfold State.access
  rw [seg_ok s sg off size align k wide false h]
  simp [hm]

/-- A memory instruction that Seg finds at fault traps, with its offset. -/
theorem access_bad {c : Nat} (h : s.seg sg off size align k wide false = .bad c) :
    s.access sg off size align k wide more near far = .trap c (BitVec.ofInt 32 off) := by
  unfold State.access
  rw [h]
  exact congrArg _ (offDetail_eq off)

end

/-- An instruction whose access of `n` bytes traps where Seg finds it at fault: ALIGN, SPACE, SEGLIMIT, RIGHTS, in this order, with the
offset as DETAIL (R17, R92). -/
def TrapsAsSeg (i : Instr) (s : State) (sg n : Nat) (a : BitVec 6) (imm : BitVec 8) (k : AccKind) : Prop :=
  let off := ((s.rs a.toNat).toNat : Int) + imm.toInt * n
  let g := s.me.rsg sg
  let traps := fun (c : Nat) => Traps (exec i s) s c (BitVec.ofInt 32 off) false
  (off % n ≠ 0 → traps cALIGN)
    ∧ (off % n = 0 → sgSpace g = 0 ∨ sgSpace g ≥ 4 → traps cSPACE)
    ∧ (off % n = 0 → sgSpace g = 1 →
      (off < 0 ∨ off + n - 1 > sgLimit g ∨ sgBase g + off + n > 0x100000 → traps cSEGLIMIT)
      ∧ (0 ≤ off → off + n - 1 ≤ sgLimit g → sgBase g + off + n ≤ 0x100000 → sgRights g k = false → traps cRIGHTS))

/-- A memory instruction traps where Seg finds its access at fault. -/
theorem trapsAsSeg_access {i : Instr} {s : State} {sg n : Nat} {a : BitVec 6} {imm : BitVec 8} {k : AccKind} {f : State → Res}
    (hx : exec i s = s.aloneS f)
    (hf : ∀ u : State, ∃ more near far, f u = u.access sg (u.smOff a imm n) n n k false more near far) :
    TrapsAsSeg i s sg n a imm k := by
  unfold TrapsAsSeg
  intro off g traps
  obtain ⟨more, near, far, hf⟩ := hf (s.capture 0)
  have hoff : (s.capture 0).smOff a imm n = off := capture_smOff ..
  have hg : (s.capture 0).me.rsg sg = g := by rw [capture_me]
  have htrap {c : Nat} (h : (s.capture 0).seg sg off n n k false false = .bad c) : traps c :=
    hx.trans (aloneS_trap s _ _ _ (by rw [hf, hoff, access_bad _ _ _ h]))
  refine ⟨fun ha => htrap (seg_align _ _ _ _ _ _ _ _ ha), fun ha hs => htrap (seg_space _ _ _ _ _ _ _ _ ha (by rwa [hg])), fun ha hs => ?_⟩
  have hseg := seg_local (s.capture 0) sg off n n k false false ha (by rwa [hg])
  rw [hg] at hseg
  refine ⟨fun hl => htrap (hseg.trans ?_), fun h0 h1 h2 hr => htrap (hseg.trans (segIn_rights _ _ _ _ h0 h1 h2 hr))⟩
  rcases hl with hl | hl | hl
  · exact segIn_limit _ _ _ _ (.inl hl)
  · exact segIn_limit _ _ _ _ (.inr hl)
  · exact segIn_store _ _ _ _ hl

/-! ### Scalar loads and stores (R93) -/

/-- A scalar load through a LOCAL segment writes s[d] with the bytes at its address, extended (R93). -/
theorem sgoes_load {i : Instr} (n : Nat) (signed : Bool) {d a : BitVec 6} {sg : BitVec 3} {rx : BitVec 1} {imm : BitVec 8}
    {r : State → W64} (hx : ∀ s, exec i s = s.aloneS (semLoad n signed d a sg rx imm))
    (hr : ∀ s : State, extendTo n signed (Memory.read s.my.mem (s.la sg.toNat (s.smOff a imm n)) n) = r s) :
    SGoes i (fun s => s.segOk sg.toNat (s.smOff a imm n) n n .load ∧ s.my.bad (s.la sg.toNat (s.smOff a imm n)) n = false) fun s =>
      (s.touch s.cur.1 (s.la sg.toNat (s.smOff a imm n)) n).put (s.me.ws d.toNat (r s)) := by
  refine sgoes_of_done hx (fun s ⟨hseg, hbad⟩ => ?_) fun s u h ⟨hseg, hbad⟩ => ?_
  · rw [capture_smOff, capture_la, capture_segOk, capture_bad]
    exact ⟨hseg, hbad⟩
  · rw [semLoad, access_local _ _ _ hseg rfl, hbad, Core.rd, hr, ← touch_me u u.cur.1 (u.la sg.toNat (u.smOff a imm n)) n]
    exact done_put s _ _ (touch_able _ _ _ h) (Slot.ws_pc ..)

/-- A store leaves the slots of its core. -/
theorem slot_wr (x : Core) (a n v i : Nat) : (x.wr a n v).slot i = x.slot i := rfl

/-- A scalar store through a LOCAL segment writes the low bytes of s[d]; one of fewer than 4 bytes reads its word first (R19, R93). -/
theorem sgoes_store {i : Instr} (n : Nat) {d a : BitVec 6} {sg : BitVec 3} {rx : BitVec 1} {imm : BitVec 8}
    (hx : ∀ s, exec i s = s.aloneS (semStore n d a sg rx imm)) :
    SGoes i (fun s => s.segOk sg.toNat (s.smOff a imm n) n n .store
        ∧ (n < 4 → s.my.bad (s.la sg.toNat (s.smOff a imm n)) n = false)) fun s =>
      let q := if n < 4 then s.touch s.cur.1 (s.la sg.toNat (s.smOff a imm n)) n else s
      q.wentOn (q.my.wr (s.la sg.toNat (s.smOff a imm n)) n (s.rs d.toNat).toNat) (s.me.next s.me.pc) := by
  refine sgoes_of_done hx (fun s ⟨hseg, hbad⟩ => ?_) fun s u h ⟨hseg, hbad⟩ => ?_
  · rw [capture_smOff, capture_la, capture_segOk, capture_bad]
    exact ⟨hseg, hbad⟩
  · rw [semStore, access_local _ _ _ hseg rfl, if_neg (by simpa using hbad)]
    dsimp only
    split
    · rw [← touch_me u u.cur.1 (u.la sg.toNat (u.smOff a imm n)) n]
      exact done_okMy_same s _ _ (touch_able _ _ _ h) (slot_wr ..)
    · exact done_okMy_same s u _ h (slot_wr ..)

/-- A scalar load traps where Seg finds it at fault. -/
theorem trapsAsSeg_load {i : Instr} {s : State} (n : Nat) (signed : Bool) {d a : BitVec 6} {sg : BitVec 3} {rx : BitVec 1}
    {imm : BitVec 8} (hx : exec i s = s.aloneS (semLoad n signed d a sg rx imm)) : TrapsAsSeg i s sg.toNat n a imm .load :=
  trapsAsSeg_access hx fun _ => by unfold semLoad; exact ⟨_, _, _, rfl⟩

/-- A scalar store traps where Seg finds it at fault. -/
theorem trapsAsSeg_store {i : Instr} {s : State} (n : Nat) {d a : BitVec 6} {sg : BitVec 3} {rx : BitVec 1} {imm : BitVec 8}
    (hx : exec i s = s.aloneS (semStore n d a sg rx imm)) : TrapsAsSeg i s sg.toNat n a imm .store :=
  trapsAsSeg_access hx fun _ => by unfold semStore; exact ⟨_, _, _, rfl⟩

/-- Settles O13: loads and stores of each size, and the faults that each of them traps. -/
theorem loadsAndStores : Obligations.LoadsAndStores := by
  refine ⟨fun d a sg rx imm => ?_, fun d a sg rx imm s => ?_⟩
  · exact ⟨sgoes_load 1 false (fun _ => rfl) fun _ => rfl,
      sgoes_load 1 true (fun _ => rfl) fun _ => rfl,
      sgoes_load 2 false (fun _ => rfl) fun _ => rfl,
      sgoes_load 2 true (fun _ => rfl) fun _ => rfl,
      sgoes_load 4 false (fun _ => rfl) fun _ => rfl,
      sgoes_load 4 true (fun _ => rfl) fun _ => rfl,
      sgoes_load 8 false (fun _ => rfl) fun _ => rfl,
      sgoes_store 1 fun _ => rfl, sgoes_store 2 fun _ => rfl, sgoes_store 4 fun _ => rfl, sgoes_store 8 fun _ => rfl⟩
  · simp only [List.forall_mem_cons]
    exact ⟨trapsAsSeg_load 1 false rfl, trapsAsSeg_load 1 true rfl, trapsAsSeg_load 2 false rfl, trapsAsSeg_load 2 true rfl,
      trapsAsSeg_load 4 false rfl, trapsAsSeg_load 4 true rfl, trapsAsSeg_load 8 false rfl,
      trapsAsSeg_store 1 rfl, trapsAsSeg_store 2 rfl, trapsAsSeg_store 4 rfl, trapsAsSeg_store 8 rfl, by simp⟩

end Sys2Proof.Machine
end

section
/-! SUPPORT. Vector and indexed accesses of the local store (R94 to R96). -/

namespace Sys2Proof.Machine

/-! ### Registers that are no streams -/

/-- A capture leaves what is bound (R158, R306). -/
theorem capture_plain (s : State) (w : W32) (l : List Nat) : (s.capture w).plain l ↔ s.plain l := by
  simp only [State.plain, capture_bound, State.capture_cur]

/-- A vector result goes into a register that is no stream (R22). -/
theorem putV_plain {s : State} (cur : State) {r : Nat} (v : VReg) (m : W32) (h : s.bound s.cur.1 s.cur.2 r = none) :
    putV s cur r v m = cur.wv r v := by
  rw [putV, h]

/-! ### Whole registers and words in every lane (R94) -/

/-- An access that Seg allows has no address fault. -/
theorem segTrap_ok {s : State} {sg : Nat} {off : Int} {size align : Nat} {k : AccKind} (wide : Bool)
    (h : s.segOk sg off size align k) : s.segTrap sg off size align k wide = none := by
  rw [State.segTrap, seg_ok s sg off size align k wide false h]

/-- VLD fills a register that is no stream from 128 bytes (R94). -/
theorem semVld_local {s : State} {d : BitVec 5} {a : BitVec 6} {sg : BitVec 3} (rx : BitVec 1) {imm : BitVec 8}
    (hseg : s.segOk sg.toNat (s.smOff a imm 128) 128 4 .load) (hbad : s.my.bad (s.la sg.toNat (s.smOff a imm 128)) 128 = false)
    (hp : s.plain [d.toNat]) :
    semVld d a sg rx imm s = .ok ((s.touch s.cur.1 (s.la sg.toNat (s.smOff a imm 128)) 128).wv d.toNat
      (BitVec.ofNat 1024 (Memory.read s.my.mem (s.la sg.toNat (s.smOff a imm 128)) 128))) := by
  rw [semVld, segTrap_ok _ hseg, withOperands_plain _ _ _ _ _ _ _ (by simpa using hp), access_local _ _ _ hseg rfl, hbad]
  exact congrArg Res.ok (putV_plain _ _ _ (hp _ (List.mem_singleton_self _)))

/-- VLDB fills every lane of a register that is no stream with one word (R94). -/
theorem semVldb_local {s : State} {d : BitVec 5} {a : BitVec 6} {sg : BitVec 3} {imm : BitVec 8}
    (hseg : s.segOk sg.toNat (s.smOff a imm 4) 4 4 .load) (hbad : s.my.bad (s.la sg.toNat (s.smOff a imm 4)) 4 = false)
    (hp : s.plain [d.toNat]) :
    semVldb d a sg imm s = .ok ((s.touch s.cur.1 (s.la sg.toNat (s.smOff a imm 4)) 4).wv d.toNat
      (VReg.ofElems 32 fun _ => Memory.read s.my.mem (s.la sg.toNat (s.smOff a imm 4)) 4)) := by
  rw [semVldb, segTrap_ok _ hseg, withOperands_plain _ _ _ _ _ _ _ (by simpa using hp), access_local _ _ _ hseg rfl, hbad]
  exact congrArg Res.ok (putV_plain _ _ _ (hp _ (List.mem_singleton_self _)))

/-- A load of a whole register goes on, the words that it read corrected (R20, R94). -/
theorem sgoes_vload {i : Instr} (n : Nat) {k : State → Res} {d : BitVec 5} {a : BitVec 6} {sg : BitVec 3} {imm : BitVec 8}
    {r : State → VReg} (hx : ∀ s, exec i s = s.aloneS k)
    (hk : ∀ s : State, s.segOk sg.toNat (s.smOff a imm n) n 4 .load → s.my.bad (s.la sg.toNat (s.smOff a imm n)) n = false →
      s.plain [d.toNat] → k s = .ok ((s.touch s.cur.1 (s.la sg.toNat (s.smOff a imm n)) n).wv d.toNat (r s))) :
    SGoes i (fun s => s.segOk sg.toNat (s.smOff a imm n) n 4 .load ∧ s.my.bad (s.la sg.toNat (s.smOff a imm n)) n = false
        ∧ s.plain [d.toNat]) fun s =>
      (s.touch s.cur.1 (s.la sg.toNat (s.smOff a imm n)) n).put (s.me.wv d.toNat (r s)) := by
  refine sgoes_of_done hx (fun s hs => ?_) fun s u h ⟨hseg, hbad, hp⟩ => ?_
  · rwa [capture_smOff, capture_la, capture_segOk, capture_bad, capture_plain]
  · rw [hk u hseg hbad hp, ← touch_me u u.cur.1 (u.la sg.toNat (u.smOff a imm n)) n]
    exact done_put s _ _ (touch_able _ _ _ h) rfl

/-- VST stores v[d], which may be bound for reading (R94, R112). -/
theorem sgoes_vst (d : BitVec 5) (a : BitVec 6) (sg : BitVec 3) (rx : BitVec 1) (imm : BitVec 8) :
    SGoes (.vst d a sg rx imm) (fun s => s.segOk sg.toNat (s.smOff a imm 128) 128 4 .store
        ∧ ∀ u y, s.bound s.cur.1 s.cur.2 d.toNat = some (u, y) → y.write = false) fun s =>
      s.wentOn (s.my.wr (s.la sg.toNat (s.smOff a imm 128)) 128 (s.me.rv d.toNat).toNat) (s.me.next s.me.pc) := by
  refine sgoes_of_done (k := semVst d a sg rx imm) (fun _ => rfl) (fun s hs => ?_) fun s u h ⟨hseg, hread⟩ => ?_
  · simpa only [capture_smOff, capture_segOk, capture_bound, State.capture_cur] using hs
  · have hany : (u.bound u.cur.1 u.cur.2 d.toNat).any (fun e => e.2.write) = false := by
      cases hb : u.bound u.cur.1 u.cur.2 d.toNat with
      | none => rfl
      | some e => exact hread e.1 e.2 hb
    rw [semVst, if_neg (by rw [hany]; decide), access_local _ _ _ hseg rfl]
    exact done_okMy_same s u _ h (slot_wr ..)

/-- VST traps HANDLE where v[d] is bound for writing (R91, R112). -/
theorem traps_vst {d : BitVec 5} (a : BitVec 6) (sg : BitVec 3) (rx : BitVec 1) (imm : BitVec 8) {s : State} {u : Nat} {y : Stream}
    (hb : s.bound s.cur.1 s.cur.2 d.toNat = some (u, y)) (hy : y.write = true) :
    Traps (exec (.vst d a sg rx imm) s) s cHANDLE (hDetail 1 d.toNat) false := by
  refine aloneS_trap s (semVst d a sg rx imm) _ _ ?_
  rw [semVst, capture_bound, State.capture_cur, hb, if_pos (by simp [hy])]

/-! ### Indexed accesses (R95, R96) -/

/-- Elements that agree make one register (R31). -/
theorem ofElems_congr {w : Nat} {f g : Nat → Nat} (h : ∀ e, e < 1024 / w → f e = g e) : VReg.ofElems w f = VReg.ofElems w g := by
  have hpack (n : Nat) (hn : n ≤ 1024 / w) : packN w f n = packN w g n := by
    induction n with
    | zero => rfl
    | succ n ih => rw [packN, packN, ih (by omega), h n (by omega)]
  rw [VReg.ofElems, VReg.ofElems, hpack _ le_rfl]

/-- New lanes that agree where they are active make one register (R109). -/
theorem mergeElems_congr {m : W32} {old : VReg} {f g : Nat → Nat} (h : ∀ j ∈ laneList m, f j = g j) :
    mergeElems 32 m old f = mergeElems 32 m old g := by
  refine ofElems_congr fun e he => ?_
  split
  · next ha =>
    have hlane : active m 32 e = m.getLsbD e := by rw [active, if_neg (by decide), Nat.mul_div_cancel_left e (by decide)]
    exact h e (List.mem_filter.2 ⟨List.mem_range.2 (by omega), hlane ▸ ha⟩)
  · rfl

/-- Lanes that are all LOCAL and allowed have no trap (R95). -/
theorem laneTrap_eq_none {l : List Nat} {f : Nat → SegR} (h : ∀ j ∈ l, ∃ x, f j = .at x) : laneTrap l f = none := by
  induction l with
  | nil => rfl
  | cons j l ih =>
    obtain ⟨x, hx⟩ := h j List.mem_cons_self
    rw [laneTrap, List.foldl_cons, hx]
    exact ih fun k hk => h k (List.mem_cons_of_mem _ hk)

/-- Lanes that are all LOCAL and allowed have no trap, whether the index is there or not (R95). -/
theorem laneFault_eq_none (s : State) (vi : Nat) {m : W32} {f : Nat → SegR} (h : ∀ j ∈ laneList m, ∃ x, f j = .at x) :
    s.laneFault vi m f = none := by
  rw [State.laneFault, laneTrap_eq_none h, ite_self]

/-- Reads of a store without a single-bit error correct none (R20). -/
theorem foldl_touch_nil {s : State} {c : Nat} (h : (s.core c).err1 = []) (l : List Nat) :
    l.foldl (fun q x => q.touch c x 4) s = s := by
  induction l with
  | nil => rfl
  | cons x l ih => rw [List.foldl_cons, touch_nil s c x 4 h, ih]

/-- Stores leave the slots of their core. -/
theorem slots_foldl_wr (l : List Nat) (p v : Nat → Nat) (x : Core) : (l.foldl (fun y j => y.wr (p j) 4 (v j)) x).slots = x.slots := by
  induction l generalizing x with
  | nil => rfl
  | cons j l ih => rw [List.foldl_cons, ih]; rfl

/-- The byte offset of a lane of an indexed access (R95). -/
def State.laneOff (s : State) (a : BitVec 6) (vi : BitVec 5) (j : Nat) : Int :=
  (((s.rs a.toNat).toNat + 4 * VReg.elem (s.me.rv vi.toNat) 32 j : Nat) : Int)

/-- What an indexed access of the local store asks: no register a stream, no error in the store, and Seg allows every active lane. -/
def State.indexedOk (s : State) (d vi : BitVec 5) (a : BitVec 6) (sg m : BitVec 3) (kind : AccKind) : Prop :=
  s.plain [d.toNat, vi.toNat] ∧ s.my.err1 = [] ∧ s.my.err2 = []
    ∧ ∀ j ∈ laneList (s.me.rm m.toNat), s.segOk sg.toNat (s.laneOff a vi j) 4 4 kind

/-- A capture leaves what an indexed access asks (R158). -/
theorem capture_indexedOk (s : State) (w : W32) (d vi : BitVec 5) (a : BitVec 6) (sg m : BitVec 3) (kind : AccKind) :
    (s.capture w).indexedOk d vi a sg m kind ↔ s.indexedOk d vi a sg m kind := by
  obtain ⟨q, hq⟩ := my_capture s w
  simp only [State.indexedOk, State.laneOff, capture_plain, capture_me, capture_rs, capture_segOk, hq]

/-- The local address of an active lane of an indexed access. -/
theorem laneSeg_ok {s : State} {d vi : BitVec 5} {a : BitVec 6} {sg m : BitVec 3} {kind : AccKind} (act : Bool)
    (h : s.indexedOk d vi a sg m kind) : ∀ j ∈ laneList (s.me.rm m.toNat),
      s.laneSeg sg.toNat a (srcVal s act vi.toNat) kind j = .at (s.la sg.toNat (s.laneOff a vi j)) := by
  obtain ⟨hp, -, -, hseg⟩ := h
  intro j hj
  rw [State.laneSeg, srcVal_plain _ _ _ (hp _ (by simp))]
  exact seg_ok _ _ _ _ _ _ _ _ (hseg j hj)

/-- VLDX writes the active lanes of a register that is no stream, and says when the slot may issue again (R95, R96). -/
theorem semVldx_local {s : State} {d vi : BitVec 5} {a : BitVec 6} {sg m : BitVec 3} (rx : BitVec 1)
    (h : s.indexedOk d vi a sg m .load) :
    semVldx d a sg rx vi m s = .ok ((s.wv d.toNat (mergeElems 32 (s.me.rm m.toNat) (s.me.rv d.toNat) fun j =>
      Memory.read s.my.mem (s.la sg.toNat (s.laneOff a vi j)) 4)).banked
        ((laneList (s.me.rm m.toNat)).map fun j => s.la sg.toNat (s.laneOff a vi j))) := by
  have hat := laneSeg_ok (s.me.rm m.toNat != 0) h
  obtain ⟨hp, he1, he2, -⟩ := h
  unfold semVldx
  dsimp only
  generalize s.laneSeg sg.toNat a (srcVal s (s.me.rm m.toNat != 0) vi.toNat) .load = at_ at hat
  have haddr (j : Nat) (hj : j ∈ laneList (s.me.rm m.toNat)) : (at_ j).addr = s.la sg.toNat (s.laneOff a vi j) := by
    rw [hat j hj, SegR.addr]
  rw [laneFault_eq_none _ _ fun j hj => ⟨_, hat j hj⟩, withOperands_plain _ _ _ _ _ _ _ (fun r hr => hp r (by simp at hr ⊢; tauto))]
  have hfind : (laneList (s.me.rm m.toNat)).find? (fun j => s.my.bad (at_ j).addr 4) = none := by
    simp [bad_nil _ _ _ he2]
  rw [hfind]
  dsimp only
  rw [foldl_touch_nil he1, putV_plain _ _ _ (hp _ (by simp)), List.map_congr_left haddr,
    mergeElems_congr fun j hj => by rw [haddr j hj, Core.rd]]

/-- VSTX stores the active lanes of a register that is no stream in lane order, and says when the slot may issue again (R95, R96). -/
theorem semVstx_local {s : State} {d vi : BitVec 5} {a : BitVec 6} {sg m : BitVec 3} (rx : BitVec 1)
    (h : s.indexedOk d vi a sg m .store) :
    semVstx d a sg rx vi m s = .ok ((s.modMy fun x => (laneList (s.me.rm m.toNat)).foldl (fun x j =>
      x.wr (s.la sg.toNat (s.laneOff a vi j)) 4 (VReg.elem (s.me.rv d.toNat) 32 j)) x).banked
        ((laneList (s.me.rm m.toNat)).map fun j => s.la sg.toNat (s.laneOff a vi j))) := by
  have hat := laneSeg_ok (s.me.rm m.toNat != 0) h
  obtain ⟨hp, -, -, -⟩ := h
  unfold semVstx
  dsimp only
  generalize s.laneSeg sg.toNat a (srcVal s (s.me.rm m.toNat != 0) vi.toNat) .store = at_ at hat
  have haddr (j : Nat) (hj : j ∈ laneList (s.me.rm m.toNat)) : (at_ j).addr = s.la sg.toNat (s.laneOff a vi j) := by
    rw [hat j hj, SegR.addr]
  rw [laneFault_eq_none _ _ fun j hj => ⟨_, hat j hj⟩, withOperands_plain _ _ _ _ _ _ _ (fun r hr => hp r (by simp at hr ⊢; tauto)),
    srcVal_plain _ _ _ (hp _ (by simp)), List.map_congr_left haddr]
  have hfold : s.modMy (fun x => (laneList (s.me.rm m.toNat)).foldl (fun x j => x.wr (at_ j).addr 4 (VReg.elem (s.me.rv d.toNat) 32 j)) x)
      = s.modMy fun x => (laneList (s.me.rm m.toNat)).foldl (fun x j =>
        x.wr (s.la sg.toNat (s.laneOff a vi j)) 4 (VReg.elem (s.me.rv d.toNat) 32 j)) x :=
    modMy_congr (List.foldl_ext _ _ _ fun x j hj => by rw [haddr j hj])
  rw [hfold]

/-- A bundle that changes its core, but not its slot, and then the slot, but not the PC, goes on. -/
theorem done_okMyMe (s u : State) (f : Core → Core) (g : Slot → Slot) (h : u.Able) (hf : (f u.my).slot u.cur.2 = u.me) :
    s.done false (.ok ((u.modMy f).modMe g)) = .next (u.wentOn (f u.my) ((g u.me).next (g u.me).pc)) := by
  have hme : (u.modMy f).me = u.me := by rw [modMy_eq, me_setCore, hf]
  rw [done_ok s ((u.modMy f).modMe g) _ h, put_me (u.modMy f) h, hme, my_modMy, wentOn_modMy]

/-- VLDX of the local store (R95, R96). -/
theorem sgoes_vldx (d vi : BitVec 5) (a : BitVec 6) (sg m : BitVec 3) (rx : BitVec 1) :
    SGoes (.vldx d a sg rx vi m) (fun s => s.indexedOk d vi a sg m .load) fun s =>
      s.put { s.me.wv d.toNat (mergeElems 32 (s.me.rm m.toNat) (s.me.rv d.toNat) fun j =>
          Memory.read s.my.mem (s.la sg.toNat (s.laneOff a vi j)) 4) with
        gap := max 8 (bankLoad ((laneList (s.me.rm m.toNat)).map fun j => s.la sg.toNat (s.laneOff a vi j)) + 7) } := by
  refine sgoes_of_done (k := semVldx d a sg rx vi m) (fun _ => rfl) (fun s hs => (capture_indexedOk ..).2 hs) fun s u h hok => ?_
  rw [semVldx_local rx hok, State.banked, wv_eq, modMe_modMe u h]
  exact done_put s u _ h rfl

/-- VSTX of the local store (R95, R96). -/
theorem sgoes_vstx (d vi : BitVec 5) (a : BitVec 6) (sg m : BitVec 3) (rx : BitVec 1) :
    SGoes (.vstx d a sg rx vi m) (fun s => s.indexedOk d vi a sg m .store) fun s =>
      s.wentOn ((laneList (s.me.rm m.toNat)).foldl (fun x j =>
          x.wr (s.la sg.toNat (s.laneOff a vi j)) 4 (VReg.elem (s.me.rv d.toNat) 32 j)) s.my)
        { s.me with
          gap := max 8 (bankLoad ((laneList (s.me.rm m.toNat)).map fun j => s.la sg.toNat (s.laneOff a vi j)) + 7)
          pc := s.me.pc + 8 } := by
  refine sgoes_of_done (k := semVstx d a sg rx vi m) (fun _ => rfl) (fun s hs => (capture_indexedOk ..).2 hs) fun s u h hok => ?_
  rw [semVstx_local rx hok, State.banked]
  refine done_okMyMe s u _ _ h ?_
  rw [Core.slot, slots_foldl_wr]
  rfl

/-- Settles O14: loads and stores of whole registers, the store of a bound one, and indexed accesses. -/
theorem vectorAccess : Obligations.VectorAccess := by
  refine ⟨fun d a sg rx imm => ?_, fun d vi a sg m => ?_⟩
  · exact ⟨sgoes_vload 128 (fun _ => rfl) fun _ => semVld_local rx, sgoes_vload 4 (fun _ => rfl) fun _ => semVldb_local,
      sgoes_vst d a sg rx imm, fun _ _ _ => traps_vst a sg rx imm⟩
  · exact ⟨sgoes_vldx d vi a sg m 0, sgoes_vstx d vi a sg m 0⟩

end Sys2Proof.Machine
end

section
/-! SUPPORT. Full/empty operations on a LOCAL word (R97, R98), and fences (R274, R275). -/

namespace Sys2Proof.Machine

/-! ### Full/empty operations -/

/-- A capture leaves FE (R19, R158). -/
theorem capture_fe (s : State) (w : W32) : (s.capture w).my.fe = s.my.fe := by
  obtain ⟨q, hq⟩ := my_capture s w
  rw [hq]

/-- FE of a word is set (R19). -/
theorem setFe_true (x : Core) (a : Nat) : x.setFe a true = { x with fe := insertNat (a / 4) x.fe } := rfl

/-- FE of a word is cleared (R19). -/
theorem setFe_false (x : Core) (a : Nat) : x.setFe a false = { x with fe := x.fe.filter fun w => w ≠ a / 4 } := by
  simp only [Core.setFe, Bool.false_eq_true, if_false, bne, beq_eq_decide, ne_eq, decide_not]

/-- A bundle that changes its slot, but not the PC, and then what its core holds beside the slots, goes on. -/
theorem done_okMeMy (s u : State) (f : Slot → Slot) (g : Core → Core) (h : u.Able) (hp : (f u.me).pc = u.me.pc)
    (hg : g (u.my.setSlot u.cur.2 (f u.me)) = (g u.my).setSlot u.cur.2 (f u.me)) :
    s.done false (.ok ((u.modMe f).modMy g)) = .next (u.wentOn (g u.my) ((f u.me).next u.me.pc)) := by
  have hu : (u.modMe f).modMy g = u.setCore u.cur.1 ((g u.my).setSlot u.cur.2 (f u.me)) := by
    rw [modMy_eq, my_modMe, hg, modMe_eq]
    exact setCore_setCore ..
  rw [hu, done_ok s (u.setCore _ _) _ h, put_setCore, wentOn_setSlot, slot_setSlot_same _ h, hp]

section
variable {s : State} {take : Bool} {d a : BitVec 6} {sg : BitVec 3} {imm : BitVec 8} (hseg : s.segOk sg.toNat (s.smOff a imm 4) 4 4 .load)
  (hw : take = true → sgW (s.me.rsg sg.toNat) = true)
include hseg hw

/-- The local access of a synchronising load that Seg allows and, of one that empties its word, the descriptor's W (R97). -/
theorem semSync_local : semSync take d a sg imm s =
    if s.my.fe.contains (s.la sg.toNat (s.smOff a imm 4) / 4) = true then
      if s.my.bad (s.la sg.toNat (s.smOff a imm 4)) 4 then .trap cECCFATAL (offDetail (s.smOff a imm 4))
      else
        let q := (s.touch s.cur.1 (s.la sg.toNat (s.smOff a imm 4)) 4).ws d.toNat
          (BitVec.ofNat 64 (s.my.rd (s.la sg.toNat (s.smOff a imm 4)) 4))
        .ok (if take then q.modMy fun y => y.setFe (s.la sg.toNat (s.smOff a imm 4)) false else q)
    else
      .hold none ((s.modMy fun y => { y with feWait := y.feWait ++
        [⟨s.la sg.toNat (s.smOff a imm 4), take, s.cur.2, d.toNat, offDetail (s.smOff a imm 4), none⟩] }).await .parked
          (.fe (s.la sg.toNat (s.smOff a imm 4)))) := by
  have hmay : (!take || sgW (s.me.rsg sg.toNat)) = true := by
    cases take
    · rfl
    · simpa using hw rfl
  exact access_local (more := fun g => !take || sgW g) _ _ _ hseg hmay

/-- A synchronising load of a full word takes its value, and LDWTAKE empties it (R97, R98). -/
theorem semSync_full (hfull : s.my.fe.contains (s.la sg.toNat (s.smOff a imm 4) / 4) = true)
    (hbad : s.my.bad (s.la sg.toNat (s.smOff a imm 4)) 4 = false) :
    semSync take d a sg imm s =
      let q := (s.touch s.cur.1 (s.la sg.toNat (s.smOff a imm 4)) 4).ws d.toNat
        (BitVec.ofNat 64 (Memory.read s.my.mem (s.la sg.toNat (s.smOff a imm 4)) 4))
      .ok (if take then q.modMy fun y => y.setFe (s.la sg.toNat (s.smOff a imm 4)) false else q) := by
  rw [semSync_local hseg hw, if_pos hfull, hbad]
  rfl

/-- The slot of a synchronising load of an empty word waits among the word's waiters (R98). -/
theorem semSync_empty (hempty : ¬s.my.fe.contains (s.la sg.toNat (s.smOff a imm 4) / 4) = true) :
    semSync take d a sg imm s = .hold none ((s.modMy fun y => { y with feWait := y.feWait ++
      [⟨s.la sg.toNat (s.smOff a imm 4), take, s.cur.2, d.toNat, BitVec.ofInt 32 (s.smOff a imm 4), none⟩] }).await .parked
        (.fe (s.la sg.toNat (s.smOff a imm 4)))) := by
  rw [semSync_local hseg hw, if_neg hempty, offDetail_eq]

end

section
variable {i : Instr} {d a : BitVec 6} {sg : BitVec 3} {imm : BitVec 8}

/-- LDWSYNC of a full word (R97, R98). -/
theorem sgoes_sync_full (hx : ∀ s, exec i s = s.aloneS (semSync false d a sg imm)) :
    SGoes i (fun s => s.segOk sg.toNat (s.smOff a imm 4) 4 4 .load ∧ s.my.fe.contains (s.la sg.toNat (s.smOff a imm 4) / 4) = true
        ∧ s.my.bad (s.la sg.toNat (s.smOff a imm 4)) 4 = false) fun s =>
      (s.touch s.cur.1 (s.la sg.toNat (s.smOff a imm 4)) 4).put
        (s.me.ws d.toNat (BitVec.ofNat 64 (Memory.read s.my.mem (s.la sg.toNat (s.smOff a imm 4)) 4))) := by
  refine sgoes_of_done hx (fun s hs => ?_) fun s u h ⟨hseg, hfull, hbad⟩ => ?_
  · rwa [capture_smOff, capture_la, capture_segOk, capture_fe, capture_bad]
  · rw [semSync_full (take := false) hseg nofun hfull hbad, ← touch_me u u.cur.1 (u.la sg.toNat (u.smOff a imm 4)) 4]
    simp only [Bool.false_eq_true, if_false, ws_eq]
    exact done_put s _ _ (touch_able _ _ _ h) (Slot.ws_pc ..)

/-- LDWTAKE of a full word (R97, R98). -/
theorem sgoes_take_full (hx : ∀ s, exec i s = s.aloneS (semSync true d a sg imm)) :
    SGoes i (fun s => s.segOk sg.toNat (s.smOff a imm 4) 4 4 .load ∧ sgW (s.me.rsg sg.toNat) = true
        ∧ s.my.fe.contains (s.la sg.toNat (s.smOff a imm 4) / 4) = true ∧ s.my.bad (s.la sg.toNat (s.smOff a imm 4)) 4 = false) fun s =>
      let q := s.touch s.cur.1 (s.la sg.toNat (s.smOff a imm 4)) 4
      q.wentOn { q.my with fe := q.my.fe.filter fun w => w ≠ s.la sg.toNat (s.smOff a imm 4) / 4 }
        ((s.me.ws d.toNat (BitVec.ofNat 64 (Memory.read s.my.mem (s.la sg.toNat (s.smOff a imm 4)) 4))).next s.me.pc) := by
  refine sgoes_of_done hx (fun s hs => ?_) fun s u h ⟨hseg, hw, hfull, hbad⟩ => ?_
  · rwa [capture_smOff, capture_la, capture_segOk, capture_me, capture_fe, capture_bad]
  · rw [semSync_full hseg (fun _ => hw) hfull hbad, ← touch_me u u.cur.1 (u.la sg.toNat (u.smOff a imm 4)) 4]
    simp only [← setFe_false]
    exact done_okMeMy s _ _ _ (touch_able _ _ _ h) (Slot.ws_pc ..) rfl

/-- LDWSYNC or LDWTAKE of an empty word (R98). -/
theorem sgoes_sync_empty (take : Bool) (hx : ∀ s, exec i s = s.aloneS (semSync take d a sg imm)) {ok : State → Prop}
    (hcap : ∀ s, ok s → ok (s.capture 0))
    (hok : ∀ s, ok s → s.segOk sg.toNat (s.smOff a imm 4) 4 4 .load ∧ (take = true → sgW (s.me.rsg sg.toNat) = true)
      ∧ ¬s.my.fe.contains (s.la sg.toNat (s.smOff a imm 4) / 4) = true) :
    SGoes i ok fun s =>
      s.awaits { s.my with feWait := s.my.feWait ++
        [⟨s.la sg.toNat (s.smOff a imm 4), take, s.cur.2, d.toNat, BitVec.ofInt 32 (s.smOff a imm 4), none⟩] } .parked
        (.fe (s.la sg.toNat (s.smOff a imm 4))) := by
  refine sgoes_of_done hx hcap fun s u h ho => ?_
  obtain ⟨hseg, hw, hempty⟩ := hok u ho
  rw [semSync_empty hseg hw hempty]
  exact done_awaitsMy s u _ _ _ h rfl

/-- What an operation that stores through a LOCAL segment, and has no other fault, makes of its core. -/
theorem sgoes_fe {k : State → Res} (hx : ∀ s, exec i s = s.aloneS k) (f : State → Core → Core)
    (hk : ∀ s : State, s.segOk sg.toNat (s.smOff a imm 4) 4 4 .store → k s = .ok (s.modMy (f s)))
    (hf : ∀ s x, (f s x).slots = x.slots) :
    SGoes i (fun s => s.segOk sg.toNat (s.smOff a imm 4) 4 4 .store) fun s => s.wentOn (f s s.my) (s.me.next s.me.pc) := by
  refine sgoes_of_done hx (fun s hs => ?_) fun s u h hseg => ?_
  · rwa [capture_smOff, capture_segOk]
  · rw [hk u hseg]
    exact done_okMy_same s u _ h (by rw [Core.slot, hf]; rfl)

end

/-- STWFILL stores a word and fills it (R97). -/
theorem sgoes_stwfill (d a : BitVec 6) (sg : BitVec 3) (rx : BitVec 1) (imm : BitVec 8) :
    SGoes (.stwfill d a sg rx imm) (fun s => s.segOk sg.toNat (s.smOff a imm 4) 4 4 .store) fun s =>
      s.wentOn { s.my.wr (s.la sg.toNat (s.smOff a imm 4)) 4 (s.rs d.toNat).toNat with
        fe := insertNat (s.la sg.toNat (s.smOff a imm 4) / 4) s.my.fe } (s.me.next s.me.pc) :=
  sgoes_fe (k := semStwfill d a sg rx imm) (fun _ => rfl)
    (fun s x => (x.wr (s.la sg.toNat (s.smOff a imm 4)) 4 (s.rs d.toNat).toNat).setFe (s.la sg.toNat (s.smOff a imm 4)) true)
    (fun s hseg => by rw [semStwfill, access_local _ _ _ hseg rfl]) fun _ _ => rfl

/-- FESET fills a word (R97). -/
theorem sgoes_feset (a : BitVec 6) (sg : BitVec 3) (imm : BitVec 8) :
    SGoes (.feset a sg imm) (fun s => s.segOk sg.toNat (s.smOff a imm 4) 4 4 .store) fun s =>
      s.wentOn { s.my with fe := insertNat (s.la sg.toNat (s.smOff a imm 4) / 4) s.my.fe } (s.me.next s.me.pc) :=
  sgoes_fe (k := semFeset a sg imm) (fun _ => rfl) (fun s x => x.setFe (s.la sg.toNat (s.smOff a imm 4)) true)
    (fun s hseg => by rw [semFeset, semFeput, access_local _ _ _ hseg rfl]) fun _ _ => rfl

/-- FECLR empties a word (R97). -/
theorem sgoes_feclr (a : BitVec 6) (sg : BitVec 3) (imm : BitVec 8) :
    SGoes (.feclr a sg imm) (fun s => s.segOk sg.toNat (s.smOff a imm 4) 4 4 .store) fun s =>
      s.wentOn { s.my with fe := s.my.fe.filter fun w => w ≠ s.la sg.toNat (s.smOff a imm 4) / 4 } (s.me.next s.me.pc) := by
  simp only [← setFe_false]
  exact sgoes_fe (k := semFeclr a sg imm) (fun _ => rfl) (fun s x => x.setFe (s.la sg.toNat (s.smOff a imm 4)) false)
    (fun s hseg => by rw [semFeclr, semFeput, access_local _ _ _ hseg rfl]) fun _ _ => rfl

/-- FETEST writes FE of a word to a predicate (R97). -/
theorem sgoes_fetest (p : BitVec 3) (a : BitVec 6) (sg : BitVec 3) (imm : BitVec 8) :
    SGoes (.fetest p a sg imm) (fun s => s.segOk sg.toNat (s.smOff a imm 4) 4 4 .load) fun s =>
      s.put (s.me.wp p.toNat (s.my.fe.contains (s.la sg.toNat (s.smOff a imm 4) / 4))) := by
  refine sgoes_of_done (k := semFetest p a sg imm) (fun _ => rfl) (fun s hs => ?_) fun s u h hseg => ?_
  · rwa [capture_smOff, capture_segOk]
  · rw [semFetest, access_local _ _ _ hseg rfl]
    exact done_put s u _ h (Slot.wp_pc ..)

/-! ### Where cores stand -/

/-- Two states in which the hub's tables and every core's gang and rank are the same, so that cores stand in the same places (R351,
R352). -/
structure SamePlaces (t s : State) : Prop where
  hub : t.hub = s.hub
  gang : ∀ c, (t.core c).gang = (s.core c).gang
  rank : ∀ c, (t.core c).rank = (s.core c).rank

section
variable {s t : State} (h : SamePlaces t s)
include h

theorem SamePlaces.gangOf (c : Nat) : t.gangOf c = s.gangOf c := by simp only [State.gangOf, h.hub, h.gang]
theorem SamePlaces.rankEnt (c r : Nat) : t.rankEnt c r = s.rankEnt c r := by simp only [State.rankEnt, h.gangOf]
theorem SamePlaces.pos (c : Nat) : t.pos c = s.pos c := by simp only [State.pos, h.rankEnt, h.rank]
theorem SamePlaces.die (c : Nat) : t.die c = s.die c := by simp only [State.die, h.pos]
theorem SamePlaces.cluster (c : Nat) : t.cluster c = s.cluster c := by simp only [State.cluster, h.pos]

/-- A scope holds the same cores (R274). -/
theorem SamePlaces.inScope (c k e : Nat) : t.inScope c k e = s.inScope c k e := by
  unfold State.inScope
  simp only [h.die, h.cluster]

end

/-- A capture leaves the cores in their places (R158). -/
theorem samePlaces_capture (s : State) (w : W32) : SamePlaces (s.capture w) s where
  hub := State.capture_hub ..
  gang c := by obtain ⟨q, hq⟩ := core_capture s w c; rw [hq]
  rank c := by obtain ⟨q, hq⟩ := core_capture s w c; rw [hq]

/-- A capture leaves the relaxed accesses that are outstanding (R158, R270). -/
theorem capture_relaxedIn (s : State) (w : W32) (c i k : Nat) : (s.capture w).relaxedIn c i k = s.relaxedIn c i k := by
  obtain ⟨q, hq⟩ := core_capture s w c
  simp only [State.relaxedIn, (samePlaces_capture s w).inScope, State.slot, hq, Core.slot]

/-- A capture leaves what the engines work at (R158, R275). -/
theorem capture_enginesBusy (s : State) (w : W32) (c i : Nat) : (s.capture w).enginesBusy c i = s.enginesBusy c i := by
  obtain ⟨q, hq⟩ := core_capture s w c
  simp only [State.enginesBusy, hq]

/-! ### Fences (R275) -/

/-- A fence goes on where nothing that it fences is outstanding. -/
theorem sgoes_fences_done {i : Instr} {engines : Bool} {scope : BitVec 3} (hx : ∀ s, exec i s = s.aloneS (semFences engines scope))
    {ok : State → Prop} (hcap : ∀ s, ok s → ok (s.capture 0))
    (hok : ∀ s, ok s → s.relaxedIn s.cur.1 s.cur.2 scope.toNat = false ∧ (engines = true → s.enginesBusy s.cur.1 s.cur.2 = false)) :
    SGoes i ok fun s => s.put s.me := by
  refine sgoes_of_done hx hcap fun s u h ho => ?_
  obtain ⟨hout, heng⟩ := hok u ho
  rw [semFences, if_neg (by simpa [hout] using heng)]
  exact done_ok s u _ h

/-- A fence waits where something that it fences is outstanding. -/
theorem sgoes_fences_wait {i : Instr} {engines : Bool} {scope : BitVec 3} (hx : ∀ s, exec i s = s.aloneS (semFences engines scope))
    {ok : State → Prop} (hcap : ∀ s, ok s → ok (s.capture 0))
    (hok : ∀ s, ok s → s.relaxedIn s.cur.1 s.cur.2 scope.toNat = true ∨ (engines = true ∧ s.enginesBusy s.cur.1 s.cur.2 = true)) :
    SGoes i ok fun s => s.awaits s.my .parked (.fence scope.toNat engines) := by
  refine sgoes_of_done hx hcap fun s u h ho => ?_
  rw [semFences, if_pos (by simpa using hok u ho)]
  exact done_awaits s u _ _ h

/-- The wait of a fence ends when what it fences has completed. -/
theorem egoes_fenceComplete (c i k : Nat) (e : Bool) :
    EGoes (.fenceComplete c i) (fun s => (s.slot c i).held = .fence k e ∧ s.relaxedIn c i k = false
        ∧ (e = true → s.enginesBusy c i = false) ∧ (s.core c).directMma i = false) fun s =>
      s.setCore c (((s.core c).setSlot i (s.slot c i).wake).count 15 1) := by
  intro s ⟨hheld, hout, heng, hm⟩
  change Host.Outcome.next (evFenceComplete c i s) = _
  have hdone : s.fenceDone c i = true := by
    cases e <;> simp_all [State.fenceDone]
  rw [evFenceComplete, hdone, hheld]
  exact congrArg _ (wake_eq s c i hm)

/-- Settles O15: the full/empty operations, of full words and of empty ones; then the fences. -/
theorem fullEmptyAndFences : Obligations.FullEmptyAndFences := by
  refine ⟨fun d a p sg rx imm => ?_, fun scope c i => ?_⟩
  · refine ⟨sgoes_sync_full fun _ => rfl, sgoes_sync_empty false (fun _ => rfl) (fun s hs => ?_) fun s hs => ⟨hs.1, nofun, hs.2⟩,
      sgoes_take_full fun _ => rfl, sgoes_sync_empty true (fun _ => rfl) (fun s hs => ?_) fun s hs => ⟨hs.1, fun _ => hs.2.1, hs.2.2⟩,
      sgoes_stwfill d a sg rx imm, sgoes_feset a sg imm, sgoes_feclr a sg imm, sgoes_fetest p a sg imm⟩
    · simpa only [capture_segOk, capture_la, capture_rs, capture_fe] using hs
    · simpa only [capture_segOk, capture_la, capture_rs, capture_fe, capture_me] using hs
  · refine ⟨sgoes_fences_done (engines := false) (fun _ => rfl) (fun s hs => ?_) fun s hs => ⟨hs, nofun⟩,
      sgoes_fences_done (engines := true) (fun _ => rfl) (fun s hs => ?_) fun s hs => ⟨hs.1, fun _ => hs.2⟩,
      sgoes_fences_wait (engines := false) (fun _ => rfl) (fun s hs => ?_) fun s hs => .inl hs,
      sgoes_fences_wait (engines := true) (fun _ => rfl) (fun s hs => ?_) fun s hs => hs.imp_right fun he => ⟨rfl, he⟩,
      egoes_fenceComplete c i⟩
    all_goals simpa only [State.capture_cur, capture_relaxedIn, capture_enginesBusy] using hs

end Sys2Proof.Machine
end

section
/-! SUPPORT. Accesses to another core (R262 to R265, R270, R273, R274): where Seg finds the home, and what the request comes to. -/

namespace Sys2Proof.Machine

/-! ### The network between cores that stand in the same places -/

section
variable {s t : State} (h : SamePlaces t s)
include h

theorem SamePlaces.rankCore (c r : Nat) : t.rankCore c r = s.rankCore c r := by simp only [State.rankCore, h.rankEnt]
theorem SamePlaces.reroutedPath (a b : Nat) : t.reroutedPath a b = s.reroutedPath a b := by
  simp only [State.reroutedPath, State.rerouted, State.link, h.die, h.hub]
theorem SamePlaces.oneWay (a b : Nat) : t.oneWay a b = s.oneWay a b := by
  simp only [State.oneWay, State.latBound, State.latClass, h.die, h.cluster, h.reroutedPath]
theorem SamePlaces.inTransit (a b : Nat) : t.inTransit a b = s.inTransit a b := by simp only [State.inTransit, h.gangOf]
theorem SamePlaces.inOrder (a b : Nat) (m : NetMsg) : t.inOrder a b m = s.inOrder a b m := by
  simp only [State.inOrder, State.overtaken, State.link, h.die, h.hub, h.reroutedPath]
theorem SamePlaces.sameOrder (b : Nat) (r : Req) : t.sameOrder b r = s.sameOrder b r := by
  funext e
  simp only [State.sameOrder, h.inOrder]

end

/-- A change of the executing slot leaves the cores in their places. -/
theorem samePlaces_modMe (s : State) (f : Slot → Slot) : SamePlaces (s.modMe f) s := by
  have hcore (c : Nat) : ∃ l, (s.modMe f).core c = { s.core c with slots := l } := by
    by_cases hc : c = s.cur.1
    · subst hc; exact ⟨_, core_setCore_same ..⟩
    · exact ⟨(s.core c).slots, by rw [modMe_eq, core_setCore_other s hc]⟩
  constructor
  · rfl
  · intro c; obtain ⟨l, hl⟩ := hcore c; rw [hl]
  · intro c; obtain ⟨l, hl⟩ := hcore c; rw [hl]

/-- A request leaves every core as it is (R264). -/
theorem core_sendReq (s : State) (home : Nat) (r : Req) (c : Nat) : (s.sendReq home r).core c = s.core c := by
  unfold State.sendReq State.sendTo
  split <;> rfl

/-- A request leaves the executing slot's name as it is (R264). -/
theorem cur_sendReq (s : State) (home : Nat) (r : Req) : (s.sendReq home r).cur = s.cur := by
  unfold State.sendReq State.sendTo
  split <;> rfl

/-- A request leaves the executing core and its slot as they are (R264). -/
theorem my_sendReq (s : State) (home : Nat) (r : Req) : (s.sendReq home r).my = s.my := by
  rw [State.my, cur_sendReq, core_sendReq, State.my]
theorem me_sendReq (s : State) (home : Nat) (r : Req) : (s.sendReq home r).me = s.me := by
  rw [me_eq, my_sendReq, cur_sendReq, me_eq]
theorem able_sendReq {s : State} (home : Nat) (r : Req) (h : s.Able) : (s.sendReq home r).Able := by
  rwa [State.Able, cur_sendReq]

/-- A request that leaves after a change of the executing slot is the request that leaves before it (R264). -/
theorem sendReq_modMe (s : State) (f : Slot → Slot) (home : Nat) (r : Req) :
    (s.modMe f).sendReq home r = (s.sendReq home r).modMe f := by
  have hp := samePlaces_modMe s f
  unfold State.sendReq State.sendTo
  rw [hp.inTransit, hp.oneWay, hp.sameOrder]
  split <;> rfl

/-! ### What a request comes to (R265, R270) -/

/-- The operations of synchronising loads (R97). -/
def isSyncOp : ReqOp → Bool
  | .sync _ => true
  | _ => false

/-- The state in which a relaxed request has left under its number (R270). -/
def State.sentRelaxed (s : State) (home : Nat) (q : Req) : State :=
  State.sendReq { s with nonce := s.nonce + 1 } home { q with relaxed := true, id := s.nonce + 1 }

/-- A slot with one more relaxed access outstanding (R270). -/
def Slot.outstanding (t : Slot) (id home : Nat) (q : Req) : Slot :=
  { t with relaxed := t.relaxed ++ [⟨id, home, some q.op, q.d, q.off⟩] }

section
variable (s : State) (home : Nat) (q : Req)

/-- The slot of an access that is not relaxed waits for the reply (R265). -/
theorem request_parks (hc : q.src = s.cur.1) (hi : q.slot = s.cur.2) (hr : q.relaxed = false) (h0 : q.id = 0) :
    s.request false home q.addr q.op q.off q.d q.data q.data2
      = .hold none ((s.sendReq home q).await .parked (.remote home (isSyncOp q.op))) := by
  obtain ⟨src, slot, relaxed, id, op, addr, off, d, data, data2⟩ := q
  subst hc hi hr h0
  cases op <;> rfl

/-- A relaxed access goes out while fewer than eight are outstanding (R270). -/
theorem request_relaxed (hc : q.src = s.cur.1) (hi : q.slot = s.cur.2) (h : s.me.relaxed.length < 8) :
    s.request true home q.addr q.op q.off q.d q.data q.data2
      = .ok ((s.sentRelaxed home q).modMe fun t => t.outstanding (s.nonce + 1) home q) := by
  obtain ⟨src, slot, relaxed, id, op, addr, off, d, data, data2⟩ := q
  subst hc hi
  unfold State.request
  rw [if_pos rfl, if_neg (by omega)]
  exact congrArg Res.ok (sendReq_modMe ..)

/-- A relaxed access issues afresh where eight are outstanding (R270). -/
theorem request_full (h : s.me.relaxed.length ≥ 8) :
    s.request true home q.addr q.op q.off q.d q.data q.data2 = .again .relaxFull := by
  unfold State.request
  rw [if_pos rfl, if_pos h]

end

/-- A bundle that waits for a reply. -/
theorem done_parks (s u : State) (home : Nat) (q : Req) (a : Held) (h : u.Able) :
    s.done false (.hold none ((u.sendReq home q).await .parked a)) = .next ((u.sendReq home q).awaits u.my .parked a) := by
  rw [done_awaits s _ _ _ (able_sendReq home q h), my_sendReq]

/-- A bundle whose relaxed request has left goes on. -/
theorem done_relaxed (s u : State) (home : Nat) (q : Req) (h : u.Able) :
    s.done false (.ok ((u.sentRelaxed home q).modMe fun t => t.outstanding (u.nonce + 1) home q))
      = .next ((u.sentRelaxed home q).put (u.me.outstanding (u.nonce + 1) home q)) := by
  have hme : (u.sentRelaxed home q).me = u.me := me_sendReq ..
  rw [← hme]
  exact done_put s _ _ (able_sendReq _ _ h) rfl

/-- A bundle that issues afresh when fewer relaxed accesses are outstanding. -/
theorem done_relaxFull (s : State) (h : s.Able) : s.done false (.again .relaxFull)
    = .next (s.modMe fun t => { t with st := .parked, held := .relaxFull, npc := t.pc }) := by
  rw [done_again, State.await, modMe_modMe s h]

/-! ### Where Seg finds the home (R262, R263) -/

/-- Seg finds an access aligned, within its limit, allowed and through a CORE or POOL segment; its bytes lie at `y` of core `home`. -/
def State.farOk (s : State) (sg : Nat) (off : Int) (n align : Nat) (k : AccKind) (whole : Bool) (home y : Nat) : Prop :=
  let g := s.me.rsg sg
  let x := ((sgBase g : Int) + off).toNat
  let q := x / 4 / s.my.gsize
  off % align = 0 ∧ 0 ≤ off ∧ off + n - 1 ≤ sgLimit g ∧ sgRights g k = true
    ∧ (sgSpace g = 2 ∧ sgRank g < s.my.gsize ∧ x + n ≤ 0x100000 ∧ home = s.rankCore s.cur.1 (sgRank g) ∧ y = x
      ∨ sgSpace g = 3 ∧ n ≤ 4 ∧ whole = false ∧ x + n ≤ s.my.gsize * s.my.psize
        ∧ home = s.rankCore s.cur.1 ((x / 4 % s.my.gsize + q * 40503 % 2 ^ 16) % s.my.gsize)
        ∧ y = 0x100000 - s.my.psize + 4 * q + x % 4)

/-- Seg answers the home of such an access. -/
theorem seg_far {s : State} {sg : Nat} {off : Int} {n align : Nat} {k : AccKind} {whole : Bool} {home y : Nat}
    (h : s.farOk sg off n align k whole home y) (hk : k ≠ .fetch) : s.seg sg off n align k whole false = .remote home y := by
  obtain ⟨halign, hlow, hlimit, hright, hspace⟩ := h
  have hlim : ¬(decide (off < 0) || decide (off + n - 1 > sgLimit (s.me.rsg sg))) = true := by
    simp only [Bool.or_eq_true, decide_eq_true_eq]; omega
  unfold State.seg segRemote
  rw [if_neg (by simp [halign])]
  rcases hspace with ⟨hs, hrank, hstore, rfl, rfl⟩ | ⟨hs, hn, rfl, hpool, rfl, rfl⟩
  · have hin : ¬(sgRank (s.me.rsg sg) ≥ s.my.gsize ∨ (sgBase (s.me.rsg sg) : Int) + off + n - 1 > 0xFFFFF) := by omega
    simp only [State.my] at hin
    simp [hs, hk, hlim, hin, hright]
  · have hin : ¬(sgBase (s.me.rsg sg) : Int) + off + n - 1 ≥ s.my.gsize * s.my.psize := by
      have : (((sgBase (s.me.rsg sg) + off).toNat + n : Nat) : Int) ≤ s.my.gsize * s.my.psize := by exact_mod_cast hpool
      omega
    simp only [State.my] at hin
    simp [hs, hk, hlim, hin, hright, Nat.not_lt.2 hn, poolHome]
    exact ⟨rfl, rfl⟩

/-- A memory instruction whose access goes to another core sends its request there. -/
theorem access_far {s : State} {sg : Nat} {off : Int} {n align : Nat} {k : AccKind} {whole : Bool} {home y : Nat} {more : W128 → Bool}
    (near : Nat → Res) (far : Nat → Nat → Res) (h : s.farOk sg off n align k whole home y) (hk : k ≠ .fetch)
    (hm : more (s.me.rsg sg) = true) : s.access sg off n align k whole more near far = far home y := by
  unfold State.access
  rw [seg_far h hk]
  simp [hm]

/-- An access that goes to another core has no address fault. -/
theorem segTrap_far {s : State} {sg : Nat} {off : Int} {n align : Nat} {k : AccKind} {whole : Bool} {home y : Nat}
    (h : s.farOk sg off n align k whole home y) (hk : k ≠ .fetch) : s.segTrap sg off n align k whole = none := by
  rw [State.segTrap, seg_far h hk]

/-! ### The requests of loads, stores and full/empty operations -/

section
variable {s : State} {d a : BitVec 6} {v : BitVec 5} {sg p : BitVec 3} {rx : BitVec 1} {imm : BitVec 8} {home y : Nat}

theorem semLoad_far {n : Nat} {signed : Bool} (h : s.farOk sg.toNat (s.smOff a imm n) n n .load false home y) :
    semLoad n signed d a sg rx imm s
      = s.request (rx = 1) home y (.load n signed) (BitVec.ofInt 32 (s.smOff a imm n)) d.toNat 0 0 := by
  rw [semLoad, access_far _ _ h nofun rfl, offDetail_eq]

theorem semStore_far {n : Nat} (h : s.farOk sg.toNat (s.smOff a imm n) n n .store false home y) :
    semStore n d a sg rx imm s = s.request (rx = 1) home y (.store n) (BitVec.ofInt 32 (s.smOff a imm n)) 0
      (BitVec.ofNat 1024 (s.rs d.toNat).toNat) 0 := by
  rw [semStore, access_far _ _ h nofun rfl, offDetail_eq]

theorem semStwfill_far (h : s.farOk sg.toNat (s.smOff a imm 4) 4 4 .store false home y) :
    semStwfill d a sg rx imm s = s.request (rx = 1) home y .fill (BitVec.ofInt 32 (s.smOff a imm 4)) 0
      (BitVec.ofNat 1024 (s.rs d.toNat).toNat) 0 := by
  rw [semStwfill, access_far _ _ h nofun rfl, offDetail_eq]

theorem semVld_far (h : s.farOk sg.toNat (s.smOff a imm 128) 128 4 .load true home y) (hp : s.plain [v.toNat]) :
    semVld v a sg rx imm s = s.request (rx = 1) home y .vload (BitVec.ofInt 32 (s.smOff a imm 128)) v.toNat 0 0 := by
  rw [semVld, segTrap_far h nofun, withOperands_plain _ _ _ _ _ _ _ (by simpa using hp), access_far _ _ h nofun rfl, offDetail_eq]

theorem semVst_far (h : s.farOk sg.toNat (s.smOff a imm 128) 128 4 .store true home y) (hp : s.plain [v.toNat]) :
    semVst v a sg rx imm s = s.request (rx = 1) home y .vstore (BitVec.ofInt 32 (s.smOff a imm 128)) 0 (s.me.rv v.toNat) 0 := by
  rw [semVst, hp _ (List.mem_singleton_self _), if_neg (by simp), access_far _ _ h nofun rfl, offDetail_eq]

theorem semVldb_far (h : s.farOk sg.toNat (s.smOff a imm 4) 4 4 .load true home y) (hp : s.plain [v.toNat]) :
    semVldb v a sg imm s = s.request false home y .vbcast (BitVec.ofInt 32 (s.smOff a imm 4)) v.toNat 0 0 := by
  rw [semVldb, segTrap_far h nofun, withOperands_plain _ _ _ _ _ _ _ (by simpa using hp), access_far _ _ h nofun rfl, offDetail_eq]

theorem semSync_far {take : Bool} (h : s.farOk sg.toNat (s.smOff a imm 4) 4 4 .load false home y)
    (hw : take = true → sgW (s.me.rsg sg.toNat) = true) :
    semSync take d a sg imm s = s.request false home y (.sync take) (BitVec.ofInt 32 (s.smOff a imm 4)) d.toNat 0 0 := by
  have hmay : (!take || sgW (s.me.rsg sg.toNat)) = true := by
    cases take
    · rfl
    · simpa using hw rfl
  rw [semSync, access_far (more := fun g => !take || sgW g) _ _ h nofun hmay, offDetail_eq]

theorem semFeput_far {full : Bool} (h : s.farOk sg.toNat (s.smOff a imm 4) 4 4 .store false home y) :
    semFeput full a sg imm s
      = s.request false home y (if full then .feSet else .feClr) (BitVec.ofInt 32 (s.smOff a imm 4)) 0 0 0 := by
  rw [semFeput, access_far _ _ h nofun rfl, offDetail_eq]

theorem semFetest_far (h : s.farOk sg.toNat (s.smOff a imm 4) 4 4 .load false home y) :
    semFetest p a sg imm s = s.request false home y .feTest (BitVec.ofInt 32 (s.smOff a imm 4)) p.toNat 0 0 := by
  rw [semFetest, access_far _ _ h nofun rfl, offDetail_eq]

end

/-- What a result comes to whose relaxed request acquires: the slot waits for its own reply (R274). -/
def Res.acquiring (acq : Bool) (id : Nat) : Res → Res
  | .ok q => if acq then .hold none (q.await .parked (.acquire id)) else .ok q
  | r => r

/-- A result that does not acquire is as it was. -/
theorem acquiring_false (id : Nat) (r : Res) : r.acquiring false id = r := by
  cases r <;> rfl

/-- A bundle whose relaxed request has left, and that waits for its own reply (R274). -/
theorem done_acquire (s u : State) (home : Nat) (q : Req) (h : u.Able) :
    s.done false (.hold none
        (((u.sentRelaxed home q).modMe fun t => t.outstanding (u.nonce + 1) home q).await .parked (.acquire (u.nonce + 1))))
      = .next ((u.sentRelaxed home q).wentOn u.my { u.me.outstanding (u.nonce + 1) home q with
          st := .parked, held := .acquire (u.nonce + 1), npc := u.me.pc + 8 }) := by
  have ha : (u.sentRelaxed home q).Able := able_sendReq _ _ h
  have hmy : (u.sentRelaxed home q).my = u.my := my_sendReq ..
  have hme : (u.sentRelaxed home q).me = u.me := me_sendReq ..
  rw [done_awaits s _ _ _ ((by simpa using ha) : ((u.sentRelaxed home q).modMe _).Able), State.awaits, me_modMe _ ha, my_modMe,
    wentOn_modMe, wentOn_setSlot, hmy, hme]
  rfl

/-- What an access to another core comes to (R265, R270, R274), from the state `u` in which its request is made: the slot waits for the
reply of one that is not relaxed; a relaxed one goes on, or waits for its own reply where it acquires, while fewer than eight are
outstanding, and issues afresh where they are. -/
theorem exec_request {i : BitVec 1 → Instr} {k : BitVec 1 → State → Res} {s u : State} {home : Nat} (acq : Bool) (q : Req)
    (hs : s.Able) (hu : u.Able) (hx : ∀ rx, exec (i rx) s = s.aloneS (k rx))
    (hk : ∀ rx, k rx (s.capture 0)
      = (u.request (rx = 1) home q.addr q.op q.off q.d q.data q.data2).acquiring acq (u.nonce + 1))
    (hc : q.src = u.cur.1) (hi : q.slot = u.cur.2) (hr : q.relaxed = false) (h0 : q.id = 0) :
    exec (i 0) s = .next ((u.sendReq home q).awaits u.my .parked (.remote home (isSyncOp q.op)))
      ∧ (u.me.relaxed.length < 8 →
        (acq = false → exec (i 1) s = .next ((u.sentRelaxed home q).put (u.me.outstanding (u.nonce + 1) home q)))
        ∧ (acq = true → exec (i 1) s = .next ((u.sentRelaxed home q).wentOn u.my { u.me.outstanding (u.nonce + 1) home q with
            st := .parked, held := .acquire (u.nonce + 1), npc := u.me.pc + 8 })))
      ∧ (u.me.relaxed.length ≥ 8 →
        exec (i 1) s = .next (s.modMe fun t => { t with st := .parked, held := .relaxFull, npc := t.pc })) := by
  have hexec (rx : BitVec 1) : exec (i rx) s
      = s.done false ((u.request (rx = 1) home q.addr q.op q.off q.d q.data q.data2).acquiring acq (u.nonce + 1)) := by
    rw [hx, State.aloneS, hk]
  refine ⟨?_, fun hlen => ?_, fun hlen => ?_⟩
  · rw [hexec, decide_eq_false (by decide), request_parks _ _ _ hc hi hr h0]
    exact done_parks s u home q _ hu
  · rw [hexec, decide_eq_true rfl, request_relaxed _ _ _ hc hi hlen]
    refine ⟨fun ha => ?_, fun ha => ?_⟩
    · rw [ha, acquiring_false]
      exact done_relaxed s u home q hu
    · rw [ha, Res.acquiring, if_pos rfl]
      exact done_acquire s u home q hu
  · rw [hexec, decide_eq_true rfl, request_full _ _ _ hlen]
    exact done_relaxFull s hs

/-- The request of the executing slot for the bytes at `y` of another core, under an offset (R264). -/
def State.farReq (s : State) (y : Nat) (op : ReqOp) (off : Int) (r : Nat) (x : VReg) (z : W64) : Req :=
  ⟨s.cur.1, s.cur.2, false, 0, op, y, BitVec.ofInt 32 off, r, x, z⟩

/-- What an access to another core with no order of its own comes to, not relaxed and relaxed, from state `s0` (R265, R270). -/
def RemoteOutcome (i : BitVec 1 → Instr) (s0 : State) (home : Nat) (q : Req) : Prop :=
  let s := s0.capture 0
  exec (i 0) s0 = .next ((s.sendReq home q).awaits s.my .parked (.remote home (isSyncOp q.op)))
    ∧ (s.me.relaxed.length < 8 → exec (i 1) s0 = .next ((s.sentRelaxed home q).put (s.me.outstanding (s.nonce + 1) home q)))
    ∧ (s.me.relaxed.length ≥ 8 →
      exec (i 1) s0 = .next (s0.modMe fun t => { t with st := .parked, held := .relaxFull, npc := t.pc }))

section
variable {i : BitVec 1 → Instr} {s0 : State} {d a : BitVec 6} {v : BitVec 5} {sg p : BitVec 3} {imm : BitVec 8} {home y : Nat} (h : s0.Able)
include h

/-- An S syllable whose result is its request. -/
theorem remoteOutcome_of {k : BitVec 1 → State → Res} {op : ReqOp} {off : Int} {r : Nat} {x : VReg} {z : W64}
    (hx : ∀ rx, exec (i rx) s0 = s0.aloneS (k rx))
    (hk : ∀ rx, k rx (s0.capture 0) = (s0.capture 0).request (rx = 1) home y op (BitVec.ofInt 32 off) r x z) :
    RemoteOutcome i s0 home ((s0.capture 0).farReq y op off r x z) := by
  obtain ⟨hparks, hsent, hfull⟩ := exec_request false ((s0.capture 0).farReq y op off r x z) h ((capture_able s0 0).2 h) hx
    (fun rx => (hk rx).trans (acquiring_false ..).symm) rfl rfl rfl rfl
  exact ⟨hparks, fun hlen => (hsent hlen).1 rfl, hfull⟩

theorem remoteOutcome_load (n : Nat) (signed : Bool) (hx : ∀ rx, exec (i rx) s0 = s0.aloneS (semLoad n signed d a sg rx imm))
    (hf : (s0.capture 0).farOk sg.toNat ((s0.capture 0).smOff a imm n) n n .load false home y) :
    RemoteOutcome i s0 home ((s0.capture 0).farReq y (.load n signed) ((s0.capture 0).smOff a imm n) d.toNat 0 0) :=
  remoteOutcome_of h hx fun _ => semLoad_far hf

theorem remoteOutcome_store (n : Nat) (hx : ∀ rx, exec (i rx) s0 = s0.aloneS (semStore n d a sg rx imm))
    (hf : (s0.capture 0).farOk sg.toNat ((s0.capture 0).smOff a imm n) n n .store false home y) :
    RemoteOutcome i s0 home ((s0.capture 0).farReq y (.store n) ((s0.capture 0).smOff a imm n) 0
      (BitVec.ofNat 1024 ((s0.capture 0).rs d.toNat).toNat) 0) :=
  remoteOutcome_of h hx fun _ => semStore_far hf

theorem remoteOutcome_stwfill (hf : (s0.capture 0).farOk sg.toNat ((s0.capture 0).smOff a imm 4) 4 4 .store false home y) :
    RemoteOutcome (.stwfill d a sg · imm) s0 home ((s0.capture 0).farReq y .fill ((s0.capture 0).smOff a imm 4) 0
      (BitVec.ofNat 1024 ((s0.capture 0).rs d.toNat).toNat) 0) :=
  remoteOutcome_of h (k := fun rx => semStwfill d a sg rx imm) (fun _ => rfl) fun _ => semStwfill_far hf

theorem remoteOutcome_vld (hf : (s0.capture 0).farOk sg.toNat ((s0.capture 0).smOff a imm 128) 128 4 .load true home y)
    (hp : (s0.capture 0).plain [v.toNat]) :
    RemoteOutcome (.vld v a sg · imm) s0 home ((s0.capture 0).farReq y .vload ((s0.capture 0).smOff a imm 128) v.toNat 0 0) :=
  remoteOutcome_of h (k := fun rx => semVld v a sg rx imm) (fun _ => rfl) fun _ => semVld_far hf hp

theorem remoteOutcome_vst (hf : (s0.capture 0).farOk sg.toNat ((s0.capture 0).smOff a imm 128) 128 4 .store true home y)
    (hp : (s0.capture 0).plain [v.toNat]) :
    RemoteOutcome (.vst v a sg · imm) s0 home
      ((s0.capture 0).farReq y .vstore ((s0.capture 0).smOff a imm 128) 0 ((s0.capture 0).me.rv v.toNat) 0) :=
  remoteOutcome_of h (k := fun rx => semVst v a sg rx imm) (fun _ => rfl) fun _ => semVst_far hf hp

/-- The access of an S syllable that is never relaxed. -/
theorem exec_parks {i : Instr} {k : State → Res} {op : ReqOp} {off : Int} {r : Nat} {x : VReg} {z : W64} (hx : exec i s0 = s0.aloneS k)
    (hk : k (s0.capture 0) = (s0.capture 0).request false home y op (BitVec.ofInt 32 off) r x z) :
    exec i s0 = .next (((s0.capture 0).sendReq home ((s0.capture 0).farReq y op off r x z)).awaits (s0.capture 0).my .parked
      (.remote home (isSyncOp op))) := by
  rw [hx, State.aloneS, hk, show (s0.capture 0).request false home y op (BitVec.ofInt 32 off) r x z = _ from
    request_parks _ _ ((s0.capture 0).farReq y op off r x z) rfl rfl rfl rfl]
  exact done_parks s0 _ home _ _ ((capture_able s0 0).2 h)

end

/-! ### Atomics (R273, R274) -/

/-- The state in which an atomic's request is made: a home outside its scope has set SCOPEMISS (R274). -/
def State.scoped (s : State) (scope home : Nat) : State :=
  if s.inScope s.cur.1 scope home then s else s.modMe fun t => { t with sticky := t.sticky ||| 64 }

section
variable (s : State) (scope home : Nat)

theorem scoped_cur : (s.scoped scope home).cur = s.cur := by unfold State.scoped; split <;> rfl
theorem scoped_nonce : (s.scoped scope home).nonce = s.nonce := by unfold State.scoped; split <;> rfl

/-- SCOPEMISS is a sticky flag of the slot alone (R27). -/
theorem scoped_me (h : s.Able) : ∃ x, (s.scoped scope home).me = { s.me with sticky := x } := by
  unfold State.scoped
  split
  · exact ⟨_, rfl⟩
  · exact ⟨_, me_modMe s h _⟩

theorem scoped_samePlaces : SamePlaces (s.scoped scope home) s := by
  unfold State.scoped
  split
  · exact ⟨rfl, fun _ => rfl, fun _ => rfl⟩
  · exact samePlaces_modMe s _

theorem scoped_sizes : (s.scoped scope home).my.gsize = s.my.gsize ∧ (s.scoped scope home).my.psize = s.my.psize := by
  unfold State.scoped
  split
  · exact ⟨rfl, rfl⟩
  · rw [my_modMe]; exact ⟨rfl, rfl⟩

theorem scoped_rs (h : s.Able) (r : Nat) : (s.scoped scope home).rs r = s.rs r := by
  obtain ⟨x, hx⟩ := scoped_me s scope home h
  rw [State.rs, hx]
  rfl

/-- SCOPEMISS leaves where Seg finds an access. -/
theorem scoped_farOk (h : s.Able) {sg n align y : Nat} {off : Int} {k : AccKind} {whole : Bool}
    (hf : s.farOk sg off n align k whole home y) : (s.scoped scope home).farOk sg off n align k whole home y := by
  obtain ⟨x, hx⟩ := scoped_me s scope home h
  obtain ⟨hg, hp⟩ := scoped_sizes s scope home
  have hrsg : (s.scoped scope home).me.rsg sg = s.me.rsg sg := by rw [hx]; rfl
  unfold State.farOk at hf ⊢
  simpa only [hrsg, hg, hp, scoped_cur, (scoped_samePlaces s scope home).rankCore] using hf

end

/-- An atomic whose word lies at another core sends its request there (R273). -/
theorem amoGo_far {s : State} {op : Nat} {d a b c : BitVec 6} {sg scope : BitVec 3} {order : BitVec 2} {rx wide : BitVec 1}
    {imm : BitVec 19} {home y : Nat} (hw : sgW (s.me.rsg sg.toNat) = true) (ha : sgA (s.me.rsg sg.toNat) = true) :
    let n : Nat := if wide = 1 then 8 else 4
    let off := ((s.rs a.toNat).toNat : Int) + imm.toInt * n
    s.farOk sg.toNat off n n .load false home y →
    amoGo op d a b sg c scope order rx wide imm s
      = (s.request (rx = 1) home y (.amo op (wide = 1)) (BitVec.ofInt 32 off) d.toNat
          (BitVec.ofNat 1024 ((s.rs b.toNat).toNat % 2 ^ (8 * n))) (s.rs c.toNat)).acquiring
        (s.inScope s.cur.1 scope.toNat home && order.toNat % 2 = 1) (s.nonce + 1) := by
  intro n off h
  rw [amoGo, access_far (more := fun g => sgW g && sgA g) _ _ h nofun (by simp [hw, ha]), offDetail_eq]
  rfl

/-- An atomic at issue whose word lies at another core, and that no release holds: its request is made, after SCOPEMISS where the home
lies outside its scope (R273, R274). -/
theorem semAmo_far {s : State} {i : Instr} {op : Nat} {d a b c : BitVec 6} {sg scope : BitVec 3} {order : BitVec 2} {rx wide : BitVec 1}
    {imm : BitVec 19} {home y : Nat} (hw : sgW (s.me.rsg sg.toNat) = true) (ha : sgA (s.me.rsg sg.toNat) = true)
    (hi : op = 0 → s.me.imv = false)
    (ho : s.inScope s.cur.1 scope.toNat home = true → order.toNat < 2 ∨ s.relaxedIn s.cur.1 s.cur.2 scope.toNat = false) :
    let n : Nat := if wide = 1 then 8 else 4
    s.farOk sg.toNat (((s.rs a.toNat).toNat : Int) + imm.toInt * n) n n .load false home y →
    semAmo i op d a b sg c scope order rx wide imm s
      = amoGo op d a b sg c scope order rx wide imm (s.scoped scope.toNat home) := by
  intro n h
  rw [semAmo, access_far (more := fun g => sgW g && sgA g) _ _ h nofun (by simp [hw, ha])]
  dsimp only
  rw [if_neg (by simpa using hi), State.scoped]
  cases hin : s.inScope s.cur.1 scope.toNat home with
  | false => rfl
  | true =>
    rw [if_neg (by simp), if_neg (by have := ho hin; simp only [Bool.and_eq_true, decide_eq_true_eq]; rintro ⟨h2, hr⟩; simp [hr] at this; omega),
      if_pos rfl]

end Sys2Proof.Machine
end

section
/-! SUPPORT. Accesses to another core, by instruction (R262 to R265, R270, R273, R274). -/

namespace Sys2Proof.Machine

/-- What an atomic to another core comes to (R270, R273, R274): its request leaves from the state `z` in which SCOPEMISS is set where the
home lies outside its scope; its slot waits, goes on, or, where a relaxed one acquires within its scope, waits for its own reply. -/
theorem exec_amo {i : BitVec 1 → Instr} (op : Nat) {d a b e : BitVec 6} {sg scope : BitVec 3} {order : BitVec 2} {wide : BitVec 1}
    {far : BitVec 19} {home y : Nat} {new : W64} {s0 : State} (h : s0.Able)
    (hx : ∀ rx, exec (i rx) s0 = s0.aloneS (semAmo (i rx) op d a b sg e scope order rx wide far))
    (hnew : (s0.capture 0).rs e.toNat = new) :
    let s := s0.capture 0
    let n : Nat := if wide = 1 then 8 else 4
    let off := ((s.rs a.toNat).toNat : Int) + far.toInt * n
    let within := s.inScope s.cur.1 scope.toNat home = true
    let z := s.scoped scope.toNat home
    let q : Req := ⟨s.cur.1, s.cur.2, false, 0, .amo op (wide = 1), y, BitVec.ofInt 32 off, d.toNat,
      BitVec.ofNat 1024 ((s.rs b.toNat).toNat % 2 ^ (8 * n)), new⟩
    let sent := State.sendReq { z with nonce := s.nonce + 1 } home { q with relaxed := true, id := s.nonce + 1 }
    s.farOk sg.toNat off n n .load false home y → sgW (s.me.rsg sg.toNat) = true → sgA (s.me.rsg sg.toNat) = true →
    (op = 0 → s.me.imv = false) → (within → order.toNat < 2 ∨ s.relaxedIn s.cur.1 s.cur.2 scope.toNat = false) →
      exec (i 0) s0 = .next ((z.sendReq home q).awaits z.my .parked (.remote home false))
      ∧ (s.me.relaxed.length < 8 →
        (¬within ∨ order.toNat % 2 = 0 → exec (i 1) s0 = .next (sent.put (z.me.outstanding (s.nonce + 1) home q)))
        ∧ (within → order.toNat % 2 = 1 → exec (i 1) s0 = .next (sent.wentOn z.my { z.me.outstanding (s.nonce + 1) home q with
            st := .parked, held := .acquire (s.nonce + 1), npc := s.me.pc + 8 })))
      ∧ (s.me.relaxed.length ≥ 8 →
        exec (i 1) s0 = .next (s0.modMe fun t => { t with st := .parked, held := .relaxFull, npc := t.pc })) := by
  intro s n off within z q sent hfar hw ha himv horder
  have hs : s.Able := (capture_able s0 0).2 h
  obtain ⟨x, hme⟩ := scoped_me s scope.toNat home hs
  have hcur : z.cur = s.cur := scoped_cur ..
  have hnonce : z.nonce = s.nonce := scoped_nonce ..
  have hrs (r : Nat) : z.rs r = s.rs r := scoped_rs s _ _ hs r
  have hscope : z.inScope z.cur.1 scope.toNat home = s.inScope s.cur.1 scope.toNat home := by
    rw [hcur, (scoped_samePlaces s scope.toNat home).inScope]
  have hrsg : z.me.rsg sg.toNat = s.me.rsg sg.toNat := by rw [hme]; rfl
  have hk (rx : BitVec 1) : semAmo (i rx) op d a b sg e scope order rx wide far s
      = (z.request (rx = 1) home q.addr q.op q.off q.d q.data q.data2).acquiring
        (s.inScope s.cur.1 scope.toNat home && order.toNat % 2 = 1) (z.nonce + 1) := by
    have hgo := amoGo_far (s := z) (op := op) (d := d) (a := a) (b := b) (c := e) (scope := scope)
      (order := order) (rx := rx) (wide := wide)
      (by rwa [hrsg]) (by rwa [hrsg]) (by rw [hrs]; exact scoped_farOk s _ _ hs hfar)
    rw [hrs, hrs, hrs, hscope, hnew] at hgo
    exact (semAmo_far hw ha himv horder hfar).trans hgo
  have hz : z.Able := by rw [State.Able, hcur]; exact hs
  obtain ⟨hparks, hsent, hfull⟩ := exec_request _ q h hz hx hk (by rw [hcur]) (by rw [hcur]) rfl rfl
  have hrel : z.me.relaxed = s.me.relaxed := by rw [hme]
  have hpc : z.me.pc = s.me.pc := by rw [hme]
  rw [hrel, State.sentRelaxed, hnonce, hpc] at hsent
  rw [hrel] at hfull
  refine ⟨hparks, fun hlen => ⟨fun hn => (hsent hlen).1 ?_, fun hin hacq => (hsent hlen).2 ?_⟩, hfull⟩
  · rcases hn with hn | hn
    · rw [Bool.eq_false_of_not_eq_true hn, Bool.false_and]
    · simp [hn]
  · simp [show s.inScope s.cur.1 scope.toNat home = true from hin, hacq]

/-- Settles O17: loads, stores and STWFILL; the full/empty operations; VLDB; and the atomics. -/
theorem remoteRequests : Obligations.RemoteRequests := by
  intro d a b e v p sg scope order wide imm far home y s0 h
  refine ⟨?_, ?_, fun hat hp => ?_, ?_⟩
  · simp only [List.forall_mem_cons, -eq_self]
    exact ⟨fun hf _ => remoteOutcome_load (i := (.ldb d a sg · imm)) h 1 false (fun _ => rfl) hf,
      fun hf _ => remoteOutcome_load (i := (.ldbs d a sg · imm)) h 1 true (fun _ => rfl) hf,
      fun hf _ => remoteOutcome_load (i := (.ldh d a sg · imm)) h 2 false (fun _ => rfl) hf,
      fun hf _ => remoteOutcome_load (i := (.ldhs d a sg · imm)) h 2 true (fun _ => rfl) hf,
      fun hf _ => remoteOutcome_load (i := (.ldw d a sg · imm)) h 4 false (fun _ => rfl) hf,
      fun hf _ => remoteOutcome_load (i := (.ldws d a sg · imm)) h 4 true (fun _ => rfl) hf,
      fun hf _ => remoteOutcome_load (i := (.ldd d a sg · imm)) h 8 false (fun _ => rfl) hf,
      fun hf _ => remoteOutcome_store (i := (.stb d a sg · imm)) h 1 (fun _ => rfl) hf,
      fun hf _ => remoteOutcome_store (i := (.sth d a sg · imm)) h 2 (fun _ => rfl) hf,
      fun hf _ => remoteOutcome_store (i := (.stw d a sg · imm)) h 4 (fun _ => rfl) hf,
      fun hf _ => remoteOutcome_store (i := (.std d a sg · imm)) h 8 (fun _ => rfl) hf,
      fun hf _ => remoteOutcome_stwfill h hf,
      fun hf hp => remoteOutcome_vld h hf (hp rfl),
      fun hf hp => remoteOutcome_vst h hf (hp rfl), by simp⟩
  · simp only [List.forall_mem_cons, -eq_self]
    exact ⟨fun hf _ => exec_parks h (k := semLdwsync d a sg imm) rfl (semSync_far hf nofun),
      fun hf hw => exec_parks h (k := semLdwtake d a sg imm) rfl (semSync_far hf fun _ => hw),
      fun hf _ => exec_parks h (k := semFeset a sg imm) rfl (semFeput_far (full := true) hf),
      fun hf _ => exec_parks h (k := semFeclr a sg imm) rfl (semFeput_far (full := false) hf),
      fun hf _ => exec_parks h (k := semFetest p a sg imm) rfl (semFetest_far hf), by simp⟩
  · exact exec_parks h (k := semVldb v a sg imm) rfl (semVldb_far hat hp)
  · intro r hr
    obtain ⟨e', hx, hnew⟩ : ∃ e' : BitVec 6, (∀ rx, exec (r.1 rx) s0 = s0.aloneS (semAmo (r.1 rx) r.2.1 d a b sg e' scope order rx wide far))
        ∧ (s0.capture 0).rs e'.toNat = r.2.2 := by
      simp only [List.mem_cons, List.not_mem_nil, or_false] at hr
      rcases hr with rfl | rfl | rfl | rfl | rfl | rfl | rfl | rfl | rfl | rfl
      iterate 9 exact ⟨0, fun _ => rfl, rs_zero _⟩
      exact ⟨e, fun _ => rfl, rfl⟩
    exact exec_amo r.2.1 h hx hnew

end Sys2Proof.Machine
end

section
/-! SUPPORT. The end of a V syllable's bundle: the flags of its result elements, its active elements, and the two schemes by which it
writes a vector register (R53, R54, R69 to R71, R108, R109). -/

namespace Sys2Proof.Machine

/-! ### Flags of result elements (R53, R54) -/

/-- No result element sets no flag in STICKY. -/
@[simp] theorem Slot.flagged_nil (t : Slot) : t.flagged [] = t := by simp [Slot.flagged]

/-- No result element counts nothing. -/
@[simp] theorem Core.flagged_nil (x : Core) : x.flagged [] = x := by simp [Core.flagged, Core.count]

/-- Counting an event leaves the place of a slot. -/
theorem count_setSlot (x : Core) (k : Nat) (t : Slot) (i n : Nat) : (x.setSlot k t).count i n = (x.count i n).setSlot k t := by
  unfold Core.count
  split <;> rfl

/-- Counting the flags of result elements leaves the place of a slot. -/
theorem flagged_setSlot (x : Core) (k : Nat) (t : Slot) (fs : List Flg) : (x.setSlot k t).flagged fs = (x.flagged fs).setSlot k t := by
  simp only [Core.flagged, count_setSlot]

/-- A value put where it stands changes nothing. -/
@[simp] theorem vset_vget {α : Type} {n : Nat} (v : Vector α n) (k : Nat) (d : α) : vset v k (vget v k d) = v := by
  ext j hj : 1
  simp only [vset, Vector.getElem_setIfInBounds]
  split
  · next e => subst e; simp [vget, List.getD_eq_getElem?_getD, hj]
  · rfl

/-- A slot put where it stands changes nothing. -/
theorem setSlot_self (x : Core) (k : Nat) : x.setSlot k (x.slot k) = x := by rw [Core.setSlot, Core.slot, vset_vget]

/-- STICKY as the flags of result elements leave it (R27). -/
theorem my_stick (s : State) (b : W64) :
    (s.stick s.cur.1 s.cur.2 b).my = s.my.setSlot s.cur.2 { s.me with sticky := s.me.sticky ||| b } := by
  unfold State.stick
  split
  · next hb =>
    have hor : s.me.sticky ||| (0 : W64) = s.me.sticky := BitVec.or_zero
    rw [hb, hor]
    exact (setSlot_self s.my s.cur.2).symm
  · exact my_modMe s _

/-- Result elements of which none raises a counted flag count nothing. -/
theorem flagged_of_none_counted (x : Core) {fs : List Flg}
    (h : (fs.any fun f => f.gen || f.inf || f.ovf || f.ufl || f.sat || f.bx) = false) : x.flagged fs = x := by
  have hzero (g : Flg → Bool) (hg : ∀ f, g f = true → (f.gen || f.inf || f.ovf || f.ufl || f.sat || f.bx) = true) :
      (fs.filter g).length = 0 := by
    rw [List.length_eq_zero_iff, List.filter_eq_nil_iff]
    exact fun f hf hgf => List.any_eq_false.1 h f hf (hg f hgf)
  have hgen := hzero (·.gen) fun f hf => by simp [hf]
  have hinf := hzero (·.inf) fun f hf => by simp [hf]
  have hovf := hzero (·.ovf) fun f hf => by simp [hf]
  have hufl := hzero (·.ufl) fun f hf => by simp [hf]
  have hsat := hzero (·.sat) fun f hf => by simp [hf]
  have hbx := hzero (·.bx) fun f hf => by simp [hf]
  simp only [Core.flagged, hgen, hinf, hovf, hufl, hsat, hbx]
  rfl

/-- The executing core as the flags of result elements leave it (R53, R54). -/
theorem my_raise (s : State) (fs : List Flg) :
    (s.raise s.cur.1 s.cur.2 fs).my = (s.my.flagged fs).setSlot s.cur.2 (s.me.flagged fs) := by
  have hstick := my_stick s (fs.foldl (fun b f => b ||| f.bits) 0)
  rw [← flagged_setSlot, Slot.flagged, ← hstick]
  unfold State.raise
  dsimp only
  split
  · have hc := my_modMy (s.stick s.cur.1 s.cur.2 (fs.foldl (fun b f => b ||| f.bits) 0)) fun x => x.flagged fs
    rwa [State.modMy, State.stick_cur] at hc
  · next hn => rw [flagged_of_none_counted _ (by simpa using hn)]

/-- Flags leave which slot executes. -/
@[simp] theorem raise_cur (s : State) (c i : Nat) (fs : List Flg) : (s.raise c i fs).cur = s.cur := by
  unfold State.raise
  dsimp only
  split <;> simp

/-- Of flags that the executing slot has raised, only those of the last word on it count. -/
theorem wentOn_raise (s : State) (fs : List Flg) (x : Core) (u : Slot) :
    (s.raise s.cur.1 s.cur.2 fs).wentOn x u = s.wentOn x u := by
  have hstick (b : W64) : (s.stick s.cur.1 s.cur.2 b).wentOn x u = s.wentOn x u := by
    unfold State.stick
    split
    · rfl
    · exact wentOn_modMe ..
  unfold State.raise
  dsimp only
  split
  · have hcount := wentOn_modMy (s.stick s.cur.1 s.cur.2 (fs.foldl (fun b f => b ||| f.bits) 0)) (fun y => y.flagged fs) x u
    rw [State.modMy, State.stick_cur, hstick] at hcount
    exact hcount
  · exact hstick _

/-- A V syllable's bundle that raises the flags of its result elements goes on (R53, R57). -/
theorem done_raise (s u : State) (v : Bool) (fs : List Flg) (h : u.Able) :
    s.done v (.ok (u.raise u.cur.1 u.cur.2 fs)) = .next (u.vput u.me fs) := by
  have hme : (u.raise u.cur.1 u.cur.2 fs).me = u.me.flagged fs := by
    rw [me_eq, my_raise u, raise_cur, slot_setSlot_same _ h]
  rw [done_ok s _ v (by rwa [State.Able, raise_cur]), State.put, wentOn_raise, my_raise u, wentOn_setSlot, hme]
  rfl

/-- A V syllable's bundle that changes its slot, but not the PC, and raises the flags of its result elements. -/
theorem done_modMe_raise (s : State) (v : Bool) (f : Slot → Slot) (fs : List Flg) (h : s.Able) (hp : (f s.me).pc = s.me.pc) :
    s.done v (.ok ((s.modMe f).raise s.cur.1 s.cur.2 fs)) = .next (s.vput (f s.me) fs) := by
  refine (done_raise s (s.modMe f) v fs h).trans (congrArg _ ?_)
  rw [State.vput, State.vput, me_modMe s h, my_modMe, flagged_setSlot, wentOn_modMe, hp]
  exact wentOn_setSlot ..

/-- Without a result element, a V syllable's bundle goes on with its slot alone. -/
@[simp] theorem vput_nil (s : State) (u : Slot) : s.vput u [] = s.put u := by simp [State.vput, State.put]

/-! ### V syllables -/

/-- A V syllable whose bundle comes to its end. -/
theorem vgoes_of_done {i : Instr} {ok : State → Prop} {post : State → State} {ill : Bool} {k : State → State → Res}
    (hx : ∀ s, exec i s = s.aloneV i ill (k s)) (hd : ∀ s : State, s.Able → ok s → s.done true (k s s) = .next (post s)) :
    VGoes i ok post := fun _ s hs hdir ho => by
  rw [hx, State.aloneV, gate_direct s _ _ _ hdir, hd s hs ho]

/-- A V syllable that traps (R71). -/
theorem traps_of_aloneV {i : Instr} {s : State} {ill : Bool} {k : State → State → Res} {c : Nat} {d : W32}
    (hx : ∀ s, exec i s = s.aloneV i ill (k s)) (hd : s.Direct) (hk : k s s = .trap c d) : Traps (exec i s) s c d true := by
  rw [Traps, hx, State.aloneV, gate_direct s _ _ _ hd, hk, done_trap]

/-- Operands that are no streams trap with what the instruction itself finds at fault (R71). -/
theorem withOperands_trap (s cur : State) (srcs dst both : List Nat) (act : Bool) (c : Nat) (w : W32) (k : State → Res)
    (h : s.plain (srcs ++ dst ++ both)) : withOperands s cur srcs dst both act (some (c, w)) k = .trap c w := by
  have hs : srcs.eraseDups.filterMap (srcPop s act) = [] := by
    refine List.filterMap_eq_nil_iff.2 fun r hr => ?_
    simp [srcPop, h r (by simp [List.mem_eraseDups.1 hr])]
  have hd (both' : Bool) (l : List Nat) (hl : ∀ r ∈ l, r ∈ srcs ++ dst ++ both) : l.filterMap (dstCheck s act both') = [] := by
    refine List.filterMap_eq_nil_iff.2 fun r hr => ?_
    simp [dstCheck, h r (hl r hr)]
  simp [withOperands, hs, hd false dst (by simp +contextual), hd true both (by simp +contextual), minTrap]

/-! ### Active elements (R70, R108) -/

/-- The widths of elements (R34, R61, R108). -/
def IsWidth (w : Nat) : Prop := w = 8 ∨ w = 16 ∨ w = 32 ∨ w = 64

/-- The elements of a float format have such a width (R34, R61). -/
theorem isWidth_fFmt (t : Nat) : IsWidth (fFmt t).width := by
  unfold fFmt
  split
  · exact .inr (.inl rfl)
  · split
    · exact .inr (.inl rfl)
    · exact .inr (.inr (.inl rfl))

/-- The elements of a fused form's format have such a width (R34, R61). -/
theorem isWidth_fFmt2 (t : Nat) : IsWidth (fFmt2 t).width := by
  unfold fFmt2
  split
  · exact .inr (.inl rfl)
  · split
    · exact .inr (.inl rfl)
    · exact .inr (.inr (.inl rfl))

/-- The elements of an integer type have such a width (R61). -/
theorem isWidth_intWidth (t : Nat) : IsWidth (intWidth t) := by
  unfold intWidth
  split
  · exact .inr (.inr (.inl rfl))
  · exact .inr (.inl rfl)
  · exact .inl rfl
  · exact .inr (.inr (.inr rfl))

/-- Elements of such a width fill a register (R31). -/
theorem IsWidth.dvd {w : Nat} (h : IsWidth w) : w ∣ 1024 := by
  rcases h with rfl | rfl | rfl | rfl <;> decide

/-- Where no element is active, none is. -/
theorem active_of_not_any {m : W32} {w : Nat} (h : ¬anyActive m w = true) (e : Nat) : active m w e = false := by
  unfold anyActive at h
  unfold active
  split
  · next hw =>
    have hm : m &&& 0x55555555#32 = 0#32 := by simpa [hw] using h
    have hb := congrArg (fun b : W32 => b.getLsbD (2 * e)) hm
    rcases Nat.lt_or_ge e 16 with he | he
    · have hodd : (0x55555555#32).getLsbD (2 * e) = true := by interval_cases e <;> decide
      simpa [hodd] using hb
    · exact BitVec.getLsbD_of_ge _ _ (by omega)
  · next hw =>
    have hm : m = 0#32 := by simpa [hw] using h
    simp [hm]

/-- Where no element is active, none raises flags. -/
theorem filter_active_of_not_any {m : W32} {w : Nat} (h : ¬anyActive m w = true) (l : List Nat) :
    (l.filter fun e => active m w e) = [] := by
  simp [active_of_not_any h]

/-- A lane is active where the mask has its bit. -/
@[simp] theorem active_lane (m : W32) (j : Nat) : active m 32 j = m.getLsbD j := by
  rw [active, if_neg (by decide), Nat.mul_div_cancel_left j (by decide)]

/-- A register's elements, packed, are its low bits. -/
theorem packN_elems (w : Nat) (v : VReg) (n : Nat) : packN w (VReg.elem v w) n = v.toNat % 2 ^ (w * n) := by
  induction n with
  | zero => simp [packN, Nat.mod_one]
  | succ n ih => rw [packN, ih, elem_mod, VReg.elem, Nat.mul_succ, Nat.pow_add, Nat.mod_mul, Nat.mul_comm (_ % 2 ^ w)]

/-- A register is made of its elements (R31). -/
theorem ofElems_elem {w : Nat} (hw : w ∣ 1024) (v : VReg) : VReg.ofElems w (VReg.elem v w) = v := by
  rw [VReg.ofElems, packN_elems, Nat.mul_div_cancel' hw, Nat.mod_eq_of_lt v.isLt, BitVec.ofNat_toNat, BitVec.setWidth_eq]

/-- Where no element is active, a register stays as it was (R70). -/
theorem mergeElems_of_not_any {m : W32} {w : Nat} (hw : w ∣ 1024) (h : ¬anyActive m w = true) (old : VReg) (f : Nat → Nat) :
    mergeElems w m old f = old := by
  simp only [mergeElems, active_of_not_any h, Bool.false_eq_true, if_false]
  exact ofElems_elem hw old

/-- A register written with what it holds stays as it was. -/
@[simp] theorem wv_rv (t : Slot) (k : Nat) : t.wv k (t.rv k) = t := by rw [Slot.wv, Slot.rv, vset_vget]

/-- Values and flags that agree on the active elements make one state (R109). -/
theorem vlanes_congr (s : State) (d w : Nat) {mk : W32} {f g : Nat → Nat × Flg}
    (h : ∀ e, e < 1024 / w → active mk w e = true → f e = g e) : s.vlanes d w mk f = s.vlanes d w mk g := by
  have hmerge : mergeElems w mk (s.me.rv d) (fun e => (f e).1) = mergeElems w mk (s.me.rv d) fun e => (g e).1 := by
    refine ofElems_congr fun e he => ?_
    split
    · next ha => exact congrArg Prod.fst (h e he ha)
    · rfl
  have hflags : (((List.range (1024 / w)).filter fun e => active mk w e).map fun e => (f e).2)
      = ((List.range (1024 / w)).filter fun e => active mk w e).map fun e => (g e).2 := by
    refine List.map_congr_left fun e he => ?_
    obtain ⟨hr, ha⟩ := List.mem_filter.1 he
    exact congrArg Prod.snd (h e (List.mem_range.1 hr) ha)
  rw [State.vlanes, State.vlanes, hmerge, hflags]

/-! ### Results in the active elements, and in every lane (R109, R124, R125) -/

/-- The bundle of a syllable that writes the active elements of a register that is no stream goes on (R109). -/
theorem done_elemwise (s : State) (srcs : List Nat) (d : Nat) (mk : W32) {w : Nat} (f : Nat → Nat × Flg) (h : s.Able)
    (hw : w ∣ 1024) (hp : s.plain (d :: srcs)) : s.done true (elemwise s s srcs d mk w none f) = .next (s.vlanes d w mk f) := by
  have hd := hp d List.mem_cons_self
  have hp' : s.plain (srcs ++ [d] ++ []) := fun r hr => hp r (by simpa [or_comm] using hr)
  rw [elemwise, withOperands_plain _ _ _ _ _ _ _ hp', hd, State.vlanes]
  split
  · rw [putV_plain _ _ _ hd]
    exact done_modMe_raise s true (fun t => t.wv d _) _ h rfl
  · next hn =>
    rw [mergeElems_of_not_any hw hn, filter_active_of_not_any hn, wv_rv, List.map_nil, vput_nil]
    exact done_ok s s true h

/-- A V syllable that writes the active elements of a register, none of its operands being a stream: only what its function says of
the active elements counts (R109). -/
theorem vgoes_elemwise {i : Instr} {w d : Nat} {mk : State → W32} {f : State → Nat → Nat × Flg} (srcs : List Nat)
    (g : State → Nat → Nat × Flg) (hw : w ∣ 1024)
    (hx : ∀ s, exec i s = s.aloneV i false fun cur => elemwise s cur srcs d (mk s) w none (f s))
    (hf : ∀ s : State, s.plain (d :: srcs) → ∀ e, e < 1024 / w → active (mk s) w e = true → f s e = g s e) :
    VGoes i (fun s => s.plain (d :: srcs)) fun s => s.vlanes d w (mk s) (g s) := by
  refine vgoes_of_done hx fun s h hp => ?_
  rw [done_elemwise s srcs d (mk s) (f s) h hw hp, vlanes_congr s d w (hf s hp)]

/-- A V syllable that writes every lane of a register, none of its operands being a stream; without an active lane nothing changes
(R70, R124, R125). -/
theorem vgoes_wholeWrite {i : Instr} {d : Nat} {mk : State → W32} {v : State → VReg} {fs : State → List Flg} (srcs : List Nat)
    (v' : State → VReg) (fs' : State → List Flg)
    (hx : ∀ s, exec i s = s.aloneV i false fun cur => wholeWrite s cur srcs d (mk s) (v s) (fs s))
    (hf : ∀ s : State, s.plain (d :: srcs) → mk s ≠ 0 → v s = v' s ∧ fs s = fs' s) :
    VGoes i (fun s => s.plain (d :: srcs)) fun s => if mk s = 0 then s.put s.me else s.vput (s.me.wv d (v' s)) (fs' s) := by
  refine vgoes_of_done hx fun s h hp => ?_
  have hd := hp d List.mem_cons_self
  have hp' : s.plain (srcs ++ [d] ++ []) := fun r hr => hp r (by simpa [or_comm] using hr)
  rw [wholeWrite, withOperands_plain _ _ _ _ _ _ _ hp', hd]
  split
  · next hm =>
    have hm : mk s ≠ 0 := by simpa using hm
    obtain ⟨hv, hfs⟩ := hf s hp hm
    rw [if_neg hm, putV_plain _ _ _ hd, ← hv, ← hfs]
    exact done_modMe_raise s true (fun t => t.wv d _) _ h rfl
  · next hm =>
    rw [if_pos (by simpa using hm)]
    exact done_ok s s true h

/-- A source that is no stream reads as its register (R22). -/
theorem srcVal_of_plain {s : State} {l : List Nat} (h : s.plain l) (act : Bool) {r : Nat} (hr : r ∈ l) :
    srcVal s act r = s.me.rv r := srcVal_plain s act r (h r hr)

end Sys2Proof.Machine
end

section
/-! SUPPORT. Elementwise float arithmetic and special functions (R114, R115, R118). -/

namespace Sys2Proof.Machine

/-- An element is below the power of two of its width. -/
theorem elem_lt (v : VReg) (w k : Nat) : VReg.elem v w k < 2 ^ w := Nat.mod_lt _ (by positivity)

section
variable {i : Instr} {d a b c : BitVec 5} {sc : BitVec 6} {m t : BitVec 3} {u : BitVec 2}

/-- A rounded function of two vectors, elementwise (R114). -/
theorem vgoes_fBin (op : RMode → Fv → Fv → Fv) (hx : ∀ s, exec i s = s.aloneV i false fun cur => fBin op d a b m t s cur) :
    VGoes i (fun s => s.plain [d.toNat, a.toNat, b.toNat]) fun s =>
      s.vlanes d.toNat (fFmt t.toNat).width (s.me.rm m.toNat) fun e =>
        let F := fFmt t.toNat
        let x := F.val (VReg.elem (s.me.rv a.toNat) F.width e)
        let y := F.val (VReg.elem (s.me.rv b.toNat) F.width e)
        F.result (fMode t.toNat) [x, y] (op (fMode t.toNat) x y) := by
  refine vgoes_elemwise [a.toNat, b.toNat] _ (isWidth_fFmt _).dvd hx fun s hp e _ _ => ?_
  rw [srcVal_of_plain hp _ (by simp), srcVal_of_plain hp _ (by simp)]

/-- A rounded function of a vector and a scalar, elementwise (R113, R114). -/
theorem vgoes_fBinS (op : RMode → Fv → Fv → Fv) (hx : ∀ s, exec i s = s.aloneV i false fun cur => fBinS op d a sc m t s cur) :
    VGoes i (fun s => s.plain [d.toNat, a.toNat]) fun s =>
      s.vlanes d.toNat (fFmt t.toNat).width (s.me.rm m.toNat) fun e =>
        let F := fFmt t.toNat
        let x := F.val (VReg.elem (s.me.rv a.toNat) F.width e)
        let y := F.val ((s.rs sc.toNat).toNat % 2 ^ F.width)
        F.result (fMode t.toNat) [x, y] (op (fMode t.toNat) x y) := by
  refine vgoes_elemwise [a.toNat] _ (isWidth_fFmt _).dvd hx fun s hp e _ _ => ?_
  rw [srcVal_of_plain hp _ (by simp)]

/-- A fused form, elementwise: the exact product and an operand, rounded once (R114). -/
theorem vgoes_fFused (np nc : Bool) (hx : ∀ s, exec i s = s.aloneV i false fun cur => fFused np nc d a b c m u s cur) :
    VGoes i (fun s => s.plain [d.toNat, a.toNat, b.toNat, c.toNat]) fun s =>
      s.vlanes d.toNat (fFmt2 u.toNat).width (s.me.rm m.toNat) fun e =>
        let G := fFmt2 u.toNat
        let x := G.val (VReg.elem (s.me.rv a.toNat) G.width e)
        let y := G.val (VReg.elem (s.me.rv b.toNat) G.width e)
        let z := G.val (VReg.elem (s.me.rv c.toNat) G.width e)
        G.result .rne [x, y, z] ((if np then (x.mul y).neg else x.mul y).add .rne (if nc then z.neg else z)) := by
  refine vgoes_elemwise [a.toNat, b.toNat, c.toNat] _ (isWidth_fFmt2 _).dvd hx fun s hp e _ _ => ?_
  rw [srcVal_of_plain hp _ (by simp), srcVal_of_plain hp _ (by simp), srcVal_of_plain hp _ (by simp)]

/-- A function of the bits of each element of one vector (R114, R115). -/
theorem vgoes_fBits_one (f : Fmt → Nat → Nat → Nat × Flg)
    (hx : ∀ s, exec i s = s.aloneV i false fun cur => fBits f [a.toNat] d m t s cur) :
    VGoes i (fun s => s.plain [d.toNat, a.toNat]) fun s => s.vlanes d.toNat (fFmt t.toNat).width (s.me.rm m.toNat) fun e =>
      f (fFmt t.toNat) (VReg.elem (s.me.rv a.toNat) (fFmt t.toNat).width e)
        (VReg.elem (s.me.rv a.toNat) (fFmt t.toNat).width e) := by
  refine vgoes_elemwise [a.toNat] _ (isWidth_fFmt _).dvd hx fun s hp e _ _ => ?_
  simp only [List.getD_cons_zero, List.getD_cons_succ, List.getD_nil, srcVal_of_plain hp _ (show a.toNat ∈ _ by simp)]

/-- A special function, elementwise (R118). -/
theorem vgoes_fSpecial (fn : SpFn) (hx : ∀ s, exec i s = s.aloneV i false fun cur => fSpecial fn d a m t s cur) :
    VGoes i (fun s => s.plain [d.toNat, a.toNat]) fun s => s.vlanes d.toNat (fFmt t.toNat).width (s.me.rm m.toNat) fun e =>
      fn.eval (fFmt t.toNat) (VReg.elem (s.me.rv a.toNat) (fFmt t.toNat).width e) :=
  vgoes_fBits_one (fun F x _ => fn.eval F x) hx

/-- A function of the bits of each element of two vectors (R114). -/
theorem vgoes_fBits_two (f : Fmt → Nat → Nat → Nat × Flg)
    (hx : ∀ s, exec i s = s.aloneV i false fun cur => fBits f [a.toNat, b.toNat] d m t s cur) :
    VGoes i (fun s => s.plain [d.toNat, a.toNat, b.toNat]) fun s =>
      s.vlanes d.toNat (fFmt t.toNat).width (s.me.rm m.toNat) fun e =>
        f (fFmt t.toNat) (VReg.elem (s.me.rv a.toNat) (fFmt t.toNat).width e)
          (VReg.elem (s.me.rv b.toNat) (fFmt t.toNat).width e) := by
  refine vgoes_elemwise [a.toNat, b.toNat] _ (isWidth_fFmt _).dvd hx fun s hp e _ _ => ?_
  simp only [List.getD_cons_zero, List.getD_cons_succ, srcVal_of_plain hp _ (show a.toNat ∈ _ by simp),
    srcVal_of_plain hp _ (show b.toNat ∈ _ by simp)]

end

/-- VNEG turns the sign bit alone (R115). -/
theorem negate_eq {w x : Nat} (hw : 1 ≤ w) (h : x < 2 ^ w) :
    (x + 2 ^ (w - 1)) % 2 ^ w = if x < 2 ^ (w - 1) then x + 2 ^ (w - 1) else x - 2 ^ (w - 1) := by
  have hp : 2 ^ w = 2 * 2 ^ (w - 1) := by rw [← pow_succ', Nat.sub_add_cancel hw]
  rw [hp] at h ⊢
  split
  · exact Nat.mod_eq_of_lt (by omega)
  · rw [Nat.mod_eq_sub_mod (by omega), Nat.mod_eq_of_lt (by omega)]
    omega

/-- VNEG, elementwise (R115). -/
theorem vgoes_vneg (d a : BitVec 5) (m t : BitVec 3) :
    VGoes (.vneg d a m t) (fun s => s.plain [d.toNat, a.toNat]) fun s =>
      s.vlanes d.toNat (fFmt t.toNat).width (s.me.rm m.toNat) fun e =>
        let h := 2 ^ ((fFmt t.toNat).width - 1)
        let x := VReg.elem (s.me.rv a.toNat) (fFmt t.toNat).width e
        (if x < h then x + h else x - h, {}) := by
  have hneg (s : State) (e : Nat) := negate_eq (w := (fFmt t.toNat).width) (by rw [Fmt.width]; omega)
    (elem_lt (s.me.rv a.toNat) _ e)
  simp only [← hneg]
  exact vgoes_fBits_one (fun F x _ => ((x + 2 ^ (F.width - 1)) % 2 ^ F.width, {})) fun _ => rfl

/-- Settles O5: each syllable is one of the elementwise schemes above, with its own function of the operands. -/
theorem vectorFloat : Obligations.VectorFloat := by
  refine ⟨fun d a b c sc m t u => ?_, fun d a b m t => ?_⟩
  · exact ⟨vgoes_fBin Fv.add fun _ => rfl, vgoes_fBin fvSub fun _ => rfl, vgoes_fBin fvMul fun _ => rfl,
      vgoes_fBinS Fv.add fun _ => rfl, vgoes_fBinS fvSub fun _ => rfl, vgoes_fBinS fvMul fun _ => rfl,
      vgoes_fFused false false fun _ => rfl, vgoes_fFused false true fun _ => rfl, vgoes_fFused true false fun _ => rfl⟩
  · exact ⟨vgoes_fBits_two (fun F x y => F.minMax false x y) fun _ => rfl,
      vgoes_fBits_two (fun F x y => F.minMax true x y) fun _ => rfl,
      vgoes_fBits_one (fun F x _ => (x % 2 ^ (F.width - 1), {})) fun _ => rfl, vgoes_vneg d a m t,
      vgoes_fBits_one (fun F x _ => (F.classOf x, {})) fun _ => rfl,
      vgoes_fBits_one (fun F x _ => F.integral (fMode t.toNat) x) fun _ => rfl,
      vgoes_fSpecial .rcp fun _ => rfl, vgoes_fSpecial .rsq fun _ => rfl, vgoes_fSpecial .exp2 fun _ => rfl,
      vgoes_fSpecial .log2 fun _ => rfl, vgoes_fSpecial .tanh fun _ => rfl, vgoes_fSpecial .sig fun _ => rfl⟩

end Sys2Proof.Machine
end

section
/-! SUPPORT. Conversions between formats (R72, R117), and compares that write a mask (R116, R122). -/

namespace Sys2Proof.Machine

/-! ### Results in 32-bit lanes (R117, R124) -/

section
variable {i : Instr} {d a b : BitVec 5} {m t : BitVec 3}

/-- A V syllable that writes 32-bit lanes with a function of one register (R117, R124). -/
theorem vgoes_fLanes (f : State → VReg → Nat → Nat × Flg)
    (hx : ∀ s, exec i s = s.aloneV i false fun cur => fLanes (f s) none d a m s cur) :
    VGoes i (fun s => s.plain [d.toNat, a.toNat]) fun s =>
      s.vlanes d.toNat 32 (s.me.rm m.toNat) fun j => f s (s.me.rv a.toNat) j := by
  refine vgoes_elemwise [a.toNat] _ (by decide) hx fun s hp e _ _ => ?_
  rw [srcVal_of_plain hp _ (by simp)]

/-- Narrowing reads the 64 words of two registers (R117). -/
theorem vgoes_fNarrow (F : Fmt) (hx : ∀ s, exec i s = s.aloneV i false fun cur => fNarrow F d a b m t s cur) :
    VGoes i (fun s => s.plain [d.toNat, a.toNat, b.toNat]) fun s => s.vlanes d.toNat 16 (s.me.rm m.toNat) fun e =>
      let x := Fmt.f32.val (if e < 32 then VReg.elem (s.me.rv a.toNat) 32 e else VReg.elem (s.me.rv b.toNat) 32 (e - 32))
      F.result (fMode t.toNat) [x] x := by
  refine vgoes_elemwise [a.toNat, b.toNat] _ (by decide) hx fun s hp e _ _ => ?_
  rw [srcVal_of_plain hp _ (by simp), srcVal_of_plain hp _ (by simp)]

/-- A widening with a rounding code other than 0 traps ILLCOMBO (R72, R117). -/
theorem traps_fWiden (F : Fmt) {s : State} (hx : ∀ s, exec i s = s.aloneV i false fun cur => fWiden F d a m t s cur) (ht : t ≠ 0)
    (hd : s.Direct) (hp : s.plain [d.toNat, a.toNat]) : Traps (exec i s) s cILLCOMBO 0 true := by
  have ht' : t.toNat ≠ 0 := fun h => ht (BitVec.eq_of_toNat_eq h)
  refine traps_of_aloneV hx hd ?_
  rw [fWiden, if_neg ht', fLanes, elemwise]
  exact withOperands_trap s s [a.toNat] [d.toNat] [] _ _ _ _ fun r hr => hp r (by simpa [or_comm] using hr)

end

/-! ### Masks that a compare writes (R116, R122) -/

/-- A bit of a mask that takes new bits where another mask has its own. -/
theorem getLsbD_mergeMask (mk old : W32) (f : Nat → Bool) {j : Nat} (hj : j < 32) :
    (mergeMask mk old f).getLsbD j = if mk.getLsbD j then f j else old.getLsbD j := by
  have he := packN_elem 1 (fun j => if (if mk.getLsbD j then f j else old.getLsbD j) then 1 else 0) hj
  rw [Nat.one_mul, pow_one] at he
  rw [mergeMask, BitVec.getLsbD_ofNat, Nat.testBit_eq_decide_div_mod_eq, he]
  cases (if mk.getLsbD j then f j else old.getLsbD j) <;> simp [hj]

/-- Bits that agree make one mask. -/
theorem mergeMask_congr (mk old : W32) {f g : Nat → Bool} (h : ∀ j, j < 32 → f j = g j) : mergeMask mk old f = mergeMask mk old g :=
  BitVec.eq_of_getLsbD_eq fun j hj => by rw [getLsbD_mergeMask _ _ _ hj, getLsbD_mergeMask _ _ _ hj, h j hj]

/-- Where no element is active, a compare writes no bit (R70). -/
theorem mergeMask_of_not_any {mk : W32} {w : Nat} (h : ¬anyActive mk w = true) (old : W32) (f : Nat → Bool) :
    mergeMask (laneMask mk w) old f = old := by
  have hz : laneMask mk w = 0#32 := by
    unfold anyActive at h
    unfold laneMask
    split
    · next hw =>
      have hm : mk &&& 0x55555555#32 = 0#32 := by simpa [hw] using h
      rw [hm]
      decide
    · next hw => simpa [hw] using h
  refine BitVec.eq_of_getLsbD_eq fun j hj => ?_
  rw [getLsbD_mergeMask _ _ _ hj, hz, BitVec.getLsbD_zero, if_neg Bool.false_ne_true]

/-- A mask register written with what it holds stays as it was. -/
@[simp] theorem wm_rm (t : Slot) (k : Nat) : t.wm k (t.rm k) = t := by
  unfold Slot.wm Slot.rm
  split
  · rfl
  · rw [vset_vget]

/-- The consecutive numbers of a list of steps. -/
theorem mem_steps_one {x lo n : Nat} : x ∈ steps lo 1 n ↔ lo ≤ x ∧ x < lo + n := by
  induction n generalizing lo with
  | zero => simp [steps]
  | succ n ih => rw [steps, List.mem_cons, ih]; omega

/-- What a lane's bit of a compare says: the condition holds of every element that the lane holds, or that holds the lane
(R116, R122). -/
def laneHolds (w : Nat) (f : Nat → Bool) (j : Nat) : Bool :=
  (List.range (1024 / w)).all fun e => if w * e / 32 ≤ j ∧ j ≤ (w * e + w - 1) / 32 then f e else true

/-- The bit of a lane speaks of the elements of the lane alone (R116, R122). -/
theorem laneHolds_iff {w : Nat} {f : Nat → Bool} {j : Nat} : laneHolds w f j = true ↔
    ∀ e, e < 1024 / w → w * e / 32 ≤ j → j ≤ (w * e + w - 1) / 32 → f e = true := by
  simp only [laneHolds, List.all_eq_true, List.mem_range]
  refine forall_congr' fun e => imp_congr_right fun _ => ?_
  split
  · next h => simp [h]
  · next h => simpa using fun h1 h2 => absurd ⟨h1, h2⟩ h

/-- An element of 64 bits gives both its lanes' bits (R122). -/
theorem laneHolds_double (f : Nat → Bool) {j : Nat} (hj : j < 32) : f (j / 2) = laneHolds 64 f j := by
  rw [Bool.eq_iff_iff, laneHolds_iff]
  refine ⟨fun h e _ h1 h2 => ?_, fun h => h (j / 2) (by omega) (by omega) (by omega)⟩
  rwa [show e = j / 2 by omega]

/-- The elements within a lane give its bit together (R116, R122). -/
theorem laneHolds_within {w : Nat} (hw : w = 8 ∨ w = 16 ∨ w = 32) (f : Nat → Bool) {j : Nat} (hj : j < 32) :
    (steps (j * (32 / w)) 1 (32 / w)).all f = laneHolds w f j := by
  rw [Bool.eq_iff_iff, laneHolds_iff, List.all_eq_true]
  simp only [mem_steps_one]
  rcases hw with rfl | rfl | rfl <;>
    exact ⟨fun h e _ h1 h2 => h e (by omega), fun h e he => h e (by omega) (by omega) (by omega)⟩

/-- The bundle of a compare of registers that are no streams goes on (R116, R122). -/
theorem done_cmpMask (s : State) {w : Nat} (f : Nat → Bool) (fl : Nat → Flg) (d : BitVec 3) (a b : BitVec 5) (m : BitVec 3)
    (h : s.Able) (hw : IsWidth w) (hp : s.plain [a.toNat, b.toNat]) :
    s.done true (cmpMask w f fl d a b m s s) = .next (s.vput
      (s.me.wm d.toNat (mergeMask (laneMask (s.me.rm m.toNat) w) (s.me.rm d.toNat) (laneHolds w f)))
      (((List.range (1024 / w)).filter fun e => active (s.me.rm m.toNat) w e).map fl)) := by
  have hbit (j : Nat) (hj : j < 32) :
      (if w = 64 then f (j / 2) else (steps (j * (32 / w)) 1 (32 / w)).all f) = laneHolds w f j := by
    split
    · next hd => rw [hd, laneHolds_double f hj]
    · next hd => exact laneHolds_within (by unfold IsWidth at hw; omega) f hj
  rw [show s.me.rm m.toNat = s.mask m from rfl, cmpMask, withOperands_plain _ _ _ _ _ _ _ (by simpa using hp)]
  dsimp only
  split
  · rw [mergeMask_congr _ _ hbit]
    exact done_modMe_raise s true (fun t => t.wm d.toNat _) _ h (Slot.wm_pc ..)
  · next hn =>
    rw [mergeMask_of_not_any hn, filter_active_of_not_any hn, wm_rm, List.map_nil, vput_nil]
    exact done_ok s s true h

section
variable {i : Instr} {d : BitVec 3} {a b : BitVec 5} {m t : BitVec 3}

/-- A compare of float elements, its condition told in other words (R116). -/
theorem vgoes_fCmp (c : FCond) (holds : Fv → Fv → Bool) (hc : ∀ x y, c.holds x y = holds x y)
    (hx : ∀ s, exec i s = s.aloneV i false fun cur => fCmp c d a b m t s cur) :
    VGoes i (fun s => s.plain [a.toNat, b.toNat]) fun s =>
      let F := fFmt t.toNat
      let x := fun e => F.val (VReg.elem (s.me.rv a.toNat) F.width e)
      let y := fun e => F.val (VReg.elem (s.me.rv b.toNat) F.width e)
      s.vput (s.me.wm d.toNat (mergeMask (laneMask (s.me.rm m.toNat) F.width) (s.me.rm d.toNat)
          (laneHolds F.width fun e => holds (x e) (y e))))
        (((List.range (1024 / F.width)).filter fun e => active (s.me.rm m.toNat) F.width e).map fun e =>
          { nan := (x e).isNan || (y e).isNan }) := by
  refine vgoes_of_done hx fun s h hp => ?_
  simp only [fCmp, srcVal_of_plain hp _ (show a.toNat ∈ _ by simp), srcVal_of_plain hp _ (show b.toNat ∈ _ by simp), hc]
  exact done_cmpMask s _ _ d a b m h (isWidth_fFmt _) hp

/-- A compare of integer elements, its condition told in other words (R122). -/
theorem vgoes_iCmp (c : ICond) (holds : Int → Int → Bool) (hc : ∀ x y, c.holds x y = holds x y)
    (hx : ∀ s, exec i s = s.aloneV i false fun cur => iCmp c d a b m t s cur) :
    VGoes i (fun s => s.plain [a.toNat, b.toNat]) fun s =>
      let w := intWidth t.toNat
      let I := rdInt (iSigned t.toNat) w
      s.vput (s.me.wm d.toNat (mergeMask (laneMask (s.me.rm m.toNat) w) (s.me.rm d.toNat)
          (laneHolds w fun e => holds (I (VReg.elem (s.me.rv a.toNat) w e)) (I (VReg.elem (s.me.rv b.toNat) w e)))))
        (((List.range (1024 / w)).filter fun e => active (s.me.rm m.toNat) w e).map fun _ => {}) := by
  refine vgoes_of_done hx fun s h hp => ?_
  simp only [iCmp, srcVal_of_plain hp _ (show a.toNat ∈ _ by simp), srcVal_of_plain hp _ (show b.toNat ∈ _ by simp), hc]
  exact done_cmpMask s _ _ d a b m h (isWidth_intWidth _) hp

end

/-- Of two values at most one is the lesser (R116). -/
theorem lt_asymm_fv {x y : Fv} (h : x.lt y = true) : y.lt x = false := by
  cases x with
  | nan => simp [Fv.lt] at h
  | inf p => cases y <;> simp_all [Fv.lt]
  | fin p k e =>
    cases y with
    | nan => rfl
    | inf q => simpa [Fv.lt] using h
    | fin q l f =>
      simp only [Fv.lt, decide_eq_true_eq, decide_eq_false_iff_not, Int.min_comm f e] at h ⊢
      omega

/-- A NaN is not less than a value, nor a value than a NaN (R116). -/
theorem lt_of_isNan {x y : Fv} (h : (x.isNan || y.isNan) = true) : x.lt y = false := by
  cases x with
  | nan => rfl
  | inf p => cases y <;> simp_all [Fv.lt, Fv.isNan]
  | fin p k e => cases y <;> simp_all [Fv.lt, Fv.isNan]

/-- Not greater is less or equal, where neither is a NaN (R116). -/
theorem le_holds (x y : Fv) : FCond.le.holds x y = (x.lt y || x.eq y) := by
  dsimp only [FCond.holds]
  rw [Fv.eq, ← Bool.not_or x.isNan]
  cases hnan : (x.isNan || y.isNan)
  · cases hlt : x.lt y
    · simp
    · simp [lt_asymm_fv hlt]
  · simp [lt_of_isNan hnan]

/-- Settles O6: the conversions are elementwise, and a compare's bits are those of its lanes' elements. -/
theorem vectorConversionsAndCompares : Obligations.VectorConversionsAndCompares := by
  refine ⟨fun d a b m t => ?_, fun d a b m t => ?_⟩
  · exact ⟨vgoes_fNarrow .f16 fun _ => rfl, vgoes_fNarrow .bf16 fun _ => rfl,
      vgoes_fLanes (fun _ x j => Fmt.f32.result .rne [Fmt.f16.val (VReg.elem x 16 j)] (Fmt.f16.val (VReg.elem x 16 j))) fun _ => rfl,
      vgoes_fLanes (fun _ x j => Fmt.f32.result .rne [Fmt.bf16.val (VReg.elem x 16 j)] (Fmt.bf16.val (VReg.elem x 16 j))) fun _ => rfl,
      vgoes_fLanes (fun _ x j => Fv.toSat (fMode t.toNat) true 32 (Fmt.f32.val (VReg.elem x 32 j))) fun _ => rfl,
      vgoes_fLanes (fun _ x j => Fv.toSat (fMode t.toNat) false 32 (Fmt.f32.val (VReg.elem x 32 j))) fun _ => rfl,
      vgoes_fLanes (fun _ x j => Fmt.f32.result (fMode t.toNat) [] (Fv.int (sgn 32 (VReg.elem x 32 j)))) fun _ => rfl,
      vgoes_fLanes (fun _ x j => Fmt.f32.result (fMode t.toNat) [] (Fv.int (VReg.elem x 32 j))) fun _ => rfl,
      fun ht s _ hd hp => ⟨traps_fWiden .f16 (fun _ => rfl) ht hd hp, traps_fWiden .bf16 (fun _ => rfl) ht hd hp⟩⟩
  · exact ⟨vgoes_fCmp .eq (fun x y => x.eq y) (fun _ _ => rfl) fun _ => rfl,
      vgoes_fCmp .ne (fun x y => !x.eq y) (fun _ _ => rfl) fun _ => rfl,
      vgoes_fCmp .lt (fun x y => x.lt y) (fun _ _ => rfl) fun _ => rfl,
      vgoes_fCmp .le (fun x y => x.lt y || x.eq y) le_holds fun _ => rfl,
      vgoes_fCmp .un (fun x y => x.isNan || y.isNan) (fun _ _ => rfl) fun _ => rfl,
      vgoes_fCmp .or (fun x y => !(x.isNan || y.isNan)) (fun _ _ => rfl) fun _ => rfl,
      vgoes_iCmp .eq (fun x y => x = y) (fun _ _ => rfl) fun _ => rfl,
      vgoes_iCmp .ne (fun x y => x ≠ y) (fun x y => by simp [ICond.holds, bne, beq_eq_decide]) fun _ => rfl,
      vgoes_iCmp .lt (fun x y => x < y) (fun _ _ => rfl) fun _ => rfl,
      vgoes_iCmp .le (fun x y => x ≤ y) (fun _ _ => rfl) fun _ => rfl⟩

end Sys2Proof.Machine
end

section
/-! SUPPORT. Elementwise integer arithmetic, logic and shifts (R119). -/

namespace Sys2Proof.Machine

section
variable {i : Instr} {d a b : BitVec 5} {m t : BitVec 3}

/-- A function of the elements of two vectors (R119). -/
theorem vgoes_iBin (f : Bool → Nat → Nat → Nat → Nat × Flg)
    (hx : ∀ s, exec i s = s.aloneV i false fun cur => iBin f d a b m t s cur) :
    VGoes i (fun s => s.plain [d.toNat, a.toNat, b.toNat]) fun s =>
      s.vlanes d.toNat (intWidth t.toNat) (s.me.rm m.toNat) fun e =>
        f (iSigned t.toNat) (intWidth t.toNat) (VReg.elem (s.me.rv a.toNat) (intWidth t.toNat) e)
          (VReg.elem (s.me.rv b.toNat) (intWidth t.toNat) e) := by
  refine vgoes_elemwise [a.toNat, b.toNat] _ (isWidth_intWidth _).dvd hx fun s hp e _ _ => ?_
  rw [srcVal_of_plain hp _ (by simp), srcVal_of_plain hp _ (by simp)]

/-- A function of the elements of one vector and a second operand, which is cut to the width (R113, R119). -/
theorem vgoes_iOne (f : Bool → Nat → Nat → Nat → Nat × Flg) (y : State → Nat)
    (hx : ∀ s, exec i s = s.aloneV i false fun cur => iOne f d a (y s) m t s cur) :
    VGoes i (fun s => s.plain [d.toNat, a.toNat]) fun s =>
      s.vlanes d.toNat (intWidth t.toNat) (s.me.rm m.toNat) fun e =>
        f (iSigned t.toNat) (intWidth t.toNat) (VReg.elem (s.me.rv a.toNat) (intWidth t.toNat) e)
          (y s % 2 ^ intWidth t.toNat) := by
  refine vgoes_elemwise [a.toNat] _ (isWidth_intWidth _).dvd hx fun s hp e _ _ => ?_
  rw [srcVal_of_plain hp _ (by simp)]

/-- An immediate operand of six bits fits every width (R119). -/
theorem mod_width_of_imm (imm : BitVec 6) (t : Nat) : imm.toNat % 2 ^ intWidth t = imm.toNat := by
  have h8 : 8 ≤ intWidth t := by
    have := isWidth_intWidth t
    unfold IsWidth at this
    omega
  exact Nat.mod_eq_of_lt (imm.isLt.trans_le (Nat.pow_le_pow_right (by decide) (by omega)))

/-- A function of the elements of one vector and an immediate operand (R119). -/
theorem vgoes_iOne_imm (f : Bool → Nat → Nat → Nat → Nat × Flg) {imm : BitVec 6}
    (hx : ∀ s, exec i s = s.aloneV i false fun cur => iOne f d a imm.toNat m t s cur) :
    VGoes i (fun s => s.plain [d.toNat, a.toNat]) fun s =>
      s.vlanes d.toNat (intWidth t.toNat) (s.me.rm m.toNat) fun e =>
        f (iSigned t.toNat) (intWidth t.toNat) (VReg.elem (s.me.rv a.toNat) (intWidth t.toNat) e) imm.toNat := by
  have h := vgoes_iOne f (fun _ => imm.toNat) hx
  rwa [mod_width_of_imm] at h

end

/-- Settles O7: each syllable is one of the elementwise schemes above, with its own function of the operands. -/
theorem vectorIntegerArithmetic : Obligations.VectorIntegerArithmetic := by
  intro d a b sc imm m t
  exact ⟨vgoes_iBin iAdd fun _ => rfl, vgoes_iBin iSub fun _ => rfl, vgoes_iBin iMul fun _ => rfl, vgoes_iBin iMulh fun _ => rfl,
    vgoes_iBin iMin fun _ => rfl, vgoes_iBin iMax fun _ => rfl, vgoes_iBin iAbsd fun _ => rfl, vgoes_iBin iAnd fun _ => rfl,
    vgoes_iBin iOr fun _ => rfl, vgoes_iBin iXor fun _ => rfl, vgoes_iOne iNot (fun _ => 0) fun _ => rfl,
    vgoes_iBin iShl fun _ => rfl, vgoes_iBin iShr fun _ => rfl, vgoes_iBin iSra fun _ => rfl, vgoes_iBin iRshr fun _ => rfl,
    vgoes_iBin (iSat (· + ·)) fun _ => rfl, vgoes_iBin (iSat (· - ·)) fun _ => rfl,
    vgoes_iOne iAdd (fun s => (s.rs sc.toNat).toNat) fun _ => rfl, vgoes_iOne iSub (fun s => (s.rs sc.toNat).toNat) fun _ => rfl,
    vgoes_iOne iMul (fun s => (s.rs sc.toNat).toNat) fun _ => rfl, vgoes_iOne iMin (fun s => (s.rs sc.toNat).toNat) fun _ => rfl,
    vgoes_iOne iMax (fun s => (s.rs sc.toNat).toNat) fun _ => rfl, vgoes_iOne_imm iShl fun _ => rfl,
    vgoes_iOne_imm iShr fun _ => rfl, vgoes_iOne_imm iSra fun _ => rfl, vgoes_iOne_imm iRshr fun _ => rfl⟩

end Sys2Proof.Machine
end

section
/-! SUPPORT. Sums of products, narrowing and widening of integers, and bit counts (R120, R121, R123). -/

namespace Sys2Proof.Machine

/-- A running sum over a list is the sum of its terms. -/
theorem foldl_add_eq_sum {α M : Type} [AddMonoid M] (f : α → M) (l : List α) : l.foldl (fun r x => r + f x) 0 = (l.map f).sum := by
  rw [List.sum_eq_foldl, List.foldl_map]

section
variable {i : Instr} {sat : Bool} {v n code : Nat} {d a b : BitVec 5} {m t : BitVec 3}

/-- Products of elements are summed into each active lane, with or without saturation (R120). -/
theorem vgoes_iDot (hx : ∀ s, exec i s = s.aloneV i false fun cur => iDot sat v n code d a b m t s cur) (ht : t.toNat / 2 = code) :
    VGoes i (fun s => s.plain [d.toNat, a.toNat, b.toNat]) fun s => s.vlanes d.toNat 32 (s.me.rm m.toNat) fun j =>
      let I := rdInt (iSigned t.toNat)
      let z := I 32 (VReg.elem (s.me.rv d.toNat) 32 j) + ((List.range n).map fun k =>
        I v (VReg.elem (s.me.rv a.toNat) v (n * j + k)) * I v (VReg.elem (s.me.rv b.toNat) v (n * j + k))).sum
      if sat then (wrap 32 (satT (iSigned t.toNat) 32 z).1, { sat := (satT (iSigned t.toNat) 32 z).2 }) else (wrap 32 z, {}) := by
  refine vgoes_of_done hx fun s h hp => ?_
  have hp' : s.plain ([a.toNat, b.toNat] ++ [] ++ [d.toNat]) := fun r hr => hp r (by simp at hr ⊢; tauto)
  rw [iDot, if_pos ht, withOperands_plain _ _ _ _ _ _ _ hp']
  simp only [srcVal_of_plain hp _ (show a.toNat ∈ _ by simp), srcVal_of_plain hp _ (show b.toNat ∈ _ by simp), foldl_add_eq_sum]
  exact done_modMe_raise s true (fun t => t.wv d.toNat _) _ h rfl

/-- A sum of products whose type has another code traps ILLCOMBO (R72, R120). -/
theorem traps_iDot {s : State} (hx : ∀ s, exec i s = s.aloneV i false fun cur => iDot sat v n code d a b m t s cur)
    (ht : t.toNat / 2 ≠ code) (hd : s.Direct) (hp : s.plain [d.toNat, a.toNat, b.toNat]) : Traps (exec i s) s cILLCOMBO 0 true := by
  refine traps_of_aloneV hx hd ?_
  rw [iDot, if_neg ht]
  exact withOperands_trap s s [a.toNat, b.toNat] [] [d.toNat] _ _ _ _ fun r hr => hp r (by simp at hr ⊢; tauto)

/-- Widening of either half (R121). -/
theorem vgoes_iWiden (hi : Bool) (hx : ∀ s, exec i s = s.aloneV i false fun cur => iWiden hi d a m t s cur) :
    VGoes i (fun s => s.plain [d.toNat, a.toNat]) fun s => s.vlanes d.toNat (2 * intWidth t.toNat) (s.me.rm m.toNat) fun e =>
      let w := intWidth t.toNat
      (wrap (2 * w) (rdInt (iSigned t.toNat) w (VReg.elem (s.me.rv a.toNat) w (if hi then e + 512 / w else e))), {}) := by
  have hw : 2 * intWidth t.toNat ∣ 1024 := by
    rcases isWidth_intWidth t.toNat with hw | hw | hw | hw <;> rw [hw] <;> decide
  refine vgoes_elemwise [a.toNat] _ hw hx fun s hp e _ _ => ?_
  rw [srcVal_of_plain hp _ (by simp)]

end

/-- Narrowing with saturation reads the elements of two vectors (R121). -/
theorem vgoes_vsatn (d a b : BitVec 5) (m t : BitVec 3) :
    VGoes (.vsatn d a b m t) (fun s => s.plain [d.toNat, a.toNat, b.toNat]) fun s =>
      s.vlanes d.toNat (intWidth t.toNat) (s.me.rm m.toNat) fun e =>
        let w := intWidth t.toNat
        let x := if e < 512 / w then VReg.elem (s.me.rv a.toNat) (2 * w) e else VReg.elem (s.me.rv b.toNat) (2 * w) (e - 512 / w)
        let r := satT (iSigned t.toNat) w (sgn (2 * w) x)
        (wrap w r.1, { sat := r.2 }) := by
  refine vgoes_elemwise (mk := fun s => s.mask m) [a.toNat, b.toNat] _ (isWidth_intWidth _).dvd (fun _ => rfl) fun s hp e _ _ => ?_
  rw [srcVal_of_plain hp _ (by simp), srcVal_of_plain hp _ (by simp)]

/-- The 1 bits of the active lanes below a lane, counted (R123). -/
theorem vgoes_vprepop (d a : BitVec 5) (m t : BitVec 3) :
    VGoes (.vprepop d a m t) (fun s => s.plain [d.toNat, a.toNat]) fun s => s.vlanes d.toNat 32 (s.me.rm m.toNat) fun j =>
      (((List.range j).map fun k =>
        if (s.me.rm m.toNat).getLsbD k then popcount (VReg.elem (s.me.rv a.toNat) 32 k) 32 else 0).sum, {}) := by
  have hterm (mk : W32) (x : VReg) (j : Nat) :
      (List.range j).foldl (fun r k => if mk.getLsbD k then r + popcount (VReg.elem x 32 k) 32 else r) 0
        = ((List.range j).map fun k => if mk.getLsbD k then popcount (VReg.elem x 32 k) 32 else 0).sum := by
    rw [← foldl_add_eq_sum]
    refine List.foldl_ext _ _ _ fun r k _ => ?_
    split <;> rfl
  simp only [← hterm]
  exact vgoes_fLanes (fun s x j =>
    ((List.range j).foldl (fun r k => if (s.mask m).getLsbD k then r + popcount (VReg.elem x 32 k) 32 else r) 0, {})) fun _ => rfl

/-- Settles O8: the sums of products with their traps, then the elementwise narrowing, widening and counts. -/
theorem vectorSumsAndWidths : Obligations.VectorSumsAndWidths := by
  intro d a b m t
  refine ⟨fun ht => ?_, fun ht => ?_, fun s _ hd hp => ⟨fun ht => ?_, fun ht => ?_⟩, vgoes_vsatn d a b m t,
    vgoes_iWiden false fun _ => rfl, vgoes_iWiden true fun _ => rfl, vgoes_iOne (fun _ w x _ => (popcount x w, {})) (fun _ => 0) fun _ => rfl,
    vgoes_iOne (fun _ w x _ => (clzN x w, {})) (fun _ => 0) fun _ => rfl, vgoes_vprepop d a m t⟩
  · exact ⟨vgoes_iDot (sat := false) (fun _ => rfl) ht, vgoes_iDot (sat := true) (fun _ => rfl) ht⟩
  · exact ⟨vgoes_iDot (sat := false) (fun _ => rfl) ht, vgoes_iDot (sat := true) (fun _ => rfl) ht⟩
  · exact ⟨traps_iDot (fun _ => rfl) ht hd hp, traps_iDot (fun _ => rfl) ht hd hp⟩
  · exact ⟨traps_iDot (fun _ => rfl) ht hd hp, traps_iDot (fun _ => rfl) ht hd hp⟩

end Sys2Proof.Machine
end

section
/-! SUPPORT. Moves between lanes (R124), and the merge of VTOPK (R130). -/

namespace Sys2Proof.Machine

/-! ### Moves between lanes (R124) -/

/-- The active lanes below a lane are counted by the mask's bits (R124). -/
theorem below_eq (mk : W32) (j : Nat) : below mk j = ((List.range j).filter fun k => mk.getLsbD k).length := popcount_eq ..

/-- A V syllable that writes every lane of a register and raises no flag (R70, R124). -/
theorem vgoes_wholeWrite_unflagged {i : Instr} {d : Nat} {mk : State → W32} {v : State → VReg} (srcs : List Nat) (v' : State → VReg)
    (hx : ∀ s, exec i s = s.aloneV i false fun cur => wholeWrite s cur srcs d (mk s) (v s) [])
    (hv : ∀ s : State, s.plain (d :: srcs) → v s = v' s) :
    VGoes i (fun s => s.plain (d :: srcs)) fun s => if mk s = 0 then s.put s.me else s.put (s.me.wv d (v' s)) := by
  have h := vgoes_wholeWrite srcs v' (fun _ => []) hx fun s hp _ => ⟨hv s hp, rfl⟩
  simpa only [vput_nil] using h

section
variable (d a b : BitVec 5) (imm sc : BitVec 6) (m : BitVec 3)

/-- VSLIDE to lower lanes (R124). -/
theorem vgoes_vslideDn : VGoes (.vslideDn d a imm m) (fun s => s.plain [d.toNat, a.toNat]) fun s =>
    s.vlanes d.toNat 32 (s.me.rm m.toNat) fun j =>
      (if j + imm.toNat < 32 then VReg.elem (s.me.rv a.toNat) 32 (j + imm.toNat) else 0, {}) := by
  simp only [← Nat.le_sub_one_iff_lt (show 0 < 32 by decide)]
  exact vgoes_fLanes (fun _ x j => (if j + imm.toNat ≤ 31 then VReg.elem x 32 (j + imm.toNat) else 0, {})) fun _ => rfl

/-- VEXPND takes the next word for each active lane (R124). -/
theorem vgoes_vexpnd : VGoes (.vexpnd d a m) (fun s => s.plain [d.toNat, a.toNat]) fun s =>
    s.vlanes d.toNat 32 (s.me.rm m.toNat) fun j =>
      (VReg.elem (s.me.rv a.toNat) 32 ((List.range j).filter fun k => (s.me.rm m.toNat).getLsbD k).length, {}) := by
  simp only [← below_eq]
  exact vgoes_fLanes (fun s x j => (VReg.elem x 32 (below (s.mask m) j), {})) fun _ => rfl

/-- VPERM takes for each active lane the word of the lane that v[b] names (R124). -/
theorem vgoes_vperm : VGoes (.vperm d a b m) (fun s => s.plain [d.toNat, a.toNat, b.toNat]) fun s =>
    s.vlanes d.toNat 32 (s.me.rm m.toNat) fun j =>
      let k := VReg.elem (s.me.rv b.toNat) 32 j
      (if k < 32 then VReg.elem (s.me.rv a.toNat) 32 k else 0, {}) := by
  refine vgoes_elemwise (mk := fun s => s.mask m) [a.toNat, b.toNat] _ (by decide) (fun _ => rfl) fun s hp e _ _ => ?_
  rw [srcVal_of_plain hp _ (by simp), srcVal_of_plain hp _ (by simp)]

/-- VIOTA numbers the active lanes (R124). -/
theorem vgoes_viota : VGoes (.viota d m) (fun s => s.plain [d.toNat]) fun s =>
    s.vlanes d.toNat 32 (s.me.rm m.toNat) fun j => (((List.range j).filter fun k => (s.me.rm m.toNat).getLsbD k).length, {}) := by
  simp only [← below_eq]
  exact vgoes_elemwise (mk := fun s => s.mask m) [] _ (by decide) (fun _ => rfl) fun _ _ _ _ _ => rfl

/-- VSELV takes each lane from v[a] or from v[b] (R124). -/
theorem vgoes_vselv : VGoes (.vselv d a b m) (fun s => s.plain [d.toNat, a.toNat, b.toNat]) fun s =>
    if s.me.rm m.toNat = 0 then s.put s.me
    else s.put (s.me.wv d.toNat (VReg.ofElems 32 fun j =>
      if (s.me.rm m.toNat).getLsbD j then VReg.elem (s.me.rv a.toNat) 32 j else VReg.elem (s.me.rv b.toNat) 32 j)) := by
  refine vgoes_wholeWrite_unflagged (mk := fun s => s.mask m) [a.toNat, b.toNat] _ (fun _ => rfl) fun s hp => ?_
  rw [srcVal_of_plain hp _ (by simp), srcVal_of_plain hp _ (by simp)]
  rfl

/-- VCMPRS packs the words of the active lanes into the low ones (R124). -/
theorem vgoes_vcmprs : VGoes (.vcmprs d a m) (fun s => s.plain [d.toNat, a.toNat]) fun s =>
    if s.me.rm m.toNat = 0 then s.put s.me
    else s.put (s.me.wv d.toNat (VReg.ofElems 32 fun j =>
      (((List.range 32).filter fun k => (s.me.rm m.toNat).getLsbD k).map fun k =>
        VReg.elem (s.me.rv a.toNat) 32 k).getD j 0)) := by
  refine vgoes_wholeWrite_unflagged (mk := fun s => s.mask m) [a.toNat] _ (fun _ => rfl) fun s hp => ?_
  rw [srcVal_of_plain hp _ (by simp)]
  rfl

end

/-! ### VTOPK (R130) -/

/-- A type's code is a number, or a field (R61). -/
theorem toNat_eq_iff (t : BitVec 3) (k : Nat) (h : k < 8) : t.toNat = k ↔ t = BitVec.ofNat 3 k := by
  rw [← BitVec.toNat_inj, BitVec.toNat_ofNat, Nat.mod_eq_of_lt h]

/-- A NaN among the entries of VTOPK (R130). -/
def topNan (t : BitVec 3) (p : TopEnt) : Bool := t = 0 ∧ (Fmt.f32.val p.bits).isNan = true

/-- What VTOPK orders: no NaN, and under .nz no zero that is not in the list already (R130). -/
def topKept (nz : Bool) (t : BitVec 3) (p : TopEnt) : Bool :=
  ¬(t = 0 ∧ (Fmt.f32.val p.bits).isNan = true)
    ∧ (p.listed = true ∨ ¬(nz = true ∧ if t = 0 then p.bits % 2 ^ 31 = 0 else p.bits = 0))

/-- The entries that stand in the list of v[d] and v[d+1] (R130). -/
def Slot.topListed (u : Slot) (d : Nat) : List TopEnt :=
  ((List.range 32).filter fun j => VReg.elem (u.rv (d + 1)) 32 j ≠ 0xFFFFFFFF).map fun j =>
    ⟨VReg.elem (u.rv d) 32 j, VReg.elem (u.rv (d + 1)) 32 j, true⟩

/-- The active candidates of v[a] with their indices of v[b] (R130). -/
def Slot.topOffered (u : Slot) (a b m : Nat) : List TopEnt :=
  ((List.range 32).filter fun j => (u.rm m).getLsbD j ∧ VReg.elem (u.rv b) 32 j ≠ 0xFFFFFFFF).map fun j =>
    ⟨VReg.elem (u.rv a) 32 j, VReg.elem (u.rv b) 32 j, false⟩

/-- The entries that VTOPK orders, in their order (R130). -/
def topMerged (nz : Bool) (t : BitVec 3) (l : List TopEnt) : List TopEnt :=
  (l.filter (topKept nz t)).foldl (fun l p => topInsert t.toNat p l) []

/-- The entry at a place of the new list: of the `n` best, or the type's lowest value without an index (R130). -/
def topAt (t : BitVec 3) (l : List TopEnt) (n p : Nat) : TopEnt :=
  let low := if t = 0 then 0xFF800000 else if t = 1 then 0x80000000 else 0
  if p < n then l.getD p ⟨low, 0xFFFFFFFF, false⟩ else ⟨low, 0xFFFFFFFF, false⟩

/-- A slot whose list holds at most `k` of the ordered entries, with their count in s54 (R130). -/
def Slot.topped (u : Slot) (d k : Nat) (t : BitVec 3) (l : List TopEnt) : Slot :=
  let n := min k l.length
  ((u.wv d (VReg.ofElems 32 fun p => (topAt t l n p).bits)).wv (d + 1) (VReg.ofElems 32 fun p => (topAt t l n p).idx)).ws 54
    (BitVec.ofNat 64 n)

/-- The model's test for a NaN among the entries. -/
theorem topNan_eq (t : BitVec 3) (p : TopEnt) : (decide (t.toNat = 0) && (Fmt.f32.val p.bits).isNan) = topNan t p := by
  rw [topNan, Bool.decide_and, Bool.decide_eq_true, decide_eq_decide.2 (toNat_eq_iff t 0 (by decide))]
  rfl

/-- The model's test for the entries that it orders. -/
theorem topKept_eq (nz : Bool) (t : BitVec 3) (p : TopEnt) :
    (!(topNan t p) && (p.listed || !(nz && decide (if t.toNat = 0 then p.bits % 2 ^ 31 = 0 else p.bits = 0)))) = topKept nz t p := by
  simp only [topNan, topKept, toNat_eq_iff t 0 (by decide), BitVec.ofNat_eq_ofNat, Bool.decide_and, Bool.decide_or, decide_not,
    Bool.decide_eq_true]

/-- VTOPK merges the active candidates into the ordered list of two registers (R130). -/
theorem vgoes_topk {i : Instr} {ill : Bool} (nz : Bool) {d a b : BitVec 5} {m t : BitVec 3}
    (hx : ∀ s, exec i s = s.aloneV i ill fun cur => topk nz d a b m t s cur) :
    VGoes i (fun s => s.plain [d.toNat, d.toNat + 1, a.toNat, b.toNat]) fun s =>
      if s.me.rm m.toNat = 0 then s.put s.me
      else
        let all := s.me.topListed d.toNat ++ s.me.topOffered a.toNat b.toNat m.toNat
        s.vput (s.me.topped d.toNat (min ((s.rs 54).toNat % 64) 32) t (topMerged nz t all))
          (if all.any (topNan t) then [{ nan := true }] else []) := by
  refine vgoes_of_done hx fun s h hp => ?_
  have hp' : s.plain ([a.toNat, b.toNat] ++ [] ++ [d.toNat, d.toNat + 1]) := fun r hr => hp r (by simp at hr ⊢; tauto)
  have hlisted : (((List.range 32).filter fun j => VReg.elem (s.me.rv (d.toNat + 1)) 32 j != 0xFFFFFFFF).map fun j =>
      (⟨VReg.elem (s.me.rv d.toNat) 32 j, VReg.elem (s.me.rv (d.toNat + 1)) 32 j, true⟩ : TopEnt)) = s.me.topListed d.toNat := by
    simp only [Slot.topListed, bne, beq_eq_decide, decide_not]
  have hoffered : (((List.range 32).filter fun j => (s.mask m).getLsbD j && VReg.elem (s.me.rv b.toNat) 32 j != 0xFFFFFFFF).map fun j =>
      (⟨VReg.elem (s.me.rv a.toNat) 32 j, VReg.elem (s.me.rv b.toNat) 32 j, false⟩ : TopEnt))
        = s.me.topOffered a.toNat b.toNat m.toNat := by
    simp only [Slot.topOffered, State.mask, bne, beq_eq_decide, decide_not, Bool.decide_and, Bool.decide_eq_true]
  rw [topk, withOperands_plain _ _ _ _ _ _ _ hp']
  simp only [srcVal_of_plain hp _ (show a.toNat ∈ _ by simp), srcVal_of_plain hp _ (show b.toNat ∈ _ by simp), hlisted, hoffered,
    topNan_eq, topKept_eq]
  split
  · next hm =>
    rw [if_pos (show s.me.rm m.toNat = 0 from hm)]
    exact done_ok s s true h
  · next hm =>
    rw [if_neg (show ¬s.me.rm m.toNat = 0 from hm), wv_eq, wv_eq, modMe_modMe _ h, ws_eq, modMe_modMe _ h]
    have h1 := toNat_eq_iff t 1 (by decide)
    have h0 := toNat_eq_iff t 0 (by decide)
    simp only [h0, h1]
    exact done_modMe_raise s true (fun u => u.topped d.toNat (min ((s.rs 54).toNat % 64) 32) t _) _ h (Slot.ws_pc ..)

/-- Settles O9: moves between lanes are elementwise or write whole registers; VTOPK's merge is the ordered list's. -/
theorem vectorLaneMovesAndTopK : Obligations.VectorLaneMovesAndTopK := by
  refine ⟨fun d a b imm sc m => ?_, fun d a b m t => ⟨vgoes_topk false fun _ => rfl, vgoes_topk true fun _ => rfl⟩⟩
  exact ⟨vgoes_fLanes (fun _ x j => (if imm.toNat ≤ j then VReg.elem x 32 (j - imm.toNat) else 0, {})) fun _ => rfl,
    vgoes_vslideDn d a imm m, vgoes_fLanes (fun _ x j => (VReg.elem x 32 j, {})) fun _ => rfl, vgoes_vexpnd d a m,
    vgoes_vperm d a b m,
    vgoes_elemwise (mk := fun s => s.mask m) [] _ (by decide) (fun _ => rfl) fun _ _ _ _ _ => rfl,
    vgoes_viota d m, vgoes_vselv d a b m, vgoes_vcmprs d a m⟩

end Sys2Proof.Machine
end

section
/-! SUPPORT. Reductions and scans (R125, R126), mask operations (R131) and VNOP (R132). -/

namespace Sys2Proof.Machine

/-- Two folds agree whose steps agree on what the running value can be. -/
theorem foldl_congr_of_inv {α β : Type} (P : β → Prop) {f g : β → α → β} {l : List α}
    (h : ∀ r, P r → ∀ x ∈ l, f r x = g r x ∧ P (g r x)) {r : β} (hr : P r) : l.foldl f r = l.foldl g r := by
  induction l generalizing r with
  | nil => rfl
  | cons x l ih =>
    obtain ⟨hstep, hkeep⟩ := h r hr x List.mem_cons_self
    rw [List.foldl_cons, List.foldl_cons, hstep]
    exact ih (fun q hq y hy => h q hq y (List.mem_cons_of_mem _ hy)) hkeep

/-- A fold of a choice between the running value and the next may begin with the first value twice. -/
theorem foldl_headD {α : Type} (f : α → α → α) (hf : ∀ x, f x x = x) (x d : α) (l : List α) :
    (x :: l).foldl f ((x :: l).headD d) = l.foldl f x := by
  rw [List.headD_cons, List.foldl_cons, hf]

/-! ### Reductions (R125) -/

/-- The least or greatest of the active words by an order of their numbers (R125). -/
theorem redPick_eq (better : Int → Int → Prop) [DecidableRel better] (sg : Bool) (l : List Nat) :
    redPick (fun x y => better x y) sg l
      = (l.foldl (fun r x => if better (rdInt sg 32 x) (rdInt sg 32 r) then x else r) (l.headD 0), {}) := by
  cases l with
  | nil => rfl
  | cons x l =>
    simp only [redPick, decide_eq_true_eq]
    refine congrArg (·, _) (foldl_headD _ (fun y => ?_) x 0 l).symm
    exact ite_self y

/-- The least or greatest of the active words by VMIN or VMAX, where none is a NaN (R125). -/
theorem redFloat_eq (isMax : Bool) (l : List Nat) :
    redFloat isMax l = if l.any fun x => (Fmt.f32.val x).isNan then (Fmt.f32.qnan, { nan := true })
      else (l.foldl (fun r x => if (if isMax then (Fmt.f32.val x).ltz (Fmt.f32.val r) else (Fmt.f32.val r).ltz (Fmt.f32.val x))
        then r else x) (l.headD 0), {}) := by
  unfold redFloat
  split
  · rfl
  · next hn =>
    cases l with
    | nil => rfl
    | cons x l =>
      simp only [List.any_eq_true, not_exists, not_and, Bool.not_eq_true] at hn
      refine congrArg (·, _) (Eq.trans ?_ (foldl_headD _ (fun y => ?_) x 0 l).symm)
      · refine foldl_congr_of_inv (fun r => (Fmt.f32.val r).isNan = false) (fun r hr y hy => ?_) (hn x List.mem_cons_self)
        have hy' := hn y (List.mem_cons_of_mem _ hy)
        refine ⟨by simp [Fmt.minMax, hr, hy'], ?_⟩
        split_ifs <;> assumption
      · exact ite_self y

section
variable {i : Instr} {d a : BitVec 5} {m t : BitVec 3}

/-- A reduction over the active words fills every lane (R70, R125). -/
theorem vgoes_redWrite (f : List Nat → Nat × Flg) (hx : ∀ s, exec i s = s.aloneV i false fun cur => redWrite f d a m s cur) :
    VGoes i (fun s => s.plain [d.toNat, a.toNat]) fun s =>
      let r := f (activeWords (s.me.rm m.toNat) (s.me.rv a.toNat))
      if s.me.rm m.toNat = 0 then s.put s.me else s.vput (s.me.wv d.toNat (VReg.ofElems 32 fun _ => r.1)) [r.2] := by
  refine vgoes_wholeWrite (mk := fun s => s.mask m) [a.toNat]
    (fun s => VReg.ofElems 32 fun _ => (f (activeWords (s.mask m) (s.me.rv a.toNat))).1)
    (fun s => [(f (activeWords (s.mask m) (s.me.rv a.toNat))).2]) hx fun s hp _ => ?_
  rw [srcVal_of_plain hp _ (by simp)]
  exact ⟨rfl, rfl⟩

/-- The least or greatest active word fills every lane (R125). -/
theorem vgoes_redPick (better : Int → Int → Prop) [DecidableRel better] (sg : Bool)
    (hx : ∀ s, exec i s = s.aloneV i false fun cur => redWrite (redPick (fun x y => better x y) sg) d a m s cur) :
    VGoes i (fun s => s.plain [d.toNat, a.toNat]) fun s =>
      let l := activeWords (s.me.rm m.toNat) (s.me.rv a.toNat)
      let r := l.foldl (fun r x => if better (rdInt sg 32 x) (rdInt sg 32 r) then x else r) (l.headD 0)
      if s.me.rm m.toNat = 0 then s.put s.me else s.vput (s.me.wv d.toNat (VReg.ofElems 32 fun _ => r)) [{}] := by
  simpa only [redPick_eq] using vgoes_redWrite _ hx

/-- The least or greatest active float fills every lane (R125). -/
theorem vgoes_redFloat (isMax : Bool) (hx : ∀ s, exec i s = s.aloneV i false fun cur => redWrite (redFloat isMax) d a m s cur) :
    VGoes i (fun s => s.plain [d.toNat, a.toNat]) fun s =>
      let l := activeWords (s.me.rm m.toNat) (s.me.rv a.toNat)
      let r := if l.any fun x => (Fmt.f32.val x).isNan then (Fmt.f32.qnan, { nan := true })
        else (l.foldl (fun r x => if (if isMax then (Fmt.f32.val x).ltz (Fmt.f32.val r) else (Fmt.f32.val r).ltz (Fmt.f32.val x))
          then r else x) (l.headD 0), {})
      if s.me.rm m.toNat = 0 then s.put s.me else s.vput (s.me.wv d.toNat (VReg.ofElems 32 fun _ => r.1)) [r.2] := by
  simpa only [redFloat_eq] using vgoes_redWrite _ hx

/-- The rounded sum of the active words, by the tree of R50, fills every lane (R125). -/
theorem vgoes_vredAddFloat (d a : BitVec 5) (m t : BitVec 3) :
    VGoes (.vredAddFloat d a m t) (fun s => s.plain [d.toNat, a.toNat]) fun s =>
      let r := treeSum (fMode t.toNat) (s.me.rm m.toNat) (s.me.rv a.toNat)
      if s.me.rm m.toNat = 0 then s.put s.me else s.vput (s.me.wv d.toNat (VReg.ofElems 32 fun _ => r.1)) [r.2] := by
  refine vgoes_wholeWrite (mk := fun s => s.mask m) [a.toNat]
    (fun s => VReg.ofElems 32 fun _ => (treeSum (fMode t.toNat) (s.mask m) (s.me.rv a.toNat)).1)
    (fun s => [(treeSum (fMode t.toNat) (s.mask m) (s.me.rv a.toNat)).2]) (fun _ => rfl) fun s hp _ => ?_
  rw [srcVal_of_plain hp _ (by simp)]
  exact ⟨rfl, rfl⟩

end

/-! ### Scans (R126) -/

/-- A step of a scan: the first active word is copied, and each further one joins the running value (R126). -/
def scanStep (first : Nat → Flg) (f : Nat → Nat → Nat × Flg) (x : VReg) (r : Option Nat × Flg) (k : Nat) : Option Nat × Flg :=
  match r.1 with
  | none => (some (VReg.elem x 32 k), first (VReg.elem x 32 k))
  | some p => ((f p (VReg.elem x 32 k)).1, (f p (VReg.elem x 32 k)).2)

/-- The value and the flags of a step of a scan (R126). -/
def scanNext (first : Nat → Flg) (f : Nat → Nat → Nat × Flg) (x : VReg) (r : Option Nat) (k : Nat) : Nat × Flg :=
  r.elim (VReg.elem x 32 k, first (VReg.elem x 32 k)) fun p => f p (VReg.elem x 32 k)

/-- A step of a scan goes on with its value (R126). -/
theorem scanStep_eq (first : Nat → Flg) (f : Nat → Nat → Nat × Flg) (x : VReg) (r : Option Nat) (g : Flg) (k : Nat) :
    scanStep first f x (r, g) k = (some (scanNext first f x r k).1, (scanNext first f x r k).2) := by
  cases r <;> rfl

/-- The model's scan at an active lane (R126). -/
theorem scanLanes_active (first : Nat → Flg) (f : Nat → Nat → Nat × Flg) {mk : W32} (x : VReg) {i : Nat} (r : Option Nat) (n : Nat)
    (h : mk.getLsbD i = true) : scanLanes first f mk x i r (n + 1) = (i, (scanNext first f x r i).1, (scanNext first f x r i).2)
      :: scanLanes first f mk x (i + 1) (some (scanNext first f x r i).1) n := by
  rw [scanLanes, if_pos h]
  cases r <;> rfl

/-- The model's scan passes a lane that is not active (R126). -/
theorem scanLanes_inactive (first : Nat → Flg) (f : Nat → Nat → Nat × Flg) {mk : W32} (x : VReg) {i : Nat} (r : Option Nat) (n : Nat)
    (h : ¬mk.getLsbD i = true) : scanLanes first f mk x i r (n + 1) = scanLanes first f mk x (i + 1) r n := by
  rw [scanLanes, if_neg h]

/-- The result of a scan at an active lane: the running value over the active lanes up to it, and the flags of its own step (R126). -/
theorem find_scanLanes (first : Nat → Flg) (f : Nat → Nat → Nat × Flg) (mk : W32) (x : VReg) {i j n : Nat} (r : Option Nat) (g : Flg)
    (hij : i ≤ j) (hj : j < i + n) (ha : mk.getLsbD j = true) :
    let q := ((List.range' i (j + 1 - i)).filter fun k => mk.getLsbD k).foldl (scanStep first f x) (r, g)
    (scanLanes first f mk x i r n).find? (fun e => e.1 = j) = some (j, q.1.getD 0, q.2) := by
  induction n generalizing i r g with
  | zero => omega
  | succ n ih =>
    rw [show j + 1 - i = j - i + 1 by omega, List.range'_succ]
    rcases Nat.eq_or_lt_of_le hij with rfl | hlt
    · rw [scanLanes_active first f x r n ha]
      simp [ha, scanStep_eq]
    · have hrest (r' : Option Nat) (g' : Flg) := ih r' g' (Nat.succ_le_of_lt hlt) (by omega)
      rw [show j + 1 - (i + 1) = j - i by omega] at hrest
      by_cases hi : mk.getLsbD i = true
      · rw [scanLanes_active first f x r n hi, List.find?_cons_of_neg (by simp; omega), List.filter_cons_of_pos hi, List.foldl_cons,
          scanStep_eq]
        exact hrest ..
      · rw [scanLanes_inactive first f x r n hi, List.filter_cons_of_neg hi]
        exact hrest ..

/-- What a scan writes in a lane: the running value over the active lanes up to it, and the flags of the last step (R126). -/
def scanAt (first : Nat → Flg) (f : Nat → Nat → Nat × Flg) (mk : W32) (x : VReg) (j : Nat) : Nat × Flg :=
  ((List.range (j + 1)).filter fun k => mk.getLsbD k).foldl (scanStep first f x) (none, {}) |> fun r => (r.1.getD 0, r.2)

/-- An inclusive scan writes the active lanes (R126). -/
theorem vgoes_scanWrite {i : Instr} {d a : BitVec 5} {m : BitVec 3} (first : Nat → Flg) (f : Nat → Nat → Nat × Flg)
    (hx : ∀ s, exec i s = s.aloneV i false fun cur => scanWrite first f d a m s cur) :
    VGoes i (fun s => s.plain [d.toNat, a.toNat]) fun s => s.vlanes d.toNat 32 (s.me.rm m.toNat) fun j =>
      scanAt first f (s.me.rm m.toNat) (s.me.rv a.toNat) j := by
  refine vgoes_elemwise (mk := fun s => s.mask m) [a.toNat] _ (by decide) hx fun s hp j hj ha => ?_
  rw [active_lane] at ha
  have hat := find_scanLanes first f (s.mask m) (s.me.rv a.toNat) (n := 32) none {} (Nat.zero_le j) (by omega) ha
  rw [Nat.sub_zero, ← List.range_eq_range'] at hat
  rw [srcVal_of_plain hp _ (by simp)]
  dsimp only
  rw [hat]
  rfl

/-- A number of 32 bits, read by its type and kept to 32 bits, is itself (R32). -/
theorem wrap_rdInt (sg : Bool) {x : Nat} (h : x < 2 ^ 32) : wrap 32 (rdInt sg 32 x) = x := by
  have hx : x % 2 ^ 32 = x := Nat.mod_eq_of_lt h
  cases sg
  · rw [rdInt, if_neg Bool.false_ne_true, hx, wrap]; omega
  · rw [rdInt, if_pos rfl, sgn, hx, wrap]; split <;> omega

/-- The greatest of the active words is one of them, so that it need not be kept to the width (R126). -/
theorem scanAt_max (sg : Bool) (mk : W32) (x : VReg) (j : Nat) :
    scanAt (fun _ => {}) (iMax sg 32) mk x j
      = scanAt (fun _ => {}) (fun p y => (if rdInt sg 32 p < rdInt sg 32 y then y else p, {})) mk x j := by
  have helem (k : Nat) : VReg.elem x 32 k < 2 ^ 32 := elem_lt x 32 k
  have hfold := foldl_congr_of_inv (fun r : Option Nat × Flg => ∀ p ∈ r.1, p < 2 ^ 32)
    (f := scanStep (fun _ => {}) (iMax sg 32) x)
    (g := scanStep (fun _ => {}) (fun p y => (if rdInt sg 32 p < rdInt sg 32 y then y else p, {})) x)
    (l := (List.range (j + 1)).filter fun k => mk.getLsbD k) (fun r hr k _ => ?_) (r := (none, {})) (by simp)
  · rw [scanAt, hfold]; rfl
  · obtain ⟨r, g⟩ := r
    cases r with
    | none => exact ⟨rfl, by simpa [scanStep] using helem k⟩
    | some p =>
      have hp : p < 2 ^ 32 := hr p rfl
      simp only [scanStep, iMax, iWrap, apply_ite (wrap 32), wrap_rdInt sg hp, wrap_rdInt sg (helem k), Option.mem_def,
        Option.some.injEq, forall_eq', true_and]
      split
      · exact helem k
      · exact hp

/-- The running greatest of the active words (R126). -/
theorem vgoes_vscaniMaxInt (d a : BitVec 5) (m t : BitVec 3) :
    VGoes (.vscaniMaxInt d a m t) (fun s => s.plain [d.toNat, a.toNat]) fun s => s.vlanes d.toNat 32 (s.me.rm m.toNat) fun j =>
      scanAt (fun _ => {}) (fun p y => (if rdInt (iSigned t.toNat) 32 p < rdInt (iSigned t.toNat) 32 y then y else p, {}))
        (s.me.rm m.toNat) (s.me.rv a.toNat) j := by
  simp only [← scanAt_max]
  exact vgoes_scanWrite (fun _ => {}) (iMax (iSigned t.toNat) 32) fun _ => rfl

/-! ### Mask operations and VNOP (R131, R132) -/

/-- A V syllable that writes a whole mask (R131). -/
theorem vgoes_wm {i : Instr} (d : Nat) (x : State → W32) (hx : ∀ s, exec i s = s.aloneV i false fun cur => .ok (cur.wm d (x s))) :
    VGoes i always fun s => s.put (s.me.wm d (x s)) := by
  refine vgoes_of_done hx fun s h _ => ?_
  rw [wm_eq, done_okMe s _ true h, Slot.wm_pc]
  rfl

/-- VNOP changes nothing but the open capture of the slot, which records it (R132, R158). -/
theorem sgoes_vnop : SGoes .vnop always fun s => s.put s.me := by
  intro _ s h _
  change s.done true (s.gate 0 false fun cur => .ok cur) = _
  have hgate : (s.gate 0 false fun cur => .ok cur) = .ok (s.capture 0) := by simp [State.gate]
  rw [hgate, done_ok s _ true ((capture_able s 0).2 h)]

/-- Settles O10: reductions of the active words, scans as running values, and mask operations. -/
theorem vectorReductionsScansAndMasks : Obligations.VectorReductionsScansAndMasks := by
  refine ⟨fun d a m t => ?_, fun d a b n => ?_⟩
  · exact ⟨vgoes_redWrite (fun l => (l.sum % 2 ^ 32, {})) fun _ => rfl,
      vgoes_redPick (fun x y => x < y) (iSigned t.toNat) fun _ => rfl,
      vgoes_redPick (fun x y => y < x) (iSigned t.toNat) fun _ => rfl, vgoes_vredAddFloat d a m t,
      vgoes_redFloat false fun _ => rfl, vgoes_redFloat true fun _ => rfl,
      vgoes_scanWrite (fun _ => {}) (fun p x => ((p + x) % 2 ^ 32, {})) fun _ => rfl, vgoes_vscaniMaxInt d a m t,
      vgoes_scanWrite (fun x => { nan := (Fmt.f32.val x).isNan }) (f32Add (fMode t.toNat)) fun _ => rfl⟩
  · exact ⟨vgoes_wm _ _ fun _ => rfl, vgoes_wm _ _ fun _ => rfl, vgoes_wm _ _ fun _ => rfl, vgoes_wm _ _ fun _ => rfl,
      vgoes_wm _ _ fun _ => rfl, sgoes_vnop⟩

end Sys2Proof.Machine
end

section
/-! SUPPORT. Block quantisation and dequantisation (R128, R129). -/

namespace Sys2Proof.Machine

/-! ### What the operands of VQNT say (R44, R128) -/

section
variable (u : Slot) (a b m : Nat)

/-- The control word (R128). -/
def Slot.qCtl : Nat := VReg.elem (u.rv b) 32 4
/-- The format register that the control word names (R42, R128). -/
def Slot.qFx : W32 := if fld (u.qCtl b) 1 1 = 1 then u.fxb else u.fxa
/-- The placement register that the control word names (R44, R128). -/
def Slot.qSp : W64 := if fld (u.qCtl b) 1 1 = 1 then u.spb else u.spa
/-- The block (R128). -/
def Slot.qBlk : Nat := VReg.elem (u.rv b) 32 1
/-- The offset of the scale (R44, R128). -/
def Slot.qScale : Nat := spBase (u.qSp b) + VReg.elem (u.rv b) 32 0 * spStr (u.qSp b)
  + (if fxGrp (u.qFx b) = 2 then 2 * VReg.elem (u.rv b) 32 2 else if fxGrp (u.qFx b) = 1 then 0 else 2 * u.qBlk b)
/-- The offset of the bitmap's word (R44, R128). -/
def Slot.qMap : Nat := spBmap (u.qSp b) + 4 * (u.qBlk b / 32)
/-- The values of the active lanes, and 0 for the others (R128). -/
def Slot.qVals : List Fv :=
  (List.range 32).map fun i => if (u.rm m).getLsbD i then Fmt.f32.val (VReg.elem (u.rv a) 32 i) else .fin false 0 0
/-- The group's other values: the magnitude, the NaN and the infinity that v[b] tells of (R128). -/
def Slot.qExt : List Fv :=
  (match Fmt.f32.val (VReg.elem (u.rv b) 32 3) with
    | .fin _ k e => [.fin false k e]
    | x => [x]) ++ (if fld (u.qCtl b) 2 1 = 1 then [.nan] else []) ++ (if fld (u.qCtl b) 3 1 = 1 then [.inf false] else [])
/-- The elements of a block and their scale (R47, R128). -/
def Slot.qOut (bx4 : Bool) : List (Nat × Flg) × Nat := quantise bx4 (fld u.fxc.toNat 4 4) (u.qVals a m) (u.qExt b)
/-- A register whose block is replaced by the elements (R128). -/
def Slot.qReg (bx4 : Bool) (d : Nat) : VReg :=
  let lo := if bx4 then u.qBlk b % 8 * 32 else u.qBlk b % 4 * 32
  VReg.ofElems (bxWidth bx4) fun e =>
    if lo ≤ e ∧ e < lo + 32 then ((u.qOut a b m bx4).1.getD (e - lo) (0, {})).1 else VReg.elem (u.rv d) (bxWidth bx4) e
/-- The bitmap's word with the block's bit set or cleared (R128). -/
def Slot.qMapped (old : Nat) : Nat :=
  let bit := 2 ^ (u.qBlk b % 32)
  if u.qCtl b % 2 = 1 then (if old / bit % 2 = 1 then old else old + bit) else if old / bit % 2 = 1 then old - bit else old

end

/-- A bit that is cleared, then added (R128). -/
theorem sub_add_bit (old c bit : Nat) :
    old - old / bit % 2 * bit + c % 2 * bit
      = if c % 2 = 1 then (if old / bit % 2 = 1 then old else old + bit) else if old / bit % 2 = 1 then old - bit else old := by
  have hle : old / bit % 2 = 1 → bit ≤ old := fun h => by
    by_contra hlt
    rw [Nat.div_eq_of_lt (by omega)] at h
    omega
  rcases Nat.mod_two_eq_zero_or_one c with hc | hc <;> rcases Nat.mod_two_eq_zero_or_one (old / bit) with ho | ho
  · simp [hc, ho]
  · simp [hc, ho]
  · simp [hc, ho]
  · simp [hc, ho, Nat.sub_add_cancel (hle ho)]

/-! ### VQNT (R128) -/

/-- A bundle that changes its slot, but not the PC, then what its core holds beside the slots, and raises the flags of its result
elements. -/
theorem done_modMe_modMy_raise (s u : State) (g : Slot → Slot) (f : Core → Core) (fs : List Flg) (h : u.Able)
    (hp : (g u.me).pc = u.me.pc) (hf : ∀ t, f (u.my.setSlot u.cur.2 t) = (f u.my).setSlot u.cur.2 t) :
    s.done true (.ok (((u.modMe g).modMy f).raise u.cur.1 u.cur.2 fs))
      = .next (u.wentOn ((f u.my).flagged fs) (((g u.me).flagged fs).next u.me.pc)) := by
  have hmy : ((u.modMe g).modMy f).my = (f u.my).setSlot u.cur.2 (g u.me) := by rw [my_modMy, my_modMe, hf]
  have hme : ((u.modMe g).modMy f).me = g u.me := by
    rw [me_eq, hmy]
    exact slot_setSlot_same _ h _
  refine (done_raise s ((u.modMe g).modMy f) true fs h).trans (congrArg _ ?_)
  rw [State.vput, hmy, hme, flagged_setSlot, wentOn_modMy, wentOn_modMe, hp]
  exact wentOn_setSlot ..

/-- What VQNT needs of its operands: an allowed place for the scale and, for one scale per column group, for the bitmap's word, in a
store without an error (R44, R45, R128). -/
def State.qntOk (s : State) (b x y : Nat) : Prop :=
  fxGrp (s.me.qFx b) ≠ 3 ∧ spTrap (fxGrp (s.me.qFx b)) (s.me.qSp b) (decide (fld (s.me.qCtl b) 1 1 = 1)) = none
    ∧ s.me.qBlk b ≤ 1023 ∧ s.my.err1 = [] ∧ s.my.err2 = [] ∧ s.seg0 (s.me.qScale b) 2 2 .store = .at x
    ∧ (fxGrp (s.me.qFx b) = 2 → s.seg0 (s.me.qMap b) 4 4 .store = .at y)

/-- The core after VQNT's writes: the bitmap's word, for one scale per column group, and the scale (R128). -/
def State.qntCore (s : State) (a b m x y : Nat) (bx4 : Bool) : Core :=
  (if fxGrp (s.me.qFx b) = 2 then s.my.wr y 4 (s.me.qMapped b (s.my.rd y 4)) else s.my).wr x 2 (s.me.qOut a b m bx4).2

/-- A store without a single-bit error has none to correct after a write of a vector register (R20). -/
theorem touch_wv_nil {s : State} {c : Nat} (h : s.my.err1 = []) (hc : c = s.cur.1) (d : Nat) (v : VReg) (x n : Nat) :
    (s.wv d v).touch c x n = s.wv d v := by
  subst hc
  refine touch_nil _ _ _ _ ?_
  rw [wv_eq]
  exact (congrArg Core.err1 (my_modMe s _)).trans h

/-- A write leaves a store without a single-bit error without one (R19). -/
theorem err1_wr_nil (z : Core) (x n v : Nat) (h : z.err1 = []) : (z.wr x n v).err1 = [] := by
  rw [Core.wr, h]

/-- VQNT with an active lane (R128). -/
theorem done_semVqnt {s : State} {d a b : BitVec 5} {m t : BitVec 3} {x y : Nat} (h : s.Able) (hp : s.plain [d.toNat, a.toNat, b.toNat])
    (hm : s.me.rm m.toNat ≠ 0) (hok : s.qntOk b.toNat x y) :
    let fs := (s.me.qOut a.toNat b.toNat m.toNat (decide (t.toNat = 1))).1.map (·.2)
    s.done true (semVqnt d a b m t s s) = .next (s.wentOn
      ((s.qntCore a.toNat b.toNat m.toNat x y (decide (t.toNat = 1))).flagged fs)
      (((s.me.wv d.toNat (s.me.qReg a.toNat b.toNat m.toNat (decide (t.toNat = 1)) d.toNat)).flagged fs).next s.me.pc)) := by
  obtain ⟨hgrp, hsp, hblk, herr1, herr2, hscale, hmap⟩ := hok
  have hp' : s.plain ([a.toNat, b.toNat] ++ [] ++ [d.toNat]) := fun r hr => hp r (by simp at hr ⊢; tauto)
  have hact : (s.mask m != 0) = true := by simpa [State.mask] using hm
  have ha (act : Bool) := srcVal_of_plain hp act (show a.toNat ∈ _ by simp)
  have hb (act : Bool) := srcVal_of_plain hp act (show b.toNat ∈ _ by simp)
  have hbad (p n : Nat) : s.my.bad p n = false := bad_nil _ _ _ herr2
  have htouch (p n : Nat) : s.touch s.cur.1 p n = s := touch_nil _ _ _ _ herr1
  have hctl : VReg.elem (s.me.rv b.toNat) 32 4 = s.me.qCtl b.toNat := rfl
  have hqblk : VReg.elem (s.me.rv b.toNat) 32 1 = s.me.qBlk b.toNat := rfl
  have hqfx : (if fld (s.me.qCtl b.toNat) 1 1 = 1 then s.me.fxb else s.me.fxa) = s.me.qFx b.toNat := rfl
  have hqsp : (if fld (s.me.qCtl b.toNat) 1 1 = 1 then s.me.spb else s.me.spa) = s.me.qSp b.toNat := rfl
  have hqscale : spBase (s.me.qSp b.toNat) + VReg.elem (s.me.rv b.toNat) 32 0 * spStr (s.me.qSp b.toNat)
      + (if fxGrp (s.me.qFx b.toNat) = 2 then 2 * VReg.elem (s.me.rv b.toNat) 32 2
        else if fxGrp (s.me.qFx b.toNat) = 1 then 0 else 2 * s.me.qBlk b.toNat) = s.me.qScale b.toNat := rfl
  have hqmap : spBmap (s.me.qSp b.toNat) + 4 * (s.me.qBlk b.toNat / 32) = s.me.qMap b.toNat := rfl
  have hmapped (old : Nat) : old - old / 2 ^ (s.me.qBlk b.toNat % 32) % 2 * 2 ^ (s.me.qBlk b.toNat % 32)
      + s.me.qCtl b.toNat % 2 * 2 ^ (s.me.qBlk b.toNat % 32) = s.me.qMapped b.toNat old := sub_add_bit ..
  have hlo : (if t.toNat = 1 then s.me.qBlk b.toNat % 8 * 32 else s.me.qBlk b.toNat % 4 * 32)
      = if decide (t.toNat = 1) = true then s.me.qBlk b.toNat % 8 * 32 else s.me.qBlk b.toNat % 4 * 32 := by
    simp only [decide_eq_true_eq]
  rw [semVqnt]
  simp only [hact, ha, hb, hctl, hqblk, hqfx, hqsp, hqscale, hqmap, hmapped, hgrp, hsp, Nat.not_lt.2 hblk, hscale, State.seg0Trap,
    SegR.offTrap, hbad, Bool.not_true, Bool.false_eq_true, if_false, Bool.and_eq_true, decide_eq_true_eq]
  rw [hlo]
  by_cases hg : fxGrp (s.me.qFx b.toNat) = 2
  · have hmod (f : Core → Core) : s.modCore s.cur.1 f = s.modMy f := rfl
    have herr := (congrArg Core.err1 (my_modMy s fun z => z.wr y 4 (s.me.qMapped b.toNat (s.my.rd y 4)))).trans (err1_wr_nil _ _ _ _ herr1)
    have hme : (s.modMy fun z => z.wr y 4 (s.me.qMapped b.toNat (s.my.rd y 4))).me = s.me := by
      rw [modMy_eq, me_setCore, slot_wr]; rfl
    simp only [hg, hmap hg, if_true, minTrap, ite_self]
    rw [withOperands_plain _ _ _ _ _ _ _ hp', htouch, hmod, touch_wv_nil (c := s.cur.1) herr rfl, State.qntCore, if_pos hg]
    have hend := done_modMe_modMy_raise s (s.modMy fun z => z.wr y 4 (s.me.qMapped b.toNat (s.my.rd y 4)))
      (fun u => u.wv d.toNat (s.me.qReg a.toNat b.toNat m.toNat (decide (t.toNat = 1)) d.toNat))
      (fun z => z.wr x 2 (s.me.qOut a.toNat b.toNat m.toNat (decide (t.toNat = 1))).2)
      ((s.me.qOut a.toNat b.toNat m.toNat (decide (t.toNat = 1))).1.map (·.2)) h rfl fun _ => rfl
    rw [wentOn_modMy, my_modMy, hme] at hend
    exact hend
  · simp only [hg, if_false, minTrap, ite_self]
    rw [withOperands_plain _ _ _ _ _ _ _ hp', touch_wv_nil herr1 rfl, State.qntCore, if_neg hg]
    exact done_modMe_modMy_raise s s (fun u => u.wv d.toNat (s.me.qReg a.toNat b.toNat m.toNat (decide (t.toNat = 1)) d.toNat))
      (fun z => z.wr x 2 (s.me.qOut a.toNat b.toNat m.toNat (decide (t.toNat = 1))).2) _ h rfl fun _ => rfl

/-- VQNT replaces the block's elements and stores the scale and, for one scale per column group, the block's bit (R128). -/
theorem vgoes_vqnt (d a b : BitVec 5) (m t : BitVec 3) (x y : State → Nat) :
    VGoes (.vqnt d a b m t) (fun s => s.plain [d.toNat, a.toNat, b.toNat] ∧ s.me.rm m.toNat ≠ 0 ∧ s.qntOk b.toNat (x s) (y s)) fun s =>
      let bx4 : Bool := t = 1
      let fs := (s.me.qOut a.toNat b.toNat m.toNat bx4).1.map (·.2)
      s.wentOn ((s.qntCore a.toNat b.toNat m.toNat (x s) (y s) bx4).flagged fs)
        (((s.me.wv d.toNat (s.me.qReg a.toNat b.toNat m.toNat bx4 d.toNat)).flagged fs).next s.me.pc) := by
  have hbx : decide (t = 1) = decide (t.toNat = 1) := decide_eq_decide.2 (toNat_eq_iff t 1 (by decide)).symm
  refine vgoes_of_done (fun _ => rfl) fun s h ⟨hp, hm, hok⟩ => ?_
  rw [hbx]
  exact done_semVqnt h hp hm hok

/-- VQNT without an active lane changes nothing (R70, R128). -/
theorem vgoes_vqnt_inactive (d a b : BitVec 5) (m t : BitVec 3) :
    VGoes (.vqnt d a b m t) (fun s => s.plain [d.toNat, a.toNat, b.toNat] ∧ s.me.rm m.toNat = 0) fun s => s.put s.me := by
  refine vgoes_of_done (fun _ => rfl) fun s h ⟨hp, hm⟩ => ?_
  have hp' : s.plain ([a.toNat, b.toNat] ++ [] ++ [d.toNat]) := fun r hr => hp r (by simp at hr ⊢; tauto)
  have hact : (s.mask m != 0) = false := by simpa [State.mask] using hm
  rw [semVqnt]
  simp only [hact, Bool.not_false, Bool.true_or, if_true]
  rw [withOperands_plain _ _ _ _ _ _ _ hp']
  exact done_ok s s true h

/-- VDQNT gives each active lane the value of a block's element under the scale (R129). -/
theorem vgoes_vdqnt (d a b : BitVec 5) (m t : BitVec 3) :
    VGoes (.vdqnt d a b m t) (fun s => s.plain [d.toNat, a.toNat, b.toNat]) fun s =>
      s.vlanes d.toNat 32 (s.me.rm m.toNat) fun i =>
        let bx4 : Bool := t = 1
        let blk := VReg.elem (s.me.rv b.toNat) 32 1
        let x := VReg.elem (s.me.rv a.toNat) (bxWidth bx4) ((if bx4 then blk % 8 else blk % 4) * 32 + i)
        Fmt.f32.result .rne [] (bxValue bx4 (Scale.read (VReg.elem (s.me.rv b.toNat) 32 0 % 2 ^ 16)) x) := by
  refine vgoes_elemwise (mk := fun s => s.mask m) [a.toNat, b.toNat] _ (by decide) (fun _ => rfl) fun s hp e _ _ => ?_
  simp only [srcVal_of_plain hp _ (show a.toNat ∈ _ by simp), srcVal_of_plain hp _ (show b.toNat ∈ _ by simp),
    toNat_eq_iff t 1 (by decide), decide_eq_true_eq, apply_ite (· * 32), BitVec.ofNat_eq_ofNat]

/-- Settles O11: VQNT's checks pass, its writes follow one another, and VDQNT is elementwise. -/
theorem vectorQuantiseAndDequantise : Obligations.VectorQuantiseAndDequantise := by
  exact ⟨fun d a b m t => ⟨vgoes_vqnt d a b m t (fun s => sgBase (s.me.rsg 0) + s.me.qScale b.toNat)
      (fun s => sgBase (s.me.rsg 0) + s.me.qMap b.toNat), vgoes_vqnt_inactive d a b m t⟩, vgoes_vdqnt⟩

end Sys2Proof.Machine
end
